-- ==== Sys2Proof/Word.lean ====
section
/-! DEFINITION. The word types of the Oadric: doublewords, bytes and vector registers (00 R3, 03 R65). -/
namespace Sys2Proof

/-- An integer register, 64 bits (03 R65). -/
abbrev Word := BitVec 64
/-- The unit of storage (00 R2, R3). -/
abbrev Byte := BitVec 8
/-- A vector register, 128 bytes (03 R65, 08 R191). -/
abbrev VReg := BitVec 1024
/-- A mask register, one bit for each byte lane (03 R65). -/
abbrev Mask := BitVec 128

end Sys2Proof
end

