-- ==== Sys2Proof/Machine/Bits.lean ====
section
/-! DEFINITION. Bit fields, sign extension and byte order (00 R1 to R3), and the ranges of the operand fields (02 R29 to R38).
Values that fields are cut from are natural numbers; a register is converted with `toNat`. -/
namespace Sys2Proof.Machine

/-- Bits [lo + n - 1 : lo] of `w`. -/
def bits (w lo n : Nat) : Nat := w / 2 ^ lo % 2 ^ n
/-- Bit `i` of `w` as a truth value. -/
def tbit (w i : Nat) : Bool := w / 2 ^ i % 2 == 1
/-- `w` with bits [lo + n - 1 : lo] replaced by the low `n` bits of `v`. -/
def setBits (w lo n v : Nat) : Nat := w - bits w lo n * 2 ^ lo + v % 2 ^ n * 2 ^ lo
/-- The two's complement value of the low `n` bits of `w`. -/
def signed (n w : Nat) : Int := if w % 2 ^ n < 2 ^ (n - 1) then (w % 2 ^ n : Nat) else (w % 2 ^ n : Nat) - (2 ^ n : Nat)
/-- `v` modulo 2^n, the two's complement pattern of an integer in `n` bits. -/
def wrap (n : Nat) (v : Int) : Nat := (v % (2 ^ n : Nat)).toNat
/-- sext: the low `n` bits of `w` sign-extended to a 64-bit pattern (00 R1). -/
def sext64 (n w : Nat) : Nat := wrap 64 (signed n w)
/-- The `n` low bytes of a number, least significant first (00 R2). -/
def toBytes : Nat → Nat → List Byte
  | 0, _ => []
  | n + 1, v => BitVec.ofNat 8 v :: toBytes n (v / 256)
/-- The number whose bytes, least significant first, are given (00 R2). -/
def ofBytes : List Byte → Nat
  | [] => 0
  | b :: bs => b.toNat + 256 * ofBytes bs
/-- 1 for true and 0 for false. -/
def b2n (b : Bool) : Nat := if b then 1 else 0
/-- Bitwise NOT within 64 bits. -/
def not64 (w : Nat) : Nat := 2 ^ 64 - 1 - w % 2 ^ 64

/-! ### Ranges of operand fields -/

/-- x0 to x15 (R29, R32). -/
def xr (n : Nat) : Bool := n < 16
/-- c0 to c15 (R32). -/
def cr (n : Nat) : Bool := n < 16
/-- v0 to v31; the strand's own file is checked at execution (R32). -/
def vr (n : Nat) : Bool := n < 32
/-- m0 to m7 (R32). -/
def mr (n : Nat) : Bool := n < 8
/-- An even number: register pairs (R34, R35), branch and jump offsets (R29). -/
def even (n : Nat) : Bool := n % 2 == 0
/-- The base of a four-register group (R38). -/
def group (n : Nat) : Bool := n < 32 && n % 4 == 0
/-- Selectors of cinfo: 14 and 16 to 31 raise ILLEGAL (04 R103). -/
def cinfoSelector (n : Nat) : Bool := n < 14 || n == 15
/-- Destination codes of vcvt (08 R210). -/
def vcvtCode (n : Nat) : Bool := n < 16 || (20 ≤ n && n < 23)
/-- Codes of vquant and vdequant (08 R211, R212). -/
def quantCode (n : Nat) : Bool := 4 ≤ n && n < 16
/-- Codes of lacc.rd: fp32 and fp64 (08 R219). -/
def laccCode (n : Nat) : Bool := n == 0 || n == 20
/-- The single register `r` is not one of the three upper registers of the group at `g` (08 R211, R212). -/
def quantOverlap (g r : Nat) : Bool := r ≤ g || g + 3 < r

end Sys2Proof.Machine
end

