-- ==== Sys2Proof/Config.lean ====
section
/-! DEFINITION. Values that the spec leaves open. Each is an opaque constant: nothing in Lean can evaluate it, so a statement
holds whatever its value is. A function of a counter is applied to `State.free`, which the step advances. -/
namespace Sys2Proof.Config

/-- The L1 set of a line, by object id and line number; and which line of a full set a fill replaces, by draw (05 R114; log 11). -/
opaque l1Set : Nat → Nat → Nat
opaque l1Victim : Nat → Nat
/-- A 64-bit value that the spec leaves open, by draw. -/
opaque freeWord : Nat → BitVec 64
/-- Output of the random bit generator (14 R370), by draw (log 15). -/
opaque drbg : Nat → BitVec 64
/-- Errors that a self-test finds (17 R402), by draw, tile, test word and seed: [47:32] their number, [31:0] the first (log 18). -/
opaque bist : Nat → Nat → Nat → Nat → BitVec 64
/-- Byte i of what a destructive self-test leaves in its storage (17 R401), by draw (log 18). -/
opaque lostByte : Nat → Nat → BitVec 8
/-- Identity secret of the package, fused at manufacture (14 R366; log 16). -/
opaque identity : Nat → BitVec 8
/-- The certificate chain of slot 0, provisioned at manufacture (14 R368; log 16). -/
opaque cert0 : List (BitVec 8)
/-- What the package reports in CAPABILITIES beside its flags: the timeout exponent (0), and the transfer (1) and message (2) sizes (14
R369; log 34). -/
opaque spdmSizes : Nat → Nat
/-- Failure code of the ROM's checks at a cold reset, 0 for none; digest of the first image; rows that the self-tests of bring-up find
failing, as die and SRAM row address (14 R366, 17 R407; log 40), by draw. -/
opaque romFailure : Nat → Nat
opaque firmwareDigest : Nat → Nat
opaque bootRows : Nat → List (Nat × Nat)
/-- The fused defect map (17 R405; log 17): bytes of each die's map, where the layout fixes none. -/
opaque defectMap : Nat → Nat → BitVec 8
/-- The lane of a die-to-die group that a lasting fault strikes, by draw; the L2 slice that a line has its home on, by
the slices of its world (01 R20); the edge of
its last die at which a request of another die arrives, and the die-to-die ports, as die × 4 + edge, that it enters on its way, by draw and
the two dies (14 R353); the package number of the board configuration (15 R379);
cycles that a self-test takes, by draw (17 R401) (log 103). -/
opaque failedLane : Nat → Nat
opaque homeSlice : List Nat → Nat → Nat
opaque meshEdge : Nat → Nat
opaque meshRoute : Nat → Nat → Nat → List Nat
opaque boardPkg : Nat
opaque bistCycles : Nat → Nat
/-- Which of the worlds that are locked for setup a key.new of the Separator serves, by draw (14 R363; log 99). -/
opaque setupWorld : Nat → Nat

/-- Error code of a subscription that a refusal or an error at a port ends (10 R278), by draw (log 27). -/
opaque churnError : Nat → BitVec 7

end Sys2Proof.Config
end

