-- ==== Sys2Proof/Syntax.lean ====
section
/-! DEFINITION. The instructions and events of the Oadric: one constructor for every row of spec/opcode_table.json.
The first 251 are Fliula instructions (02 R25 to R41); their arguments are the operand fields of the encoding, from the
most significant field down (standard formats: rd first, then the sources, then the immediate). An immediate is the field's
own bits, sign extension being part of the meaning; a branch or jump offset is the two's complement byte offset in 13 or 21 bits.
The instructions without operands stand after the others. The other 116 are the events of the table: whole steps of an engine, a port, the Separator, the host, the debugger or the
hardware; their arguments name the instance (k a strand key, g a global tile address, w a world, id a transfer, ...). -/
namespace Sys2Proof

/-- The rows of spec/opcode_table.json. -/
inductive Instr where
  /-- LUI, R68: Writes the sign-extended 20-bit immediate shifted left by 12 to xd. -/
  | lui (d imm : Nat)
  /-- AUIPC, R68: Adds the shifted 20-bit immediate to the pc and writes the sum to xd. -/
  | auipc (d imm : Nat)
  /-- JAL, R71: Jumps pc-relative and writes the return address to xd. -/
  | jal (d off : Nat)
  /-- JALR, R71: Jumps to xa plus an offset, with bit 0 cleared, and writes the return address to xd. -/
  | jalr (d a imm : Nat)
  /-- BEQ, R71: Branches when xa equals xb. -/
  | beq (a b off : Nat)
  /-- BNE, R71: Branches when xa differs from xb. -/
  | bne (a b off : Nat)
  /-- BLT, R71: Branches when xa is less than xb, signed. -/
  | blt (a b off : Nat)
  /-- BGE, R71: Branches when xa is greater than or equal to xb, signed. -/
  | bge (a b off : Nat)
  /-- BLTU, R71: Branches when xa is less than xb, unsigned. -/
  | bltu (a b off : Nat)
  /-- BGEU, R71: Branches when xa is greater than or equal to xb, unsigned. -/
  | bgeu (a b off : Nat)
  /-- ADDI, R68: Adds a sign-extended immediate to xa. -/
  | addi (d a imm : Nat)
  /-- SLTI, R68: Sets xd to 1 when xa is less than the immediate, signed. -/
  | slti (d a imm : Nat)
  /-- SLTIU, R68: Sets xd to 1 when xa is less than the immediate, unsigned. -/
  | sltiu (d a imm : Nat)
  /-- XORI, R68: Exclusive-ORs xa with the immediate. -/
  | xori (d a imm : Nat)
  /-- ORI, R68: ORs xa with the immediate. -/
  | ori (d a imm : Nat)
  /-- ANDI, R68: ANDs xa with the immediate. -/
  | andi (d a imm : Nat)
  /-- SLLI, R68: Shifts xa left by a 6-bit immediate. -/
  | slli (d a sh : Nat)
  /-- SRLI, R68: Shifts xa right logically by a 6-bit immediate. -/
  | srli (d a sh : Nat)
  /-- SRAI, R68: Shifts xa right arithmetically by a 6-bit immediate. -/
  | srai (d a sh : Nat)
  /-- CLZ, R68: Counts the leading zeros of xa. -/
  | clz (d a : Nat)
  /-- CTZ, R68: Counts the trailing zeros of xa. -/
  | ctz (d a : Nat)
  /-- CPOP, R68: Counts the set bits of xa. -/
  | cpop (d a : Nat)
  /-- ADD, R68: Adds xa and xb modulo 2^64. -/
  | add (d a b : Nat)
  /-- SUB, R68: Subtracts xb from xa modulo 2^64. -/
  | sub (d a b : Nat)
  /-- SLL, R68: Shifts xa left by xb[5:0]. -/
  | sll (d a b : Nat)
  /-- SLT, R68: Sets xd to 1 when xa is less than xb, signed. -/
  | slt (d a b : Nat)
  /-- SLTU, R68: Sets xd to 1 when xa is less than xb, unsigned. -/
  | sltu (d a b : Nat)
  /-- XOR, R68: Exclusive-ORs xa and xb. -/
  | xor (d a b : Nat)
  /-- SRL, R68: Shifts xa right logically by xb[5:0]. -/
  | srl (d a b : Nat)
  /-- SRA, R68: Shifts xa right arithmetically by xb[5:0]. -/
  | sra (d a b : Nat)
  /-- OR, R68: ORs xa and xb. -/
  | or (d a b : Nat)
  /-- AND, R68: ANDs xa and xb. -/
  | and (d a b : Nat)
  /-- ORN, R68: ORs xa with NOT xb. -/
  | orn (d a b : Nat)
  /-- ANDN, R68: ANDs xa with NOT xb. -/
  | andn (d a b : Nat)
  /-- MUL, R69: Writes the low 64 bits of xa times xb. -/
  | mul (d a b : Nat)
  /-- MULH, R69: Writes the high 64 bits of the signed product. -/
  | mulh (d a b : Nat)
  /-- MULHSU, R69: Writes the high 64 bits of the signed-by-unsigned product. -/
  | mulhsu (d a b : Nat)
  /-- MULHU, R69: Writes the high 64 bits of the unsigned product. -/
  | mulhu (d a b : Nat)
  /-- DIV, R69: Divides signed, rounding toward zero, and holds the strand for 40 cycles. -/
  | div (d a b : Nat)
  /-- DIVU, R69: Divides unsigned. -/
  | divu (d a b : Nat)
  /-- REM, R69: Writes the signed remainder. -/
  | rem (d a b : Nat)
  /-- REMU, R69: Writes the unsigned remainder. -/
  | remu (d a b : Nat)
  /-- SH1ADD, R68: Writes xb plus xa shifted left by 1. -/
  | sh1add (d a b : Nat)
  /-- SH2ADD, R68: Writes xb plus xa shifted left by 2. -/
  | sh2add (d a b : Nat)
  /-- SH3ADD, R68: Writes xb plus xa shifted left by 3. -/
  | sh3add (d a b : Nat)
  /-- MIN, R68: Writes the smaller of xa and xb, signed. -/
  | min (d a b : Nat)
  /-- MINU, R68: Writes the smaller of xa and xb, unsigned. -/
  | minu (d a b : Nat)
  /-- MAX, R68: Writes the larger of xa and xb, signed. -/
  | max (d a b : Nat)
  /-- MAXU, R68: Writes the larger of xa and xb, unsigned. -/
  | maxu (d a b : Nat)
  /-- ADDIW, R68: Adds the immediate in 32 bits and sign-extends the result. -/
  | addiw (d a imm : Nat)
  /-- SLLIW, R68: Shifts left in 32 bits by a 5-bit immediate. -/
  | slliw (d a sh : Nat)
  /-- SRLIW, R68: Shifts right logically in 32 bits by a 5-bit immediate. -/
  | srliw (d a sh : Nat)
  /-- SRAIW, R68: Shifts right arithmetically in 32 bits by a 5-bit immediate. -/
  | sraiw (d a sh : Nat)
  /-- ADDW, R68: Adds in 32 bits and sign-extends the result. -/
  | addw (d a b : Nat)
  /-- SUBW, R68: Subtracts in 32 bits and sign-extends the result. -/
  | subw (d a b : Nat)
  /-- SLLW, R68: Shifts left in 32 bits. -/
  | sllw (d a b : Nat)
  /-- SRLW, R68: Shifts right logically in 32 bits. -/
  | srlw (d a b : Nat)
  /-- SRAW, R68: Shifts right arithmetically in 32 bits. -/
  | sraw (d a b : Nat)
  /-- MULW, R69: Multiplies in 32 bits and sign-extends the result. -/
  | mulw (d a b : Nat)
  /-- DIVW, R69: Divides signed in 32 bits and holds the strand for 24 cycles. -/
  | divw (d a b : Nat)
  /-- DIVUW, R69: Divides unsigned in 32 bits. -/
  | divuw (d a b : Nat)
  /-- REMW, R69: Writes the signed remainder in 32 bits. -/
  | remw (d a b : Nat)
  /-- REMUW, R69: Writes the unsigned remainder in 32 bits. -/
  | remuw (d a b : Nat)
  /-- CSRRW, R72: Swaps a CSR with xa. -/
  | csrrw (d csr a : Nat)
  /-- CSRRS, R72: Reads a CSR and sets the bits of xa in it. -/
  | csrrs (d csr a : Nat)
  /-- CSRRC, R72: Reads a CSR and clears the bits of xa in it. -/
  | csrrc (d csr a : Nat)
  /-- CSRRWI, R72: Reads a CSR and writes a 5-bit immediate to it. -/
  | csrrwi (d csr uimm : Nat)
  /-- CSRRSI, R72: Reads a CSR and sets the immediate's bits in it. -/
  | csrrsi (d csr uimm : Nat)
  /-- CSRRCI, R72: Reads a CSR and clears the immediate's bits in it. -/
  | csrrci (d csr uimm : Nat)
  /-- LD_B, R139: Loads a sign-extended byte through a capability. -/
  | ldB (la c imm d : Nat)
  /-- LD_H, R139: Loads a sign-extended half. -/
  | ldH (la c imm d : Nat)
  /-- LD_W, R139: Loads a sign-extended word. -/
  | ldW (la c imm d : Nat)
  /-- LD_D, R139: Loads a doubleword. -/
  | ldD (la c imm d : Nat)
  /-- LD_BU, R139: Loads a zero-extended byte. -/
  | ldBu (la c imm d : Nat)
  /-- LD_HU, R139: Loads a zero-extended half. -/
  | ldHu (la c imm d : Nat)
  /-- LD_WU, R139: Loads a zero-extended word. -/
  | ldWu (la c imm d : Nat)
  /-- VLD, R140: Loads 128 bytes into a vector register. -/
  | vld (la c imm d : Nat)
  /-- ST_B, R139: Stores a byte through a capability. -/
  | stB (la c imm s : Nat)
  /-- ST_H, R139: Stores a half. -/
  | stH (la c imm s : Nat)
  /-- ST_W, R139: Stores a word. -/
  | stW (la c imm s : Nat)
  /-- ST_D, R139: Stores a doubleword. -/
  | stD (la c imm s : Nat)
  /-- VST, R140: Stores 128 bytes from a vector register as one operation. -/
  | vst (la c imm s : Nat)
  /-- VLDS, R141: Loads a vector with a strided element pattern. -/
  | vlds (la c o d : Nat)
  /-- VSTS, R141: Stores a vector with a strided element pattern. -/
  | vsts (la c o s : Nat)
  /-- VLDX, R142: Gathers 32 four-byte elements by an index vector. -/
  | vldx (la c o d : Nat)
  /-- VSTX, R142: Scatters 32 four-byte elements by an index vector. -/
  | vstx (la c o s : Nat)
  /-- VLDT, R143: Loads one byte column at a 128-byte interval. -/
  | vldt (la c o d : Nat)
  /-- LD_FE, R128: Waits until a full/empty word is full, then reads it and leaves it full. -/
  | ldFe (la c o d : Nat)
  /-- LD_FET, R128: Waits until the word is full, then reads it and sets it empty. -/
  | ldFet (la c o d : Nat)
  /-- ST_FE, R128: Waits until the word is empty, then stores and sets it full. -/
  | stFe (la c o s : Nat)
  /-- ST_FE_REL, R128: Drains earlier stores to the object, then performs st.fe. -/
  | stFeRel (la c o s : Nat)
  /-- FE_CLR, R128: Sets a full/empty word empty and wakes waiters. -/
  | feClr (la c o : Nat)
  /-- FE_PROBE, R128: Reads a word's full/empty state without waiting. -/
  | feProbe (la c o d : Nat)
  /-- LAND_ARM, R130: Sets a landing word's target and clears its count and error bits. -/
  | landArm (la c o s : Nat)
  /-- LAND_WAIT, R130: Waits until a landing word's gen differs from the given value or err is set. -/
  | landWait (la c o s : Nat)
  /-- LAND_GET, R130: Reads both words of a landing word into an even register pair. -/
  | landGet (la c o d : Nat)
  /-- AMO_ADD, R163: Atomically adds at the home slice and returns the old value. -/
  | amoAdd (la c s d : Nat)
  /-- AMO_AND, R163: Atomic AND. -/
  | amoAnd (la c s d : Nat)
  /-- AMO_OR, R163: Atomic OR. -/
  | amoOr (la c s d : Nat)
  /-- AMO_XOR, R163: Atomic XOR. -/
  | amoXor (la c s d : Nat)
  /-- AMO_MIN, R163: Atomic signed minimum. -/
  | amoMin (la c s d : Nat)
  /-- AMO_MAX, R163: Atomic signed maximum. -/
  | amoMax (la c s d : Nat)
  /-- AMO_MINU, R163: Atomic unsigned minimum. -/
  | amoMinu (la c s d : Nat)
  /-- AMO_MAXU, R163: Atomic unsigned maximum. -/
  | amoMaxu (la c s d : Nat)
  /-- AMO_SWAP, R163: Atomic swap. -/
  | amoSwap (la c s d : Nat)
  /-- AMO_CAS, R163: Atomic compare-and-swap using an even register pair. -/
  | amoCas (la c s d : Nat)
  /-- AMO_FADD, R164: Atomically adds two FP32 lanes. -/
  | amoFadd (la c s d : Nat)
  /-- AMO_ENQ, R166: Enqueues a value on a global queue. -/
  | amoEnq (la c s d : Nat)
  /-- AMO_DEQ, R166: Dequeues a value from a global queue. -/
  | amoDeq (la c s d : Nat)
  /-- VADD, R197: Element-wise integer add. -/
  | vadd (et vm a b d : Nat)
  /-- VSUB, R197: Element-wise integer subtract. -/
  | vsub (et vm a b d : Nat)
  /-- VMUL, R197: Element-wise low product. -/
  | vmul (et vm a b d : Nat)
  /-- VMULH, R197: Element-wise signed high product. -/
  | vmulh (et vm a b d : Nat)
  /-- VMULHU, R197: Element-wise unsigned high product. -/
  | vmulhu (et vm a b d : Nat)
  /-- VAND, R197: Bitwise AND of vectors. -/
  | vand (et vm a b d : Nat)
  /-- VOR, R197: Bitwise OR of vectors. -/
  | vor (et vm a b d : Nat)
  /-- VXOR, R197: Bitwise XOR of vectors. -/
  | vxor (et vm a b d : Nat)
  /-- VSLL, R197: Element-wise shift left. -/
  | vsll (et vm a b d : Nat)
  /-- VSRL, R197: Element-wise logical shift right. -/
  | vsrl (et vm a b d : Nat)
  /-- VSRA, R197: Element-wise arithmetic shift right. -/
  | vsra (et vm a b d : Nat)
  /-- VMIN, R197: Element-wise signed minimum. -/
  | vmin (et vm a b d : Nat)
  /-- VMAX, R197: Element-wise signed maximum. -/
  | vmax (et vm a b d : Nat)
  /-- VMINU, R197: Element-wise unsigned minimum. -/
  | vminu (et vm a b d : Nat)
  /-- VMAXU, R197: Element-wise unsigned maximum. -/
  | vmaxu (et vm a b d : Nat)
  /-- VCMPEQ, R198: Integer equality compare into a mask. -/
  | vcmpeq (et vm a b d : Nat)
  /-- VCMPLT, R198: Signed less-than compare into a mask. -/
  | vcmplt (et vm a b d : Nat)
  /-- VCMPLTU, R198: Unsigned less-than compare into a mask. -/
  | vcmpltu (et vm a b d : Nat)
  /-- VCMPLE, R198: Signed less-or-equal compare into a mask. -/
  | vcmple (et vm a b d : Nat)
  /-- VFADD, R199: Element-wise FP add, rounded once. -/
  | vfadd (et vm a b d : Nat)
  /-- VFSUB, R199: Element-wise FP subtract. -/
  | vfsub (et vm a b d : Nat)
  /-- VFMUL, R199: Element-wise FP multiply. -/
  | vfmul (et vm a b d : Nat)
  /-- VFMA, R199: Fused multiply-add into the destination's old element. -/
  | vfma (et vm a b d : Nat)
  /-- VFMIN, R200: Element-wise FP minimum. -/
  | vfmin (et vm a b d : Nat)
  /-- VFMAX, R200: Element-wise FP maximum. -/
  | vfmax (et vm a b d : Nat)
  /-- VFDIV, R199: Element-wise FP divide. -/
  | vfdiv (et vm a b d : Nat)
  /-- VFCMPEQ, R198: FP equality compare into a mask. -/
  | vfcmpeq (et vm a b d : Nat)
  /-- VFCMPLT, R198: FP less-than compare into a mask. -/
  | vfcmplt (et vm a b d : Nat)
  /-- VFCMPLE, R198: FP less-or-equal compare into a mask. -/
  | vfcmple (et vm a b d : Nat)
  /-- VSEL, R202: Selects elements from va or vb by a mask. -/
  | vsel (et vm a b d : Nat)
  /-- VPERM, R202: Permutes the elements of va by the indices in vb. -/
  | vperm (et vm a b d : Nat)
  /-- VADDX, R203: Adds a scalar to each element. -/
  | vaddx (et vm a b d : Nat)
  /-- VMULX, R203: Multiplies each element by a scalar. -/
  | vmulx (et vm a b d : Nat)
  /-- VFMULX, R203: FP-multiplies each element by a scalar. -/
  | vfmulx (et vm a b d : Nat)
  /-- VBCAST, R203: Broadcasts a scalar to every element. -/
  | vbcast (et vm b d : Nat)
  /-- VMVX, R204: Moves one element into an x register. -/
  | vmvx (et a b d : Nat)
  /-- VINSX, R204: Inserts an x value into one element. -/
  | vinsx (et a b d : Nat)
  /-- VSLUP, R205: Slides elements up by a count. -/
  | vslup (et vm a b d : Nat)
  /-- VSLDN, R205: Slides elements down by a count. -/
  | vsldn (et vm a b d : Nat)
  /-- VREDSUM, R207: Integer sum reduction into element 0. -/
  | vredsum (et vm a d : Nat)
  /-- VREDMAX, R207: Signed maximum reduction. -/
  | vredmax (et vm a d : Nat)
  /-- VREDMIN, R207: Signed minimum reduction. -/
  | vredmin (et vm a d : Nat)
  /-- VFREDSUM, R208: FP sum reduction in a fixed pairwise tree. -/
  | vfredsum (et vm a d : Nat)
  /-- VFREDAMAX, R209: Largest-magnitude FP reduction. -/
  | vfredamax (et vm a d : Nat)
  /-- VFSQRT, R201: Element-wise square root. -/
  | vfsqrt (et vm a d : Nat)
  /-- VFEXP2, R201: Element-wise faithful 2 to the power a. -/
  | vfexp2 (et vm a d : Nat)
  /-- VFLOG2, R201: Element-wise faithful base-2 logarithm. -/
  | vflog2 (et vm a d : Nat)
  /-- VFRCP, R201: Element-wise reciprocal. -/
  | vfrcp (et vm a d : Nat)
  /-- VCVT, R210: Converts elements to a destination format code. -/
  | vcvt (et k a fmt d : Nat)
  /-- VQUANT, R211: Quantises a four-register FP32 group by a scale. -/
  | vquant (s a fmt d : Nat)
  /-- VDEQUANT, R212: Dequantises packed elements into a four-register FP32 group. -/
  | vdequant (s a fmt d : Nat)
  /-- LACC_CLR, R215: Clears a long accumulator. -/
  | laccClr (d : Nat)
  /-- LACC_ADD, R216: Adds every element of va to a long accumulator exactly. -/
  | laccAdd (et k a d : Nat)
  /-- LACC_MADD, R217: Adds 32 exact FP32 products to a long accumulator. -/
  | laccMadd (a b d : Nat)
  /-- LACC_MERGE, R218: Adds one accumulator into another and ORs their flags. -/
  | laccMerge (a d : Nat)
  /-- LACC_RD, R219: Rounds an accumulator to FP32 or FP64. -/
  | laccRd (a fmt d : Nat)
  /-- MAND, R213: Bitwise AND of masks. -/
  | mand (a b d : Nat)
  /-- MOR, R213: Bitwise OR of masks. -/
  | mor (a b d : Nat)
  /-- MXOR, R213: Bitwise XOR of masks. -/
  | mxor (a b d : Nat)
  /-- MANDN, R213: ma AND NOT mb. -/
  | mandn (a b d : Nat)
  /-- MPOP, R213: Counts the set bits of a mask into an x register. -/
  | mpop (a d : Nat)
  /-- VID, R206: Writes each element's index. -/
  | vid (et vm d : Nat)
  /-- VADD_W_N, R39: 16-bit form of vadd.w vd, vd, vs2. -/
  | vaddWN (d s : Nat)
  /-- VSUB_W_N, R39: 16-bit form of vsub.w vd, vd, vs2. -/
  | vsubWN (d s : Nat)
  /-- VAND_N, R39: 16-bit form of vand.b vd, vd, vs2. -/
  | vandN (d s : Nat)
  /-- VOR_N, R39: 16-bit form of vor.b vd, vd, vs2. -/
  | vorN (d s : Nat)
  /-- VXOR_N, R39: 16-bit form of vxor.b vd, vd, vs2. -/
  | vxorN (d s : Nat)
  /-- VFADD_F32_N, R39: 16-bit form of vfadd.f32 vd, vd, vs2. -/
  | vfaddF32N (d s : Nat)
  /-- VFMUL_F32_N, R39: 16-bit form of vfmul.f32 vd, vd, vs2. -/
  | vfmulF32N (d s : Nat)
  /-- VFMAX_F32_N, R39: 16-bit form of vfmax.f32 vd, vd, vs2. -/
  | vfmaxF32N (d s : Nat)
  /-- VFADD_BF16_N, R39: 16-bit form of vfadd.bf16 vd, vd, vs2. -/
  | vfaddBf16N (d s : Nat)
  /-- VFMUL_BF16_N, R39: 16-bit form of vfmul.bf16 vd, vd, vs2. -/
  | vfmulBf16N (d s : Nat)
  /-- VFMAX_BF16_N, R39: 16-bit form of vfmax.bf16 vd, vd, vs2. -/
  | vfmaxBf16N (d s : Nat)
  /-- VMAX_W_N, R39: 16-bit form of vmax.w vd, vd, vs2. -/
  | vmaxWN (d s : Nat)
  /-- VMIN_W_N, R39: 16-bit form of vmin.w vd, vd, vs2. -/
  | vminWN (d s : Nat)
  /-- VMV, R39: 16-bit vector move, vor.b vd, vs2, vs2. -/
  | vmv (d s : Nat)
  /-- VFSUB_F32_N, R39: 16-bit form of vfsub.f32 vd, vd, vs2. -/
  | vfsubF32N (d s : Nat)
  /-- VFSUB_BF16_N, R39: 16-bit form of vfsub.bf16 vd, vd, vs2. -/
  | vfsubBf16N (d s : Nat)
  /-- CLD, R95: Moves a capability from a holding entry into a register, leaving the entry null. -/
  | cld (a d : Nat)
  /-- CST, R95: Moves a capability from a register into a null holding entry. -/
  | cst (a b : Nat)
  /-- CMV, R96: Moves one capability register into another. -/
  | cmv (a d : Nat)
  /-- CSPLIT, R97: Splits a capability at a byte offset and clears S in both pieces. -/
  | csplit (a b d : Nat)
  /-- CJOIN, R98: Joins two adjacent pieces and restores S when the result is whole. -/
  | cjoin (a d : Nat)
  /-- CFRAC, R99: Derives a read fraction and increments fracs at the port. -/
  | cfrac (a d : Nat)
  /-- CUNFRAC, R100: Returns a fraction or fill delegate to its owner, decrementing the count. -/
  | cunfrac (a d : Nat)
  /-- CDROP, R101: Makes a capability register null, returning fractions and delegates. -/
  | cdrop (a : Nat)
  /-- CINFO, R103: Writes one fact about a capability or its entry to an x register. -/
  | cinfo (a imm d : Nat)
  /-- CFILL, R102: Derives a fill delegate over a sub-range. -/
  | cfill (a b d : Nat)
  /-- OBJ_NEW, R104: Carves a new object from an arena capability. -/
  | objNew (a b d : Nat)
  /-- OBJ_FREE, R106: Frees an object and advances its entry's generation. -/
  | objFree (a : Nat)
  /-- KEY_NEW, R359: Allocates a sequence key to the world. -/
  | keyNew (d : Nat)
  /-- KEY_END, R360: Ends a sequence key, poisoning its SRAM objects and dropping its L2 sectors. -/
  | keyEnd (la a d : Nat)
  /-- MX_CFG, R241: Checks a proposed mxcfg value and installs it if admitted. -/
  | mxCfg (a d : Nat)
  /-- MX_WLD, R242: Queues the load of a block image into a weight slot. -/
  | mxWld (la a imm : Nat)
  /-- MX_MMA, R243: Queues C := C + A × B on the matrix array. -/
  | mxMma (la a b d : Nat)
  /-- MX_ZERO, R244: Queues the zeroing of an accumulator tile. -/
  | mxZero (la d : Nat)
  /-- MX_ST, R245: Queues the conversion and store of an accumulator tile. -/
  | mxSt (la a d : Nat)
  /-- MX_SWAP, R248: Queues a byte exchange with the mirrored tile. -/
  | mxSwap (la a b : Nat)
  /-- MX_AFL, R249: Queues a gather from an affine layout. -/
  | mxAfl (la a b d : Nat)
  /-- MX_WAIT, R246: Waits for the strand's matrix commands and reports their flags or a pending error. -/
  | mxWait (la d : Nat)
  /-- MX_STAT, R247: Reads one fact about the matrix engine. -/
  | mxStat (imm d : Nat)
  /-- MB_SEND, R266: Sends a payload and a capability to a mailbox. -/
  | mbSend (la a b d : Nat)
  /-- MB_RECV, R267: Releases the slot's taken message, then waits for and takes a visible message. -/
  | mbRecv (la a imm d : Nat)
  /-- MB_PEEK, R268: Reads the header of the next message without taking it. -/
  | mbPeek (imm d : Nat)
  /-- MV_COPY, R269: Queues a byte copy counted at a landing word. -/
  | mvCopy (la a b d : Nat)
  /-- RG_POP, R273: Waits for the slot at a ring cursor and copies it out. -/
  | rgPop (la a imm d : Nat)
  /-- RG_PUSH, R272: Queues the push of a range as one ring slot. -/
  | rgPush (la a b d : Nat)
  /-- RG_DONE, R274: Finishes the slot at a cursor, optionally setting wb, and advances the cursor. -/
  | rgDone (a imm : Nat)
  /-- CH_SUB, R276: Makes a churn subscription binding a ring to an HBM object. -/
  | chSub (la a b d : Nat)
  /-- CH_UNSUB, R278: Stops a subscription and returns its capabilities and status. -/
  | chUnsub (la a d : Nat)
  /-- CDL_NEW, R303: Arms a codelet descriptor and returns its handle. -/
  | cdlNew (a b d : Nat)
  /-- CDL_DEC, R304: Decrements a descriptor's counter by handle. -/
  | cdlDec (la a b : Nat)
  /-- STR_NEW, R306: Creates a persistent strand in an empty persistent slot. -/
  | strNew (a b d : Nat)
  /-- MIG, R309: Migrates the persistent strand to another tile of the run. -/
  | mig (a : Nat)
  /-- TAG_DECL, R311: Declares that a descriptor depends on a readiness tag. -/
  | tagDecl (la a b d : Nat)
  /-- TAG_PUB, R312: Publishes a readiness-tag generation after draining the strand's stores. -/
  | tagPub (la a b d : Nat)
  /-- BAR_ARR, R317: Records an arrival at a barrier phase and returns a phase token. -/
  | barArr (a d : Nat)
  /-- BAR_WAIT, R319: Waits for a token's phase to complete, within a limit. -/
  | barWait (la a b d : Nat)
  /-- SLOT_BORROW, R313: Borrows a spare or empty codelet slot's vector registers. -/
  | slotBorrow (a d : Nat)
  /-- SLOT_RET, R313: Ends the loan of a slot. -/
  | slotRet (a : Nat)
  /-- XMV_RD, R314: Copies a vector register of a lent slot into the issuer's register. -/
  | xmvRd (a imm d : Nat)
  /-- XMV_WR, R314: Copies the issuer's vector register into a lent slot. -/
  | xmvWr (a imm d : Nat)
  /-- STR_STOP, R326: Requests a stop of another slot. -/
  | strStop (a : Nat)
  /-- STR_SAVE, R327: Saves a stopped slot's context into a save object and empties the slot. -/
  | strSave (la a b : Nat)
  /-- STR_LOAD, R329: Restores a save record into an empty slot, leaving it halted. -/
  | strLoad (la a b : Nat)
  /-- STR_GO, R330: Ends a stop and reposts recorded waits. -/
  | strGo (a : Nat)
  /-- RPT, R76: Repeats the following n instructions a counted number of times. -/
  | rpt (n b : Nat)
  /-- JSEG, R79: Jumps to a segment address through the overlay slot records. -/
  | jseg (a d : Nat)
  /-- IFETCH, R132: Loads a code segment into an overlay slot. -/
  | ifetch (la a b : Nat)
  /-- SHK, R371: Computes SHAKE256 on the Separator. -/
  | shk (la a b d : Nat)
  /-- EDSIG, R371: Makes an Ed448 signature on the Separator. -/
  | edsig (la a b d : Nat)
  /-- EDVER, R371: Verifies an Ed448 signature on the Separator. -/
  | edver (la a b d : Nat)
  /-- BIST, R400: Runs a built-in self-test on a storage or logic target. -/
  | bist (la a b d : Nat)
  /-- DRBG, R371: Draws 64 bits from the Separator's DRBG. -/
  | drbg (d : Nat)
  /-- ECALL, R74: Traps with cause ECALL. -/
  | ecall
  /-- EBREAK, R74: Traps with cause BREAK, or enters D mode when the debug module takes breakpoints. -/
  | ebreak
  /-- WFI, R74: Parks a persistent strand until an enabled interrupt is pending. -/
  | wfi
  /-- TRET, R75: Returns from a trap, restoring the mode and the interrupt enable and resuming any suspended repeat. -/
  | tret
  /-- DRET, R74: Leaves D mode and resumes at dpc in the mode recorded in dcsr. -/
  | dret
  /-- CDL_DONE, R305: Ends a codelet, writing out its buffer and returning its argument entries. -/
  | cdlDone
  /-- STR_EXIT, R307: Ends a persistent strand and empties its slot. -/
  | strExit
  /-- STR_YIELD, R308: Makes the strand ineligible until the others have issued or 64 cycles pass. -/
  | strYield
  /-- LOOKAHEAD_WINDOW_CLOSE, R56: A long-latency operation's window closes and its register results and flags are written, or its deferred fault is taken. -/
  | lookaheadWindowClose (k w : Nat)
  /-- TRAP_ENTRY, R336: The strand enters its S-mode handler at tvec for a selected trap or interrupt. -/
  | trapEntry (k : Nat)
  /-- WATCHDOG_EXPIRY, R332: The watchdog count reaches 0, withdrawing parked waits and making WATCHDOG due. -/
  | watchdogExpiry (k : Nat)
  /-- WAIT_LIMIT_EXPIRY, R321: A condition wait's limit expires and the wait is withdrawn with WAIT_LIMIT. -/
  | waitLimitExpiry (k w : Nat)
  /-- BAR_WAIT_LIMIT_EXPIRY, R319: A bar.wait limit expires and it returns 1. -/
  | barWaitLimitExpiry (k w : Nat)
  /-- TIMER_EXPIRY, R341: tdelta reaches 0 and sets tip.tm. -/
  | timerExpiry (k : Nat)
  /-- YIELD_EXPIRY, R308: 64 cycles after str.yield pass and the slot becomes eligible again. -/
  | yieldExpiry (k : Nat)
  /-- WAIT_LIST_RETRY, R125: A waiter that found the port wait list full retries its full/empty request after 64 cycles. -/
  | waitListRetry (k w : Nat)
  /-- MATRIX_COMMAND_START, R232: The head matrix command starts once its unit is idle and conflicts have completed, making its port and engine checks. -/
  | matrixCommandStart (g : Nat)
  /-- MATRIX_COMMAND_COMPLETE, R234: A matrix command completes and its flags are merged into the strand's fmode. -/
  | matrixCommandComplete (g u : Nat)
  /-- MATRIX_COMMAND_ERROR, R233: A running matrix command meets an uncorrectable error or a refused result write and records a pending error. -/
  | matrixCommandError (g u : Nat)
  /-- MX_SWAP_PAIRING, R248: Two mirrored tiles' swaps with the same tag pair and exchange bytes or fail with ENGINE 6. -/
  | mxSwapPairing (g : Nat)
  /-- MOVE_COMMAND_START, R251: The head move-engine command starts when a work-list place is free. -/
  | moveCommandStart (g : Nat)
  /-- MOVE_COMMAND_COMPLETE, R252: A move-engine command completes, releasing accesses held behind it. -/
  | moveCommandComplete (id : Nat)
  /-- IFETCH_LOAD_COMPLETE, R132: An overlay load ends and the slot record becomes valid or invalid. -/
  | ifetchLoadComplete (id : Nat)
  /-- LANDING_PACKET_COUNT, R129: A delivered packet is counted at a landing word, advancing gen when a round completes. -/
  | landingPacketCount (id p : Nat)
  /-- MAILBOX_RESERVATION, R260: A message's first packet reaches the destination mailbox and reserves space or is refused. -/
  | mailboxReservation (id : Nat)
  /-- MAILBOX_RESERVATION_RETRY, R261: A held message retries its reservation on a head advance or every 4,096 cycles. -/
  | mailboxReservationRetry (id : Nat)
  /-- BYTE_COPY_COMPLETE, R255: All packets of a byte copy are written and the old object is freed. -/
  | byteCopyComplete (id : Nat)
  /-- MESSAGE_COMPLETE, R262: A message record completes and vis advances over complete records. -/
  | messageComplete (id : Nat)
  /-- RING_SLOT_WRITE, R272: A push's data arrives at the ring port and is written once a slot is free. -/
  | ringSlotWrite (id : Nat)
  /-- CHURN_LOADER_PUSH, R277: A loader subscription pushes the next chunk of its HBM object into the ring. -/
  | churnLoaderPush (sub : Nat)
  /-- CHURN_STORER_WRITE, R277: A storer subscription pops a slot and writes it back to its HBM object. -/
  | churnStorerWrite (sub : Nat)
  /-- SUBSCRIPTION_END, R278: A subscription ends and churn returns its capabilities to the holding entries. -/
  | subscriptionEnd (sub : Nat)
  /-- CODELET_DISPATCH, R288: The dispatcher fills an empty open codelet slot from the highest-priority ready queue. -/
  | codeletDispatch (g : Nat)
  /-- CODELET_ABORT, R135: A restartable codelet meeting a non-resident granule is discarded and re-queued. -/
  | codeletAbort (k : Nat)
  /-- MIGRATED_STRAND_ENTRY, R310: A migrated context enters the lowest empty persistent slot of its destination. -/
  | migratedStrandEntry (g : Nat)
  /-- STOP_TAKES_EFFECT, R323: A requested stop halts the strand at its first boundary with windows closed, recording parked waits. -/
  | stopTakesEffect (k : Nat)
  /-- TAG_DECL_AT_HOME, R295: A declaration reaches its key's home and decrements, registers a waiter, falls back or goes stale. -/
  | tagDeclAtHome (id : Nat)
  /-- TAG_PUB_AT_HOME, R296: A publication records its generation at the key's home and releases waiters. -/
  | tagPubAtHome (id : Nat)
  /-- COMPLETION_NOTICE, R297: A run's completion notice reaches a tile, which decrements its chained fallback descriptors. -/
  | completionNotice (g idx : Nat)
  /-- LAUNCH_REQUEST, R279: The host submits a launch request, which the Separator checks and accepts, holds or refuses. -/
  | launchRequest (w : Nat)
  /-- HELD_LAUNCH_START, R279: A held launch starts once its tiles are free, in class then arrival order. -/
  | heldLaunchStart
  /-- RUN_COMPLETE, R283: Every tile of a run meets the completion conditions and the run is marked complete. -/
  | runComplete (idx : Nat)
  /-- COMPLETION_REPORT_NEXT, R373: A host write to next retires the presented report and presents the next. -/
  | completionReportNext (w : Nat)
  /-- EXPORT_REQUEST, R381: The host exports an object as a window to a station or to the host aperture. -/
  | exportRequest (w : Nat)
  /-- REVOKE_REQUEST, R384: The host revokes an export and returns the owner capability to a holding entry. -/
  | revokeRequest (w : Nat)
  /-- HOST_TIER_GRANT, R374: The host adds host memory ranges to a die's port-69 arena. -/
  | hostTierGrant (w : Nat)
  /-- WRITE_WROW, R352: A management request from the operator world writes the row-to-world assignment. -/
  | writeWrow (w v : Nat)
  /-- WRITE_CERTIFICATE_SLOT, R368: A management request writes bytes of a certificate slot. -/
  | writeCertificateSlot (w : Nat)
  /-- CERT_WRITE_APPLY, R368: A certificate write held as BUSY is applied once the SPDM exchange ends. -/
  | certWriteApply (w : Nat)
  /-- EVICT_GRANULES, R136: The Separator moves an HBM object's granules out to a granted host range. -/
  | evictGranules (w : Nat)
  /-- RESTORE_GRANULES, R136: The Separator brings granules back to HBM and wakes strands parked on them. -/
  | restoreGranules (w : Nat)
  /-- GET_TDISP_VERSION, R361: TDISP request for the supported version. -/
  | getTdispVersion (w : Nat)
  /-- GET_TDISP_CAPABILITIES, R361: TDISP request for capabilities. -/
  | getTdispCapabilities (w : Nat)
  /-- LOCK_INTERFACE_REQUEST, R362: Moves the world from CONFIG_UNLOCKED to CONFIG_LOCKED. -/
  | lockInterfaceRequest (w : Nat)
  /-- GET_DEVICE_INTERFACE_REPORT, R361: TDISP request for the interface report. -/
  | getDeviceInterfaceReport (w : Nat)
  /-- GET_DEVICE_INTERFACE_STATE, R361: TDISP request for the interface state. -/
  | getDeviceInterfaceState (w : Nat)
  /-- START_INTERFACE_REQUEST, R362: Moves the world from CONFIG_LOCKED to RUN. -/
  | startInterfaceRequest (w : Nat)
  /-- STOP_INTERFACE_REQUEST, R365: Resets the world in the order of R365 and returns it to CONFIG_UNLOCKED. -/
  | stopInterfaceRequest (w : Nat)
  /-- QUIESCE, R362: Vendor request that stops every slot of a RUN world. -/
  | quiesce (w : Nat)
  /-- QUIESCE_COMPLETE, R362: The world's stop completes, QUIESCED is entered and the response is sent. -/
  | quiesceComplete (w : Nat)
  /-- RESUME, R362: Vendor request that restarts stopped slots and returns the world to RUN. -/
  | resume (w : Nat)
  /-- TDISP_UNSUPPORTED_REQUEST, R361: A peer-to-peer binding or unknown vendor byte receives an error response. -/
  | tdispUnsupportedRequest (w b : Nat)
  /-- FUNCTION_LEVEL_RESET, R365: Resets a world: halts strands, erases keys and tables, and zero-fills its storage. -/
  | functionLevelReset (w : Nat)
  /-- IDE_INTEGRITY_FAILURE, R364: An IDE integrity failure puts the world's interface into ERROR. -/
  | ideIntegrityFailure (w : Nat)
  /-- LOCKED_CONFIG_WRITE, R364: A host write to locked configuration puts the interface into ERROR. -/
  | lockedConfigWrite (w : Nat)
  /-- SEPARATOR_STATE_ERROR, R364: An uncorrected error in the Separator's state for a world puts it into ERROR. -/
  | separatorStateError (w : Nat)
  /-- FIRMWARE_ACTIVATION, R363: A firmware update is activated in QUIESCED after extending M1. -/
  | firmwareActivation (w digest : Nat)
  /-- SPDM_GET_VERSION, R369: SPDM GET_VERSION, which resets the connection. -/
  | spdmGetVersion (t : Nat)
  /-- SPDM_GET_CAPABILITIES, R369: SPDM GET_CAPABILITIES. -/
  | spdmGetCapabilities (t ver : Nat)
  /-- SPDM_NEGOTIATE_ALGORITHMS, R369: SPDM NEGOTIATE_ALGORITHMS. -/
  | spdmNegotiateAlgorithms (t ver asym hash : Nat)
  /-- SPDM_GET_DIGESTS, R369: SPDM GET_DIGESTS. -/
  | spdmGetDigests (t ver : Nat)
  /-- SPDM_GET_CERTIFICATE, R369: SPDM GET_CERTIFICATE for a slot portion. -/
  | spdmGetCertificate (t ver slot off len : Nat)
  /-- SPDM_CHALLENGE, R369: SPDM CHALLENGE, answered with a signed CHALLENGE_AUTH. -/
  | spdmChallenge (t ver slot : Nat)
  /-- SPDM_GET_MEASUREMENTS, R369: SPDM GET_MEASUREMENTS of M0 to M7. -/
  | spdmGetMeasurements (t ver idx : Nat)
  /-- SPDM_UNSUPPORTED_REQUEST, R369: Any other SPDM request code receives UnsupportedRequest. -/
  | spdmUnsupportedRequest (t ver code : Nat)
  /-- MAP_READ, R406: Board-controller command 0x10 reads defect-map bytes. -/
  | mapRead (die off len : Nat)
  /-- BLACK_BOX_READ, R406: Board-controller command 0x11 reads a black-box record. -/
  | blackBoxRead (die r : Nat)
  /-- REPAIR_RECORD_READ, R406: Board-controller command 0x12 reads a repair entry. -/
  | repairRecordRead (idx : Nat)
  /-- MARGIN_ACCESS, R406: Board-controller command 0x13 reads or writes a margin register. -/
  | marginAccess (reg wr v : Nat)
  /-- SELF_TEST, R406: Board-controller command 0x14 starts a self-test on a die. -/
  | selfTest (die word seed : Nat)
  /-- SELF_TEST_COMPLETE, R406: A board-controller self-test completes and its result word is sent. -/
  | selfTestComplete (die : Nat)
  /-- OPERATOR_WORLD, R406: Board-controller command 0x15 names the operator world. -/
  | operatorWorld (v : Nat)
  /-- MARGIN_POINT_START, R403: Writing run = 1 takes a lane out of service and starts a margin point. -/
  | marginPointStart (reg v : Nat)
  /-- MARGIN_POINT_COMPLETE, R403: A margin point completes, errs is written and run clears. -/
  | marginPointComplete (reg errs : Nat)
  /-- RAIL_OFFSET_WRITE, R404: A write to railofs requests a die rail offset. -/
  | railOffsetWrite (die v : Nat)
  /-- RAIL_OFFSET_APPLIED, R404: The new rail voltage takes effect within 100 microseconds. -/
  | railOffsetApplied (die : Nat)
  /-- RPTC_WRITE, R77: A CSR write to rptc stores its fields and ends an active repeat. -/
  | rptcWrite (v : Nat)
  /-- WDOG_WRITE, R332: A write to wdog sets the watchdog budget and restarts its count. -/
  | wdogWrite (v : Nat)
  /-- TDELTA_WRITE, R341: A non-zero write to tip.tdelta arms the timer. -/
  | tdeltaWrite (v : Nat)
  /-- FMODE_WRITE, R175: A write to fmode updates flags and rounding mode, ignoring codes 5 to 7. -/
  | fmodeWrite (v : Nat)
  /-- MXCFG_WRITE, R223: A write to mxcfg stores every field, ignoring rm codes 5 to 7. -/
  | mxcfgWrite (v : Nat)
  /-- REGISTER_WRITE, R5: A write to a register with no behaviour of its own stores its writable fields. -/
  | registerWrite (csr v : Nat)
  /-- UALINK_RETRANSMIT, R386: A request with no response within 20 microseconds is retransmitted with the same id. -/
  | ualinkRetransmit (id : Nat)
  /-- UALINK_REQUEST_TIMEOUT, R386: After 16 retransmissions the access ends with ENGINE 24. -/
  | ualinkRequestTimeout (id : Nat)
  /-- DUPLICATE_CACHE_EXPIRY, R387: A duplicate-cache entry expires after 2 ms. -/
  | duplicateCacheExpiry (st idx : Nat)
  /-- BUSY_RETRY, R387: A request refused BUSY is retried after 10 microseconds. -/
  | busyRetry (id : Nat)
  /-- WINDOW_OPEN, R382: A window capability arriving at another package creates an import entry, or closes the window at its exporter. -/
  | windowOpen (st idx peer : Nat)
  /-- WINDOW_ACCESS_AT_EXPORTER, R383: The exporter's station checks and applies an access through a window. -/
  | windowAccessAtExporter (st idx gen off len wr v : Nat)
  /-- APERTURE_READ, R385: A host CXL.mem read of the aperture reaches an exported window. -/
  | apertureRead (w off len : Nat)
  /-- APERTURE_WRITE, R385: A host CXL.mem write of the aperture reaches an exported window or is dropped. -/
  | apertureWrite (w off len v : Nat)
  /-- CXL_SNOOP, R374: A host snoop hitting a port-69 line is answered after write-back or drop. -/
  | cxlSnoop (sector : Nat)
  /-- FOREIGN_WORLD_REQUEST, R353: A die-to-die port drops a request of another world and returns WORLD. -/
  | foreignWorldRequest (die k oid : Nat)
  /-- CORRECTABLE_ERROR, R137: A correctable storage error is corrected and counted. -/
  | correctableError (die cls res : Nat)
  /-- UNCORRECTABLE_ERROR, R345: An uncorrectable error poisons the object holding it or raises MCHECK. -/
  | uncorrectableError (die cls res : Nat)
  /-- LINK_CRC_FAILURE, R344: A flit failing its CRC is replayed, or poisoned after eight failures. -/
  | linkCrcFailure (die lane replays : Nat)
  /-- ERROR_WINDOW_BOUNDARY, R348: The classification window ends and every error count clears. -/
  | errorWindowBoundary (die : Nat)
  /-- TILE_FENCE, R346: The Separator fences a failed tile, reclaims its capabilities and marks its runs damaged. -/
  | tileFence (g : Nat)
  /-- KEY_END_ZERO_FILL_COMPLETE, R360: A port finishes zero-filling an ended key's objects and frees their entries. -/
  | keyEndZeroFillComplete (port key : Nat)
  /-- POWER_THROTTLE, R24: Hot coolant or power at TDP makes the Separator throttle issue on the hottest dies. -/
  | powerThrottle (die : Nat)
  /-- COLD_RESET, R366: The ROM verifies and measures firmware and the Separator brings up the package. -/
  | coldReset
  /-- WARM_RESET, R350: A warm reset keeps black-box records and fencing. -/
  | warmReset
  /-- HALT_REQUEST, R389: The debugger requests a strand stop of one slot. -/
  | haltRequest (k : Nat)
  /-- DEBUG_HALT, R389: A debug halt takes effect at the strand's first boundary with windows closed, entering D mode. -/
  | debugHalt (k : Nat)
  /-- TILE_STOP, R390: The debugger halts every slot and the dispatcher of a tile and holds port operations. -/
  | tileStop (g : Nat)
  /-- TILE_RESUME, R390: A tile resumes and its port applies held operations in arrival order. -/
  | tileResume (g : Nat)
  /-- DEBUG_RESUME, R392: The debugger resumes a halted strand, which single-steps when dcsr.step is set. -/
  | debugResume (k : Nat)
  /-- ACCESS_REGISTER, R391: The debugger's abstract command reads or writes a register of a halted strand. -/
  | accessRegister (k reg wr v : Nat)
  /-- PROGRAM_BUFFER_EXECUTE, R62: The debugger runs the program buffer in D mode on a halted strand. -/
  | programBufferExecute (k : Nat)
  /-- THROTTLE_END, R24: Power and temperature fall back within limits and the Separator stops throttling issue on the hottest dies. -/
  | throttleEnd (die : Nat)
  /-- TRACE_BUFFER_WRITE, R397: The trace encoder writes buffered records into the trace object and frees buffer space, after which a kind-3 loss record can follow. -/
  | traceBufferWrite (g : Nat)
  /-- CXL_LINK_TRAINING, R372: A CXL port trains its link with the host, falls back in width or speed, or refuses options that are not supported. -/
  | cxlLinkTraining (p width speed : Nat)
  /-- MALFORMED_REQUEST, R376: A doorbell write submits a request body whose kind lies outside 1 to 5, which is answered with status 0xFF. -/
  | malformedRequest (w : Nat)
  /-- STRAND_ENTRY_RETRY, R310: A migrated context held in the sending move engine because the destination's strand-entry queue was full is retried. -/
  | strandEntryRetry (id : Nat)
  /-- ENTROPY_HEALTH_FAILURE, R371: The on-die entropy source fails its health test, so drbg faults with ENGINE 68 and key.new returns all ones. -/
  | entropyHealthFailure
  deriving DecidableEq, Repr

end Sys2Proof
end

