-- ==== Sys2Proof/WellFormed.lean ====
section
/-! DEFINITION. Well-formed instructions: every operand in the range that 02 R29 to R41 and the instruction's entry admit, so
that the encoding is not ILLEGAL at decode. What depends on the strand (v16 to v31 in a 16-register file, codelet slots, a
repeat body) is checked when the instruction executes. Events have no encoding and nothing to check here. -/
namespace Sys2Proof
open Machine

/-- True when every operand is one that the encoding and the entry of the instruction admit (02 R29 to R41). -/
def wf : Instr → Bool
  | .lui d imm => xr d && imm < 2 ^ 20
  | .auipc d imm => xr d && imm < 2 ^ 20
  | .jal d off => xr d && even off && off < 2 ^ 21
  | .jalr d a imm => xr d && xr a && imm < 2 ^ 12
  | .beq a b off => xr a && xr b && even off && off < 2 ^ 13
  | .bne a b off => xr a && xr b && even off && off < 2 ^ 13
  | .blt a b off => xr a && xr b && even off && off < 2 ^ 13
  | .bge a b off => xr a && xr b && even off && off < 2 ^ 13
  | .bltu a b off => xr a && xr b && even off && off < 2 ^ 13
  | .bgeu a b off => xr a && xr b && even off && off < 2 ^ 13
  | .addi d a imm => xr d && xr a && imm < 2 ^ 12
  | .slti d a imm => xr d && xr a && imm < 2 ^ 12
  | .sltiu d a imm => xr d && xr a && imm < 2 ^ 12
  | .xori d a imm => xr d && xr a && imm < 2 ^ 12
  | .ori d a imm => xr d && xr a && imm < 2 ^ 12
  | .andi d a imm => xr d && xr a && imm < 2 ^ 12
  | .slli d a sh => xr d && xr a && sh < 64
  | .srli d a sh => xr d && xr a && sh < 64
  | .srai d a sh => xr d && xr a && sh < 64
  | .clz d a => xr d && xr a
  | .ctz d a => xr d && xr a
  | .cpop d a => xr d && xr a
  | .add d a b => xr d && xr a && xr b
  | .sub d a b => xr d && xr a && xr b
  | .sll d a b => xr d && xr a && xr b
  | .slt d a b => xr d && xr a && xr b
  | .sltu d a b => xr d && xr a && xr b
  | .xor d a b => xr d && xr a && xr b
  | .srl d a b => xr d && xr a && xr b
  | .sra d a b => xr d && xr a && xr b
  | .or d a b => xr d && xr a && xr b
  | .and d a b => xr d && xr a && xr b
  | .orn d a b => xr d && xr a && xr b
  | .andn d a b => xr d && xr a && xr b
  | .mul d a b => xr d && xr a && xr b
  | .mulh d a b => xr d && xr a && xr b
  | .mulhsu d a b => xr d && xr a && xr b
  | .mulhu d a b => xr d && xr a && xr b
  | .div d a b => xr d && xr a && xr b
  | .divu d a b => xr d && xr a && xr b
  | .rem d a b => xr d && xr a && xr b
  | .remu d a b => xr d && xr a && xr b
  | .sh1add d a b => xr d && xr a && xr b
  | .sh2add d a b => xr d && xr a && xr b
  | .sh3add d a b => xr d && xr a && xr b
  | .min d a b => xr d && xr a && xr b
  | .minu d a b => xr d && xr a && xr b
  | .max d a b => xr d && xr a && xr b
  | .maxu d a b => xr d && xr a && xr b
  | .addiw d a imm => xr d && xr a && imm < 2 ^ 12
  | .slliw d a sh => xr d && xr a && sh < 32
  | .srliw d a sh => xr d && xr a && sh < 32
  | .sraiw d a sh => xr d && xr a && sh < 32
  | .addw d a b => xr d && xr a && xr b
  | .subw d a b => xr d && xr a && xr b
  | .sllw d a b => xr d && xr a && xr b
  | .srlw d a b => xr d && xr a && xr b
  | .sraw d a b => xr d && xr a && xr b
  | .mulw d a b => xr d && xr a && xr b
  | .divw d a b => xr d && xr a && xr b
  | .divuw d a b => xr d && xr a && xr b
  | .remw d a b => xr d && xr a && xr b
  | .remuw d a b => xr d && xr a && xr b
  | .csrrw d csr a => xr d && csr < 2 ^ 12 && xr a
  | .csrrs d csr a => xr d && csr < 2 ^ 12 && xr a
  | .csrrc d csr a => xr d && csr < 2 ^ 12 && xr a
  | .csrrwi d csr uimm => xr d && csr < 2 ^ 12 && uimm < 32
  | .csrrsi d csr uimm => xr d && csr < 2 ^ 12 && uimm < 32
  | .csrrci d csr uimm => xr d && csr < 2 ^ 12 && uimm < 32
  | .ldB la c imm d => la < 16 && cr c && imm < 256 && xr d
  | .ldH la c imm d => la < 16 && cr c && imm < 256 && xr d
  | .ldW la c imm d => la < 16 && cr c && imm < 256 && xr d
  | .ldD la c imm d => la < 16 && cr c && imm < 256 && xr d
  | .ldBu la c imm d => la < 16 && cr c && imm < 256 && xr d
  | .ldHu la c imm d => la < 16 && cr c && imm < 256 && xr d
  | .ldWu la c imm d => la < 16 && cr c && imm < 256 && xr d
  | .vld la c imm d => la < 16 && cr c && imm < 256 && vr d
  | .stB la c imm s => la < 16 && cr c && imm < 256 && xr s
  | .stH la c imm s => la < 16 && cr c && imm < 256 && xr s
  | .stW la c imm s => la < 16 && cr c && imm < 256 && xr s
  | .stD la c imm s => la < 16 && cr c && imm < 256 && xr s
  | .vst la c imm s => la < 16 && cr c && imm < 256 && vr s
  | .vlds la c o d => la < 16 && cr c && xr o && even o && vr d
  | .vsts la c o s => la < 16 && cr c && xr o && even o && vr s
  | .vldx la c o d => la < 16 && cr c && xr o && vr d
  | .vstx la c o s => la < 16 && cr c && xr o && vr s
  | .vldt la c o d => la < 16 && cr c && xr o && vr d
  | .ldFe la c o d => la < 16 && cr c && xr o && xr d
  | .ldFet la c o d => la < 16 && cr c && xr o && xr d
  | .stFe la c o s => la < 16 && cr c && xr o && xr s
  | .stFeRel la c o s => la < 16 && cr c && xr o && xr s
  | .feClr la c o => la < 16 && cr c && xr o
  | .feProbe la c o d => la < 16 && cr c && xr o && xr d
  | .landArm la c o s => la < 16 && cr c && xr o && xr s
  | .landWait la c o s => la < 16 && cr c && xr o && xr s
  | .landGet la c o d => la < 16 && cr c && xr o && xr d && even d
  | .amoAdd la c s d => la < 16 && cr c && xr s && xr d
  | .amoAnd la c s d => la < 16 && cr c && xr s && xr d
  | .amoOr la c s d => la < 16 && cr c && xr s && xr d
  | .amoXor la c s d => la < 16 && cr c && xr s && xr d
  | .amoMin la c s d => la < 16 && cr c && xr s && xr d
  | .amoMax la c s d => la < 16 && cr c && xr s && xr d
  | .amoMinu la c s d => la < 16 && cr c && xr s && xr d
  | .amoMaxu la c s d => la < 16 && cr c && xr s && xr d
  | .amoSwap la c s d => la < 16 && cr c && xr s && xr d
  | .amoCas la c s d => la < 16 && cr c && xr s && xr d && even s
  | .amoFadd la c s d => la < 16 && cr c && xr s && xr d
  | .amoEnq la c s d => la < 16 && cr c && xr s && xr d
  | .amoDeq la c s d => la < 16 && cr c && xr s && xr d && (s != d || s == 0)
  | .vadd et vm a b d => et < 4 && vm < 8 && vr a && vr b && vr d
  | .vsub et vm a b d => et < 4 && vm < 8 && vr a && vr b && vr d
  | .vmul et vm a b d => et < 4 && vm < 8 && vr a && vr b && vr d
  | .vmulh et vm a b d => et < 4 && vm < 8 && vr a && vr b && vr d
  | .vmulhu et vm a b d => et < 4 && vm < 8 && vr a && vr b && vr d
  | .vand et vm a b d => et < 4 && vm < 8 && vr a && vr b && vr d
  | .vor et vm a b d => et < 4 && vm < 8 && vr a && vr b && vr d
  | .vxor et vm a b d => et < 4 && vm < 8 && vr a && vr b && vr d
  | .vsll et vm a b d => et < 4 && vm < 8 && vr a && vr b && vr d
  | .vsrl et vm a b d => et < 4 && vm < 8 && vr a && vr b && vr d
  | .vsra et vm a b d => et < 4 && vm < 8 && vr a && vr b && vr d
  | .vmin et vm a b d => et < 4 && vm < 8 && vr a && vr b && vr d
  | .vmax et vm a b d => et < 4 && vm < 8 && vr a && vr b && vr d
  | .vminu et vm a b d => et < 4 && vm < 8 && vr a && vr b && vr d
  | .vmaxu et vm a b d => et < 4 && vm < 8 && vr a && vr b && vr d
  | .vcmpeq et vm a b d => et < 4 && vm < 8 && vr a && vr b && mr d
  | .vcmplt et vm a b d => et < 4 && vm < 8 && vr a && vr b && mr d
  | .vcmpltu et vm a b d => et < 4 && vm < 8 && vr a && vr b && mr d
  | .vcmple et vm a b d => et < 4 && vm < 8 && vr a && vr b && mr d
  | .vfadd et vm a b d => et < 4 && vm < 8 && vr a && vr b && vr d
  | .vfsub et vm a b d => et < 4 && vm < 8 && vr a && vr b && vr d
  | .vfmul et vm a b d => et < 4 && vm < 8 && vr a && vr b && vr d
  | .vfma et vm a b d => et < 4 && vm < 8 && vr a && vr b && vr d
  | .vfmin et vm a b d => et < 4 && vm < 8 && vr a && vr b && vr d
  | .vfmax et vm a b d => et < 4 && vm < 8 && vr a && vr b && vr d
  | .vfdiv et vm a b d => et < 4 && vm < 8 && vr a && vr b && vr d
  | .vfcmpeq et vm a b d => et < 4 && vm < 8 && vr a && vr b && mr d
  | .vfcmplt et vm a b d => et < 4 && vm < 8 && vr a && vr b && mr d
  | .vfcmple et vm a b d => et < 4 && vm < 8 && vr a && vr b && mr d
  | .vsel et vm a b d => et < 4 && vm < 8 && vr a && vr b && vr d
  | .vperm et vm a b d => et < 4 && vm < 8 && vr a && vr b && vr d
  | .vaddx et vm a b d => et < 4 && vm < 8 && vr a && xr b && vr d
  | .vmulx et vm a b d => et < 4 && vm < 8 && vr a && xr b && vr d
  | .vfmulx et vm a b d => et < 4 && vm < 8 && vr a && xr b && vr d
  | .vbcast et vm b d => et < 4 && vm < 8 && xr b && vr d
  | .vmvx et a b d => et < 4 && vr a && xr b && xr d
  | .vinsx et a b d => et < 4 && xr a && xr b && vr d
  | .vslup et vm a b d => et < 4 && vm < 8 && vr a && xr b && vr d
  | .vsldn et vm a b d => et < 4 && vm < 8 && vr a && xr b && vr d
  | .vredsum et vm a d => et < 4 && vm < 8 && vr a && vr d
  | .vredmax et vm a d => et < 4 && vm < 8 && vr a && vr d
  | .vredmin et vm a d => et < 4 && vm < 8 && vr a && vr d
  | .vfredsum et vm a d => et < 4 && vm < 8 && vr a && vr d
  | .vfredamax et vm a d => et < 4 && vm < 8 && vr a && vr d
  | .vfsqrt et vm a d => et < 4 && vm < 8 && vr a && vr d
  | .vfexp2 et vm a d => et < 4 && vm < 8 && vr a && vr d
  | .vflog2 et vm a d => et < 4 && vm < 8 && vr a && vr d
  | .vfrcp et vm a d => et < 4 && vm < 8 && vr a && vr d
  | .vcvt et k a fmt d => et < 4 && k < 2 && vr a && vcvtCode fmt && vr d
  | .vquant s a fmt d => xr s && group a && quantCode fmt && vr d && quantOverlap a d
  | .vdequant s a fmt d => xr s && vr a && quantCode fmt && group d && quantOverlap d a
  | .laccClr d => vr d
  | .laccAdd et k a d => et < 4 && k < 2 && vr a && vr d && d != a
  | .laccMadd a b d => vr a && vr b && vr d && d != a && d != b
  | .laccMerge a d => vr a && vr d
  | .laccRd a fmt d => vr a && laccCode fmt && vr d
  | .mand a b d => mr a && mr b && mr d
  | .mor a b d => mr a && mr b && mr d
  | .mxor a b d => mr a && mr b && mr d
  | .mandn a b d => mr a && mr b && mr d
  | .mpop a d => mr a && xr d
  | .vid et vm d => et < 4 && vm < 8 && vr d
  | .vaddWN d s => vr d && vr s
  | .vsubWN d s => vr d && vr s
  | .vandN d s => vr d && vr s
  | .vorN d s => vr d && vr s
  | .vxorN d s => vr d && vr s
  | .vfaddF32N d s => vr d && vr s
  | .vfmulF32N d s => vr d && vr s
  | .vfmaxF32N d s => vr d && vr s
  | .vfaddBf16N d s => vr d && vr s
  | .vfmulBf16N d s => vr d && vr s
  | .vfmaxBf16N d s => vr d && vr s
  | .vmaxWN d s => vr d && vr s
  | .vminWN d s => vr d && vr s
  | .vmv d s => vr d && vr s
  | .vfsubF32N d s => vr d && vr s
  | .vfsubBf16N d s => vr d && vr s
  | .cld a d => xr a && cr d && d != 0
  | .cst a b => cr a && xr b
  | .cmv a d => cr a && cr d && d != 0
  | .csplit a b d => cr a && xr b && cr d && d != 0 && d != a
  | .cjoin a d => cr a && cr d && d != 0 && d != a
  | .cfrac a d => cr a && cr d && d != 0 && d != a
  | .cunfrac a d => cr a && cr d && d != a
  | .cdrop a => cr a
  | .cinfo a imm d => cr a && cinfoSelector imm && xr d
  | .cfill a b d => cr a && xr b && cr d && d != 0 && d != a
  | .objNew a b d => cr a && xr b && cr d && d != 0 && d != a
  | .objFree a => cr a
  | .keyNew d => xr d
  | .keyEnd la a d => la < 16 && xr a && xr d
  | .mxCfg a d => xr a && xr d
  | .mxWld la a imm => la < 16 && cr a && imm < 8
  | .mxMma la a b d => la < 16 && cr a && cr b && cr d
  | .mxZero la d => la < 16 && cr d
  | .mxSt la a d => la < 16 && cr a && cr d
  | .mxSwap la a b => la < 16 && cr a && xr b
  | .mxAfl la a b d => la < 16 && cr a && cr b && cr d
  | .mxWait la d => la < 16 && xr d
  | .mxStat imm d => imm < 13 && xr d
  | .mbSend la a b d => la < 16 && cr a && xr b && cr d && (d != a || d == 0)
  | .mbRecv la a imm d => la < 16 && xr a && imm < 8 && cr d
  | .mbPeek imm d => imm < 8 && xr d
  | .mvCopy la a b d => la < 16 && cr a && cr b && cr d
  | .rgPop la a imm d => la < 16 && cr a && imm < 8 && cr d
  | .rgPush la a b d => la < 16 && cr a && cr b && xr d
  | .rgDone a imm => cr a && imm < 16
  | .chSub la a b d => la < 16 && cr a && cr b && xr d
  | .chUnsub la a d => la < 16 && xr a && xr d
  | .cdlNew a b d => cr a && xr b && xr d
  | .cdlDec la a b => la < 16 && xr a && xr b
  | .strNew a b d => xr a && cr b && xr d
  | .mig a => xr a
  | .tagDecl la a b d => la < 16 && cr a && xr b && xr d
  | .tagPub la a b d => la < 16 && cr a && xr b && xr d
  | .barArr a d => xr a && xr d
  | .barWait la a b d => la < 16 && xr a && xr b && xr d
  | .slotBorrow a d => xr a && xr d
  | .slotRet a => xr a
  | .xmvRd a imm d => xr a && vr imm && vr d
  | .xmvWr a imm d => xr a && vr imm && vr d
  | .strStop a => xr a
  | .strSave la a b => la < 16 && xr a && cr b
  | .strLoad la a b => la < 16 && xr a && cr b
  | .strGo a => xr a
  | .rpt n b => 0 < n && n < 32 && xr b
  | .jseg a d => xr a && xr d
  | .ifetch la a b => la < 16 && cr a && xr b
  | .shk la a b d => la < 16 && cr a && xr b && cr d
  | .edsig la a b d => la < 16 && cr a && xr b && cr d
  | .edver la a b d => la < 16 && cr a && cr b && xr d
  | .bist la a b d => la < 16 && xr a && xr b && xr d
  | .drbg d => xr d
  | .ecall => true
  | .ebreak => true
  | .wfi => true
  | .tret => true
  | .dret => true
  | .cdlDone => true
  | .strExit => true
  | .strYield => true
  | .lookaheadWindowClose _ _ => true
  | .trapEntry _ => true
  | .watchdogExpiry _ => true
  | .waitLimitExpiry _ _ => true
  | .barWaitLimitExpiry _ _ => true
  | .timerExpiry _ => true
  | .yieldExpiry _ => true
  | .waitListRetry _ _ => true
  | .matrixCommandStart _ => true
  | .matrixCommandComplete _ _ => true
  | .matrixCommandError _ _ => true
  | .mxSwapPairing _ => true
  | .moveCommandStart _ => true
  | .moveCommandComplete _ => true
  | .ifetchLoadComplete _ => true
  | .landingPacketCount _ _ => true
  | .mailboxReservation _ => true
  | .mailboxReservationRetry _ => true
  | .byteCopyComplete _ => true
  | .messageComplete _ => true
  | .ringSlotWrite _ => true
  | .churnLoaderPush _ => true
  | .churnStorerWrite _ => true
  | .subscriptionEnd _ => true
  | .codeletDispatch _ => true
  | .codeletAbort _ => true
  | .migratedStrandEntry _ => true
  | .stopTakesEffect _ => true
  | .tagDeclAtHome _ => true
  | .tagPubAtHome _ => true
  | .completionNotice _ _ => true
  | .launchRequest _ => true
  | .heldLaunchStart => true
  | .runComplete _ => true
  | .completionReportNext _ => true
  | .exportRequest _ => true
  | .revokeRequest _ => true
  | .hostTierGrant _ => true
  | .writeWrow _ _ => true
  | .writeCertificateSlot _ => true
  | .certWriteApply _ => true
  | .evictGranules _ => true
  | .restoreGranules _ => true
  | .getTdispVersion _ => true
  | .getTdispCapabilities _ => true
  | .lockInterfaceRequest _ => true
  | .getDeviceInterfaceReport _ => true
  | .getDeviceInterfaceState _ => true
  | .startInterfaceRequest _ => true
  | .stopInterfaceRequest _ => true
  | .quiesce _ => true
  | .quiesceComplete _ => true
  | .resume _ => true
  | .tdispUnsupportedRequest _ _ => true
  | .functionLevelReset _ => true
  | .ideIntegrityFailure _ => true
  | .lockedConfigWrite _ => true
  | .separatorStateError _ => true
  | .firmwareActivation _ _ => true
  | .spdmGetVersion _ => true
  | .spdmGetCapabilities _ _ => true
  | .spdmNegotiateAlgorithms _ _ _ _ => true
  | .spdmGetDigests _ _ => true
  | .spdmGetCertificate _ _ _ _ _ => true
  | .spdmChallenge _ _ _ => true
  | .spdmGetMeasurements _ _ _ => true
  | .spdmUnsupportedRequest _ _ _ => true
  | .mapRead _ _ _ => true
  | .blackBoxRead _ _ => true
  | .repairRecordRead _ => true
  | .marginAccess _ _ _ => true
  | .selfTest _ _ _ => true
  | .selfTestComplete _ => true
  | .operatorWorld _ => true
  | .marginPointStart _ _ => true
  | .marginPointComplete _ _ => true
  | .railOffsetWrite _ _ => true
  | .railOffsetApplied _ => true
  | .rptcWrite _ => true
  | .wdogWrite _ => true
  | .tdeltaWrite _ => true
  | .fmodeWrite _ => true
  | .mxcfgWrite _ => true
  | .registerWrite _ _ => true
  | .ualinkRetransmit _ => true
  | .ualinkRequestTimeout _ => true
  | .duplicateCacheExpiry _ _ => true
  | .busyRetry _ => true
  | .windowOpen _ _ _ => true
  | .windowAccessAtExporter _ _ _ _ _ _ _ => true
  | .apertureRead _ _ _ => true
  | .apertureWrite _ _ _ _ => true
  | .cxlSnoop _ => true
  | .foreignWorldRequest _ _ _ => true
  | .correctableError _ _ _ => true
  | .uncorrectableError _ _ _ => true
  | .linkCrcFailure _ _ _ => true
  | .errorWindowBoundary _ => true
  | .tileFence _ => true
  | .keyEndZeroFillComplete _ _ => true
  | .powerThrottle _ => true
  | .coldReset => true
  | .warmReset => true
  | .haltRequest _ => true
  | .debugHalt _ => true
  | .tileStop _ => true
  | .tileResume _ => true
  | .debugResume _ => true
  | .accessRegister _ _ _ _ => true
  | .programBufferExecute _ => true
  | .throttleEnd _ => true
  | .traceBufferWrite _ => true
  | .cxlLinkTraining _ _ _ => true
  | .malformedRequest _ => true
  | .strandEntryRetry _ => true
  | .entropyHealthFailure => true

end Sys2Proof
end

