-- ==== Sys2Proof/Decode.lean ====
section
/-! DEFINITION. Decoding and encoding (02 R25 to R41). `decode` reads the 32 bits at the pc (a 16-bit form uses the low parcel
alone); every pattern that is not an instruction is rejected with the reason. `encode` builds the word of an instruction from
the same formats; an event has none. -/
namespace Sys2Proof
open Machine

/-- Why a pattern is not an instruction; every one raises ILLEGAL (02 R25 to R41). -/
inductive Reject where
  /-- Parcel bits [1:0] are 00 or 01 (R25). -/
  | quadrant
  /-- A prefix of 48 bits or more (R25). -/
  | longPrefix
  /-- A major opcode marked ILLEGAL (R28). -/
  | absentMajor
  /-- A combination that the tables do not list (R30, R33 to R40). -/
  | unlisted
  /-- A field that the instruction does not use is not zero (R32, R40, R41). -/
  | unusedField
  /-- An operand outside what the instruction admits (R29, R32 and the entries). -/
  | operand
  /-- Fewer bytes than the instruction has. -/
  | truncated
  deriving DecidableEq, Repr

/-- Length in bytes of the instruction whose first parcel is `p` (R25): 2 or 4. -/
def ilen (p : Nat) : Nat := if p % 4 = 3 then 4 else 2

/-- The instruction when its unused fields, summed in `z`, are zero. -/
def unused (z : Nat) (i : Instr) : Except Reject Instr := if z = 0 then .ok i else .error .unusedField

/-- The sixteen 16-bit forms (R39). -/
def decode16 (op d s : Nat) : Except Reject Instr :=
  match op with
  | 0 => .ok (.vaddWN d s)
  | 1 => .ok (.vsubWN d s)
  | 2 => .ok (.vandN d s)
  | 3 => .ok (.vorN d s)
  | 4 => .ok (.vxorN d s)
  | 5 => .ok (.vfaddF32N d s)
  | 6 => .ok (.vfmulF32N d s)
  | 7 => .ok (.vfmaxF32N d s)
  | 8 => .ok (.vfaddBf16N d s)
  | 9 => .ok (.vfmulBf16N d s)
  | 10 => .ok (.vfmaxBf16N d s)
  | 11 => .ok (.vmaxWN d s)
  | 12 => .ok (.vminWN d s)
  | 13 => .ok (.vmv d s)
  | 14 => .ok (.vfsubF32N d s)
  | 15 => .ok (.vfsubBf16N d s)
  | _ => .error .unlisted

/-- OP-IMM (R30). -/
def decodeOpImm (f3 d a imm : Nat) : Except Reject Instr :=
  match f3 with
  | 0 => .ok (.addi d a imm)
  | 1 => match imm / 64 with
    | 0 => .ok (.slli d a (imm % 64))
    | 24 => match imm % 64 with
      | 0 => .ok (.clz d a)
      | 1 => .ok (.ctz d a)
      | 2 => .ok (.cpop d a)
      | _ => .error .unlisted
    | _ => .error .unlisted
  | 2 => .ok (.slti d a imm)
  | 3 => .ok (.sltiu d a imm)
  | 4 => .ok (.xori d a imm)
  | 5 => match imm / 64 with
    | 0 => .ok (.srli d a (imm % 64))
    | 16 => .ok (.srai d a (imm % 64))
    | _ => .error .unlisted
  | 6 => .ok (.ori d a imm)
  | 7 => .ok (.andi d a imm)
  | _ => .error .unlisted

/-- OP-IMM-32 (R30). -/
def decodeOpImm32 (f3 d a imm : Nat) : Except Reject Instr :=
  match f3 with
  | 0 => .ok (.addiw d a imm)
  | 1 => match imm / 32 with
    | 0 => .ok (.slliw d a (imm % 32))
    | _ => .error .unlisted
  | 5 => match imm / 32 with
    | 0 => .ok (.srliw d a (imm % 32))
    | 32 => .ok (.sraiw d a (imm % 32))
    | _ => .error .unlisted
  | _ => .error .unlisted

/-- OP (R30). -/
def decodeOp (f3 f7 d a b : Nat) : Except Reject Instr :=
  match f3 with
  | 0 => match f7 with
    | 0 => .ok (.add d a b)
    | 32 => .ok (.sub d a b)
    | 1 => .ok (.mul d a b)
    | _ => .error .unlisted
  | 1 => match f7 with
    | 0 => .ok (.sll d a b)
    | 1 => .ok (.mulh d a b)
    | _ => .error .unlisted
  | 2 => match f7 with
    | 0 => .ok (.slt d a b)
    | 1 => .ok (.mulhsu d a b)
    | 16 => .ok (.sh1add d a b)
    | _ => .error .unlisted
  | 3 => match f7 with
    | 0 => .ok (.sltu d a b)
    | 1 => .ok (.mulhu d a b)
    | _ => .error .unlisted
  | 4 => match f7 with
    | 0 => .ok (.xor d a b)
    | 1 => .ok (.div d a b)
    | 16 => .ok (.sh2add d a b)
    | 5 => .ok (.min d a b)
    | _ => .error .unlisted
  | 5 => match f7 with
    | 0 => .ok (.srl d a b)
    | 32 => .ok (.sra d a b)
    | 1 => .ok (.divu d a b)
    | 5 => .ok (.minu d a b)
    | _ => .error .unlisted
  | 6 => match f7 with
    | 0 => .ok (.or d a b)
    | 32 => .ok (.orn d a b)
    | 1 => .ok (.rem d a b)
    | 16 => .ok (.sh3add d a b)
    | 5 => .ok (.max d a b)
    | _ => .error .unlisted
  | 7 => match f7 with
    | 0 => .ok (.and d a b)
    | 32 => .ok (.andn d a b)
    | 1 => .ok (.remu d a b)
    | 5 => .ok (.maxu d a b)
    | _ => .error .unlisted
  | _ => .error .unlisted

/-- OP-32 (R30). -/
def decodeOp32 (f3 f7 d a b : Nat) : Except Reject Instr :=
  match f3 with
  | 0 => match f7 with
    | 0 => .ok (.addw d a b)
    | 32 => .ok (.subw d a b)
    | 1 => .ok (.mulw d a b)
    | _ => .error .unlisted
  | 1 => match f7 with
    | 0 => .ok (.sllw d a b)
    | _ => .error .unlisted
  | 4 => match f7 with
    | 1 => .ok (.divw d a b)
    | _ => .error .unlisted
  | 5 => match f7 with
    | 0 => .ok (.srlw d a b)
    | 32 => .ok (.sraw d a b)
    | 1 => .ok (.divuw d a b)
    | _ => .error .unlisted
  | 6 => match f7 with
    | 1 => .ok (.remw d a b)
    | _ => .error .unlisted
  | 7 => match f7 with
    | 1 => .ok (.remuw d a b)
    | _ => .error .unlisted
  | _ => .error .unlisted

/-- BRANCH (R30). -/
def decodeBranch (f3 a b off : Nat) : Except Reject Instr :=
  match f3 with
  | 0 => .ok (.beq a b off)
  | 1 => .ok (.bne a b off)
  | 4 => .ok (.blt a b off)
  | 5 => .ok (.bge a b off)
  | 6 => .ok (.bltu a b off)
  | 7 => .ok (.bgeu a b off)
  | _ => .error .unlisted

/-- SYSTEM (R30); `a` is rs1 or uimm, `imm` the CSR address or the selector of a funct3 = 000 word. -/
def decodeSystem (f3 d a imm : Nat) : Except Reject Instr :=
  match f3 with
  | 0 => if d + a = 0 then match imm with
    | 0 => .ok (.ecall)
    | 1 => .ok (.ebreak)
    | 261 => .ok (.wfi)
    | 258 => .ok (.tret)
    | 1970 => .ok (.dret)
    | _ => .error .unlisted
    else .error .unlisted
  | 1 => .ok (.csrrw d imm a)
  | 2 => .ok (.csrrs d imm a)
  | 3 => .ok (.csrrc d imm a)
  | 5 => .ok (.csrrwi d imm a)
  | 6 => .ok (.csrrsi d imm a)
  | 7 => .ok (.csrrci d imm a)
  | _ => .error .unlisted

/-- MEMX (R34); `hi` is xo. -/
def decodeMemX (la c hi f4x reg : Nat) : Except Reject Instr :=
  match f4x with
  | 0 => .ok (.vlds la c hi reg)
  | 1 => .ok (.vsts la c hi reg)
  | 2 => .ok (.vldx la c hi reg)
  | 3 => .ok (.vstx la c hi reg)
  | 4 => .ok (.vldt la c hi reg)
  | 5 => .ok (.ldFe la c hi reg)
  | 6 => .ok (.ldFet la c hi reg)
  | 7 => if reg < 16 then .ok (.stFe la c hi reg) else .ok (.stFeRel la c hi (reg - 16))
  | 8 => unused reg (.feClr la c hi)
  | 9 => .ok (.feProbe la c hi reg)
  | 10 => .ok (.landArm la c hi reg)
  | 11 => .ok (.landWait la c hi reg)
  | 12 => .ok (.landGet la c hi reg)
  | _ => .error .unlisted

/-- AMO (R35); `hi` is xs. -/
def decodeAmo (la c hi aop reg : Nat) : Except Reject Instr :=
  match aop with
  | 0 => .ok (.amoAdd la c hi reg)
  | 1 => .ok (.amoAnd la c hi reg)
  | 2 => .ok (.amoOr la c hi reg)
  | 3 => .ok (.amoXor la c hi reg)
  | 4 => .ok (.amoMin la c hi reg)
  | 5 => .ok (.amoMax la c hi reg)
  | 6 => .ok (.amoMinu la c hi reg)
  | 7 => .ok (.amoMaxu la c hi reg)
  | 8 => .ok (.amoSwap la c hi reg)
  | 9 => .ok (.amoCas la c hi reg)
  | 10 => .ok (.amoFadd la c hi reg)
  | 11 => .ok (.amoEnq la c hi reg)
  | 12 => .ok (.amoDeq la c hi reg)
  | _ => .error .unlisted

/-- MEM (R33); `imm` is bits [23:16]. -/
def decodeMem (la c imm f4 reg : Nat) : Except Reject Instr :=
  match f4 with
  | 0 => .ok (.ldB la c imm reg)
  | 1 => .ok (.ldH la c imm reg)
  | 2 => .ok (.ldW la c imm reg)
  | 3 => .ok (.ldD la c imm reg)
  | 4 => .ok (.ldBu la c imm reg)
  | 5 => .ok (.ldHu la c imm reg)
  | 6 => .ok (.ldWu la c imm reg)
  | 7 => .ok (.vld la c imm reg)
  | 8 => .ok (.stB la c imm reg)
  | 9 => .ok (.stH la c imm reg)
  | 10 => .ok (.stW la c imm reg)
  | 11 => .ok (.stD la c imm reg)
  | 12 => .ok (.vst la c imm reg)
  | 13 => decodeAmo la c (imm / 16) (imm % 16) reg
  | 15 => decodeMemX la c (imm / 16) (imm % 16) reg
  | _ => .error .unlisted

/-- VEC-A (R36, R37); `g` is et‖vm, `a` vs2 and `b` vs1. -/
def decodeVecA (f5 g a b d : Nat) : Except Reject Instr :=
  match f5 with
  | 0 => .ok (.vadd (g / 8) (g % 8) a b d)
  | 1 => .ok (.vsub (g / 8) (g % 8) a b d)
  | 2 => .ok (.vmul (g / 8) (g % 8) a b d)
  | 3 => .ok (.vmulh (g / 8) (g % 8) a b d)
  | 4 => .ok (.vmulhu (g / 8) (g % 8) a b d)
  | 5 => .ok (.vand (g / 8) (g % 8) a b d)
  | 6 => .ok (.vor (g / 8) (g % 8) a b d)
  | 7 => .ok (.vxor (g / 8) (g % 8) a b d)
  | 8 => .ok (.vsll (g / 8) (g % 8) a b d)
  | 9 => .ok (.vsrl (g / 8) (g % 8) a b d)
  | 10 => .ok (.vsra (g / 8) (g % 8) a b d)
  | 11 => .ok (.vmin (g / 8) (g % 8) a b d)
  | 12 => .ok (.vmax (g / 8) (g % 8) a b d)
  | 13 => .ok (.vminu (g / 8) (g % 8) a b d)
  | 14 => .ok (.vmaxu (g / 8) (g % 8) a b d)
  | 15 => .ok (.vcmpeq (g / 8) (g % 8) a b d)
  | 16 => .ok (.vcmplt (g / 8) (g % 8) a b d)
  | 17 => .ok (.vcmpltu (g / 8) (g % 8) a b d)
  | 18 => .ok (.vcmple (g / 8) (g % 8) a b d)
  | 19 => .ok (.vfadd (g / 8) (g % 8) a b d)
  | 20 => .ok (.vfsub (g / 8) (g % 8) a b d)
  | 21 => .ok (.vfmul (g / 8) (g % 8) a b d)
  | 22 => .ok (.vfma (g / 8) (g % 8) a b d)
  | 23 => .ok (.vfmin (g / 8) (g % 8) a b d)
  | 24 => .ok (.vfmax (g / 8) (g % 8) a b d)
  | 25 => .ok (.vfdiv (g / 8) (g % 8) a b d)
  | 26 => .ok (.vfcmpeq (g / 8) (g % 8) a b d)
  | 27 => .ok (.vfcmplt (g / 8) (g % 8) a b d)
  | 28 => .ok (.vfcmple (g / 8) (g % 8) a b d)
  | 29 => .ok (.vsel (g / 8) (g % 8) a b d)
  | 30 => .ok (.vperm (g / 8) (g % 8) a b d)
  | _ => .error .unlisted

/-- VEC-B (R36, R38); `g` is et‖vm, `a` vs2 and `b` vs1. -/
def decodeVecB (f5 g a b d : Nat) : Except Reject Instr :=
  match f5 with
  | 0 => .ok (.vaddx (g / 8) (g % 8) a b d)
  | 1 => .ok (.vmulx (g / 8) (g % 8) a b d)
  | 2 => .ok (.vfmulx (g / 8) (g % 8) a b d)
  | 3 => unused (a) (.vbcast (g / 8) (g % 8) b d)
  | 4 => unused (g % 8) (.vmvx (g / 8) a b d)
  | 5 => unused (g % 8) (.vinsx (g / 8) a b d)
  | 6 => .ok (.vslup (g / 8) (g % 8) a b d)
  | 7 => .ok (.vsldn (g / 8) (g % 8) a b d)
  | 8 => unused (b) (.vredsum (g / 8) (g % 8) a d)
  | 9 => unused (b) (.vredmax (g / 8) (g % 8) a d)
  | 10 => unused (b) (.vredmin (g / 8) (g % 8) a d)
  | 11 => unused (b) (.vfredsum (g / 8) (g % 8) a d)
  | 12 => unused (b) (.vfredamax (g / 8) (g % 8) a d)
  | 13 => unused (b) (.vfsqrt (g / 8) (g % 8) a d)
  | 14 => unused (b) (.vfexp2 (g / 8) (g % 8) a d)
  | 15 => unused (b) (.vflog2 (g / 8) (g % 8) a d)
  | 16 => unused (b) (.vfrcp (g / 8) (g % 8) a d)
  | 17 => .ok (.vcvt (g / 8) (g % 8) a b d)
  | 18 => .ok (.vquant g a b d)
  | 19 => .ok (.vdequant g a b d)
  | 20 => unused (g + a + b) (.laccClr d)
  | 21 => unused (b) (.laccAdd (g / 8) (g % 8) a d)
  | 22 => if g = 16 then .ok (.laccMadd a b d) else .error .unlisted
  | 23 => unused (g + b) (.laccMerge a d)
  | 24 => unused (g) (.laccRd a b d)
  | 25 => unused (g) (.mand a b d)
  | 26 => unused (g) (.mor a b d)
  | 27 => unused (g) (.mxor a b d)
  | 28 => unused (g) (.mandn a b d)
  | 29 => unused (g + b) (.mpop a d)
  | 30 => unused (a + b) (.vid (g / 8) (g % 8) d)
  | _ => .error .unlisted

/-- SYS (R40). -/
def decodeSys (la f6 fa fb fd : Nat) : Except Reject Instr :=
  match f6 with
  | 0 => unused (la + fb) (.cld fa fd)
  | 1 => unused (la + fd) (.cst fa fb)
  | 2 => unused (la + fb) (.cmv fa fd)
  | 3 => unused (la) (.csplit fa fb fd)
  | 4 => unused (la + fb) (.cjoin fa fd)
  | 5 => unused (la + fb) (.cfrac fa fd)
  | 6 => unused (la + fb) (.cunfrac fa fd)
  | 7 => unused (la + fb + fd) (.cdrop fa)
  | 8 => unused (la) (.cinfo fa fb fd)
  | 9 => unused (la) (.cfill fa fb fd)
  | 10 => unused (la) (.objNew fa fb fd)
  | 11 => unused (la + fb + fd) (.objFree fa)
  | 12 => unused (la + fa + fb) (.keyNew fd)
  | 13 => unused (fb) (.keyEnd la fa fd)
  | 16 => unused (la + fb) (.mxCfg fa fd)
  | 17 => unused (fd) (.mxWld la fa fb)
  | 18 => .ok (.mxMma la fa fb fd)
  | 19 => unused (fa + fb) (.mxZero la fd)
  | 20 => unused (fb) (.mxSt la fa fd)
  | 21 => unused (fd) (.mxSwap la fa fb)
  | 22 => .ok (.mxAfl la fa fb fd)
  | 23 => unused (fa + fb) (.mxWait la fd)
  | 24 => unused (la + fa) (.mxStat fb fd)
  | 25 => .ok (.mbSend la fa fb fd)
  | 26 => .ok (.mbRecv la fa fb fd)
  | 27 => unused (la + fa) (.mbPeek fb fd)
  | 28 => .ok (.mvCopy la fa fb fd)
  | 29 => .ok (.rgPop la fa fb fd)
  | 30 => .ok (.rgPush la fa fb fd)
  | 31 => unused (la + fd) (.rgDone fa fb)
  | 32 => .ok (.chSub la fa fb fd)
  | 33 => unused (fb) (.chUnsub la fa fd)
  | 34 => unused (la) (.cdlNew fa fb fd)
  | 35 => unused (fd) (.cdlDec la fa fb)
  | 37 => unused (la) (.strNew fa fb fd)
  | 40 => unused (la + fb + fd) (.mig fa)
  | 41 => .ok (.tagDecl la fa fb fd)
  | 42 => .ok (.tagPub la fa fb fd)
  | 43 => unused (la + fb) (.barArr fa fd)
  | 44 => .ok (.barWait la fa fb fd)
  | 45 => unused (la + fb) (.slotBorrow fa fd)
  | 46 => unused (la + fb + fd) (.slotRet fa)
  | 47 => unused (la) (.xmvRd fa fb fd)
  | 48 => unused (la) (.xmvWr fa fb fd)
  | 49 => unused (la + fb + fd) (.strStop fa)
  | 50 => unused (fd) (.strSave la fa fb)
  | 51 => unused (fd) (.strLoad la fa fb)
  | 52 => unused (la + fb + fd) (.strGo fa)
  | 53 => unused (la + fd) (.rpt fa fb)
  | 54 => unused (la + fb) (.jseg fa fd)
  | 55 => unused (fd) (.ifetch la fa fb)
  | 56 => .ok (.shk la fa fb fd)
  | 57 => .ok (.edsig la fa fb fd)
  | 58 => .ok (.edver la fa fb fd)
  | 59 => .ok (.bist la fa fb fd)
  | 60 => unused (la + fa + fb) (.drbg fd)
  | 36 => unused (la + fa + fb + fd) (.cdlDone)
  | 38 => unused (la + fa + fb + fd) (.strExit)
  | 39 => unused (la + fa + fb + fd) (.strYield)
  | _ => .error .unlisted

/-- The fields of a pattern, before its operands are checked (R25, R28, R29, R31). -/
def decodeFields (w : Nat) : Except Reject Instr :=
  let d := bits w 7 5
  let f3 := bits w 12 3
  let a := bits w 15 5
  let b := bits w 20 5
  match w % 4 with
  | 2 => decode16 (bits w 12 4) d (bits w 2 5)
  | 3 =>
    match bits w 2 5 with
    | 0x02 => decodeMem (bits w 28 4) (bits w 24 4) (bits w 16 8) (bits w 12 4) d
    | 0x04 => decodeOpImm f3 d a (bits w 20 12)
    | 0x05 => .ok (.auipc d (bits w 12 20))
    | 0x06 => decodeOpImm32 f3 d a (bits w 20 12)
    | 0x0A => decodeVecA (bits w 27 5) (bits w 22 5) (bits w 17 5) (bits w 12 5) d
    | 0x0C => decodeOp f3 (bits w 25 7) d a b
    | 0x0D => .ok (.lui d (bits w 12 20))
    | 0x0E => decodeOp32 f3 (bits w 25 7) d a b
    | 0x16 => decodeVecB (bits w 27 5) (bits w 22 5) (bits w 17 5) (bits w 12 5) d
    | 0x18 => decodeBranch f3 a b
        (bits w 31 1 * 2 ^ 12 + bits w 7 1 * 2 ^ 11 + bits w 25 6 * 2 ^ 5 + bits w 8 4 * 2)
    | 0x19 => if f3 = 0 then .ok (.jalr d a (bits w 20 12)) else .error .unlisted
    | 0x1B => .ok (.jal d
        (bits w 31 1 * 2 ^ 20 + bits w 12 8 * 2 ^ 12 + bits w 20 1 * 2 ^ 11 + bits w 21 10 * 2))
    | 0x1C => decodeSystem f3 d a (bits w 20 12)
    | 0x1E => decodeSys (bits w 28 4) (bits w 22 6) (bits w 17 5) (bits w 12 5) d
    | _ => if bits w 2 3 = 7 then .error .longPrefix else .error .absentMajor
  | _ => .error .quadrant

/-- The instruction at the pc, or why there is none (R25 to R41). -/
def decode (w : Nat) : Except Reject Instr :=
  match decodeFields w with
  | .ok i => if wf i then .ok i else .error .operand
  | .error r => .error r

/-- Decodes the first instruction of a byte list, low parcel first (R2, R27), and returns the bytes after it. -/
def decodeBytes : List Byte → Except Reject (Instr × List Byte)
  | b0 :: b1 :: rest =>
    let p := b0.toNat + 256 * b1.toNat
    if ilen p = 2 then (decode p).map (fun i => (i, rest))
    else if bits p 2 3 = 7 then .error .longPrefix
    else match rest with
      | b2 :: b3 :: rest' =>
        (decode (p + 65536 * (b2.toNat + 256 * b3.toNat))).map (fun i => (i, rest'))
      | _ => .error .truncated
  | _ => .error .truncated

/-- The decoder's answer on an instruction given as the opcode table numbers its bits: `nbits` low bits of `w`. -/
def decodeTableWord (nbits w : Nat) : Option Instr :=
  match decode (w % 2 ^ nbits) with
  | .ok i => some i
  | .error _ => none

/-! ### Encoding -/

/-- A 16-bit form (R31). -/
def enc16 (op d s : Nat) : Nat := 2 + s * 2 ^ 2 + d * 2 ^ 7 + op * 2 ^ 12
/-- U format (R29). -/
def encU (major imm d : Nat) : Nat := major + d * 2 ^ 7 + imm * 2 ^ 12
/-- J format (R29). -/
def encJ (off d : Nat) : Nat :=
  0x6F + d * 2 ^ 7 + bits off 12 8 * 2 ^ 12 + bits off 11 1 * 2 ^ 20 + bits off 1 10 * 2 ^ 21 + bits off 20 1 * 2 ^ 31
/-- B format (R29). -/
def encB (f3 a b off : Nat) : Nat :=
  0x63 + bits off 11 1 * 2 ^ 7 + bits off 1 4 * 2 ^ 8 + f3 * 2 ^ 12 + a * 2 ^ 15 + b * 2 ^ 20 + bits off 5 6 * 2 ^ 25
    + bits off 12 1 * 2 ^ 31
/-- R format (R29). -/
def encR (major f3 f7 d a b : Nat) : Nat :=
  major + d * 2 ^ 7 + f3 * 2 ^ 12 + a * 2 ^ 15 + b * 2 ^ 20 + f7 * 2 ^ 25
/-- I format (R29); `imm` is the whole field [31:20]. -/
def encI (major f3 d a imm : Nat) : Nat := major + d * 2 ^ 7 + f3 * 2 ^ 12 + a * 2 ^ 15 + imm * 2 ^ 20
/-- MEM, MEMX and AMO formats (R31); `imm` is bits [23:16]. -/
def encMem (la c imm f4 reg : Nat) : Nat :=
  0x0B + reg * 2 ^ 7 + f4 * 2 ^ 12 + imm * 2 ^ 16 + c * 2 ^ 24 + la * 2 ^ 28
/-- VEC-A and VEC-B formats (R31); `g` is et‖vm. -/
def encVec (major f5 g a b d : Nat) : Nat :=
  major + d * 2 ^ 7 + b * 2 ^ 12 + a * 2 ^ 17 + g * 2 ^ 22 + f5 * 2 ^ 27
/-- SYS format (R31). -/
def encSys (la f6 fa fb fd : Nat) : Nat :=
  0x7B + fd * 2 ^ 7 + fb * 2 ^ 12 + fa * 2 ^ 17 + f6 * 2 ^ 22 + la * 2 ^ 28

/-- The word of an instruction; none for an event. -/
def encode : Instr → Option Nat
  | .lui d imm => some (encU 55 imm d)
  | .auipc d imm => some (encU 23 imm d)
  | .jal d off => some (encJ off d)
  | .jalr d a imm => some (encI 103 0 d a imm)
  | .beq a b off => some (encB 0 a b off)
  | .bne a b off => some (encB 1 a b off)
  | .blt a b off => some (encB 4 a b off)
  | .bge a b off => some (encB 5 a b off)
  | .bltu a b off => some (encB 6 a b off)
  | .bgeu a b off => some (encB 7 a b off)
  | .addi d a imm => some (encI 19 0 d a imm)
  | .slti d a imm => some (encI 19 2 d a imm)
  | .sltiu d a imm => some (encI 19 3 d a imm)
  | .xori d a imm => some (encI 19 4 d a imm)
  | .ori d a imm => some (encI 19 6 d a imm)
  | .andi d a imm => some (encI 19 7 d a imm)
  | .slli d a sh => some (encI 19 1 d a (0 + sh))
  | .srli d a sh => some (encI 19 5 d a (0 + sh))
  | .srai d a sh => some (encI 19 5 d a (1024 + sh))
  | .clz d a => some (encI 19 1 d a 1536)
  | .ctz d a => some (encI 19 1 d a 1537)
  | .cpop d a => some (encI 19 1 d a 1538)
  | .add d a b => some (encR 51 0 0 d a b)
  | .sub d a b => some (encR 51 0 32 d a b)
  | .sll d a b => some (encR 51 1 0 d a b)
  | .slt d a b => some (encR 51 2 0 d a b)
  | .sltu d a b => some (encR 51 3 0 d a b)
  | .xor d a b => some (encR 51 4 0 d a b)
  | .srl d a b => some (encR 51 5 0 d a b)
  | .sra d a b => some (encR 51 5 32 d a b)
  | .or d a b => some (encR 51 6 0 d a b)
  | .and d a b => some (encR 51 7 0 d a b)
  | .orn d a b => some (encR 51 6 32 d a b)
  | .andn d a b => some (encR 51 7 32 d a b)
  | .mul d a b => some (encR 51 0 1 d a b)
  | .mulh d a b => some (encR 51 1 1 d a b)
  | .mulhsu d a b => some (encR 51 2 1 d a b)
  | .mulhu d a b => some (encR 51 3 1 d a b)
  | .div d a b => some (encR 51 4 1 d a b)
  | .divu d a b => some (encR 51 5 1 d a b)
  | .rem d a b => some (encR 51 6 1 d a b)
  | .remu d a b => some (encR 51 7 1 d a b)
  | .sh1add d a b => some (encR 51 2 16 d a b)
  | .sh2add d a b => some (encR 51 4 16 d a b)
  | .sh3add d a b => some (encR 51 6 16 d a b)
  | .min d a b => some (encR 51 4 5 d a b)
  | .minu d a b => some (encR 51 5 5 d a b)
  | .max d a b => some (encR 51 6 5 d a b)
  | .maxu d a b => some (encR 51 7 5 d a b)
  | .addiw d a imm => some (encI 27 0 d a imm)
  | .slliw d a sh => some (encI 27 1 d a (0 + sh))
  | .srliw d a sh => some (encI 27 5 d a (0 + sh))
  | .sraiw d a sh => some (encI 27 5 d a (1024 + sh))
  | .addw d a b => some (encR 59 0 0 d a b)
  | .subw d a b => some (encR 59 0 32 d a b)
  | .sllw d a b => some (encR 59 1 0 d a b)
  | .srlw d a b => some (encR 59 5 0 d a b)
  | .sraw d a b => some (encR 59 5 32 d a b)
  | .mulw d a b => some (encR 59 0 1 d a b)
  | .divw d a b => some (encR 59 4 1 d a b)
  | .divuw d a b => some (encR 59 5 1 d a b)
  | .remw d a b => some (encR 59 6 1 d a b)
  | .remuw d a b => some (encR 59 7 1 d a b)
  | .csrrw d csr a => some (encI 115 1 d a csr)
  | .csrrs d csr a => some (encI 115 2 d a csr)
  | .csrrc d csr a => some (encI 115 3 d a csr)
  | .csrrwi d csr uimm => some (encI 115 5 d uimm csr)
  | .csrrsi d csr uimm => some (encI 115 6 d uimm csr)
  | .csrrci d csr uimm => some (encI 115 7 d uimm csr)
  | .ldB la c imm d => some (encMem la c imm 0 d)
  | .ldH la c imm d => some (encMem la c imm 1 d)
  | .ldW la c imm d => some (encMem la c imm 2 d)
  | .ldD la c imm d => some (encMem la c imm 3 d)
  | .ldBu la c imm d => some (encMem la c imm 4 d)
  | .ldHu la c imm d => some (encMem la c imm 5 d)
  | .ldWu la c imm d => some (encMem la c imm 6 d)
  | .vld la c imm d => some (encMem la c imm 7 d)
  | .stB la c imm s => some (encMem la c imm 8 s)
  | .stH la c imm s => some (encMem la c imm 9 s)
  | .stW la c imm s => some (encMem la c imm 10 s)
  | .stD la c imm s => some (encMem la c imm 11 s)
  | .vst la c imm s => some (encMem la c imm 12 s)
  | .vlds la c o d => some (encMem la c (16 * o + 0) 15 d)
  | .vsts la c o s => some (encMem la c (16 * o + 1) 15 s)
  | .vldx la c o d => some (encMem la c (16 * o + 2) 15 d)
  | .vstx la c o s => some (encMem la c (16 * o + 3) 15 s)
  | .vldt la c o d => some (encMem la c (16 * o + 4) 15 d)
  | .ldFe la c o d => some (encMem la c (16 * o + 5) 15 d)
  | .ldFet la c o d => some (encMem la c (16 * o + 6) 15 d)
  | .stFe la c o s => some (encMem la c (16 * o + 7) 15 s)
  | .stFeRel la c o s => some (encMem la c (16 * o + 7) 15 (16 + s))
  | .feClr la c o => some (encMem la c (16 * o + 8) 15 0)
  | .feProbe la c o d => some (encMem la c (16 * o + 9) 15 d)
  | .landArm la c o s => some (encMem la c (16 * o + 10) 15 s)
  | .landWait la c o s => some (encMem la c (16 * o + 11) 15 s)
  | .landGet la c o d => some (encMem la c (16 * o + 12) 15 d)
  | .amoAdd la c s d => some (encMem la c (16 * s + 0) 13 d)
  | .amoAnd la c s d => some (encMem la c (16 * s + 1) 13 d)
  | .amoOr la c s d => some (encMem la c (16 * s + 2) 13 d)
  | .amoXor la c s d => some (encMem la c (16 * s + 3) 13 d)
  | .amoMin la c s d => some (encMem la c (16 * s + 4) 13 d)
  | .amoMax la c s d => some (encMem la c (16 * s + 5) 13 d)
  | .amoMinu la c s d => some (encMem la c (16 * s + 6) 13 d)
  | .amoMaxu la c s d => some (encMem la c (16 * s + 7) 13 d)
  | .amoSwap la c s d => some (encMem la c (16 * s + 8) 13 d)
  | .amoCas la c s d => some (encMem la c (16 * s + 9) 13 d)
  | .amoFadd la c s d => some (encMem la c (16 * s + 10) 13 d)
  | .amoEnq la c s d => some (encMem la c (16 * s + 11) 13 d)
  | .amoDeq la c s d => some (encMem la c (16 * s + 12) 13 d)
  | .vadd et vm a b d => some (encVec 43 0 (8 * et + vm) a b d)
  | .vsub et vm a b d => some (encVec 43 1 (8 * et + vm) a b d)
  | .vmul et vm a b d => some (encVec 43 2 (8 * et + vm) a b d)
  | .vmulh et vm a b d => some (encVec 43 3 (8 * et + vm) a b d)
  | .vmulhu et vm a b d => some (encVec 43 4 (8 * et + vm) a b d)
  | .vand et vm a b d => some (encVec 43 5 (8 * et + vm) a b d)
  | .vor et vm a b d => some (encVec 43 6 (8 * et + vm) a b d)
  | .vxor et vm a b d => some (encVec 43 7 (8 * et + vm) a b d)
  | .vsll et vm a b d => some (encVec 43 8 (8 * et + vm) a b d)
  | .vsrl et vm a b d => some (encVec 43 9 (8 * et + vm) a b d)
  | .vsra et vm a b d => some (encVec 43 10 (8 * et + vm) a b d)
  | .vmin et vm a b d => some (encVec 43 11 (8 * et + vm) a b d)
  | .vmax et vm a b d => some (encVec 43 12 (8 * et + vm) a b d)
  | .vminu et vm a b d => some (encVec 43 13 (8 * et + vm) a b d)
  | .vmaxu et vm a b d => some (encVec 43 14 (8 * et + vm) a b d)
  | .vcmpeq et vm a b d => some (encVec 43 15 (8 * et + vm) a b d)
  | .vcmplt et vm a b d => some (encVec 43 16 (8 * et + vm) a b d)
  | .vcmpltu et vm a b d => some (encVec 43 17 (8 * et + vm) a b d)
  | .vcmple et vm a b d => some (encVec 43 18 (8 * et + vm) a b d)
  | .vfadd et vm a b d => some (encVec 43 19 (8 * et + vm) a b d)
  | .vfsub et vm a b d => some (encVec 43 20 (8 * et + vm) a b d)
  | .vfmul et vm a b d => some (encVec 43 21 (8 * et + vm) a b d)
  | .vfma et vm a b d => some (encVec 43 22 (8 * et + vm) a b d)
  | .vfmin et vm a b d => some (encVec 43 23 (8 * et + vm) a b d)
  | .vfmax et vm a b d => some (encVec 43 24 (8 * et + vm) a b d)
  | .vfdiv et vm a b d => some (encVec 43 25 (8 * et + vm) a b d)
  | .vfcmpeq et vm a b d => some (encVec 43 26 (8 * et + vm) a b d)
  | .vfcmplt et vm a b d => some (encVec 43 27 (8 * et + vm) a b d)
  | .vfcmple et vm a b d => some (encVec 43 28 (8 * et + vm) a b d)
  | .vsel et vm a b d => some (encVec 43 29 (8 * et + vm) a b d)
  | .vperm et vm a b d => some (encVec 43 30 (8 * et + vm) a b d)
  | .vaddx et vm a b d => some (encVec 91 0 (8 * et + vm) a b d)
  | .vmulx et vm a b d => some (encVec 91 1 (8 * et + vm) a b d)
  | .vfmulx et vm a b d => some (encVec 91 2 (8 * et + vm) a b d)
  | .vbcast et vm b d => some (encVec 91 3 (8 * et + vm) 0 b d)
  | .vmvx et a b d => some (encVec 91 4 (8 * et) a b d)
  | .vinsx et a b d => some (encVec 91 5 (8 * et) a b d)
  | .vslup et vm a b d => some (encVec 91 6 (8 * et + vm) a b d)
  | .vsldn et vm a b d => some (encVec 91 7 (8 * et + vm) a b d)
  | .vredsum et vm a d => some (encVec 91 8 (8 * et + vm) a 0 d)
  | .vredmax et vm a d => some (encVec 91 9 (8 * et + vm) a 0 d)
  | .vredmin et vm a d => some (encVec 91 10 (8 * et + vm) a 0 d)
  | .vfredsum et vm a d => some (encVec 91 11 (8 * et + vm) a 0 d)
  | .vfredamax et vm a d => some (encVec 91 12 (8 * et + vm) a 0 d)
  | .vfsqrt et vm a d => some (encVec 91 13 (8 * et + vm) a 0 d)
  | .vfexp2 et vm a d => some (encVec 91 14 (8 * et + vm) a 0 d)
  | .vflog2 et vm a d => some (encVec 91 15 (8 * et + vm) a 0 d)
  | .vfrcp et vm a d => some (encVec 91 16 (8 * et + vm) a 0 d)
  | .vcvt et k a fmt d => some (encVec 91 17 (8 * et + k) a fmt d)
  | .vquant s a fmt d => some (encVec 91 18 s a fmt d)
  | .vdequant s a fmt d => some (encVec 91 19 s a fmt d)
  | .laccClr d => some (encVec 91 20 0 0 0 d)
  | .laccAdd et k a d => some (encVec 91 21 (8 * et + k) a 0 d)
  | .laccMadd a b d => some (encVec 91 22 16 a b d)
  | .laccMerge a d => some (encVec 91 23 0 a 0 d)
  | .laccRd a fmt d => some (encVec 91 24 0 a fmt d)
  | .mand a b d => some (encVec 91 25 0 a b d)
  | .mor a b d => some (encVec 91 26 0 a b d)
  | .mxor a b d => some (encVec 91 27 0 a b d)
  | .mandn a b d => some (encVec 91 28 0 a b d)
  | .mpop a d => some (encVec 91 29 0 a 0 d)
  | .vid et vm d => some (encVec 91 30 (8 * et + vm) 0 0 d)
  | .vaddWN d s => some (enc16 0 d s)
  | .vsubWN d s => some (enc16 1 d s)
  | .vandN d s => some (enc16 2 d s)
  | .vorN d s => some (enc16 3 d s)
  | .vxorN d s => some (enc16 4 d s)
  | .vfaddF32N d s => some (enc16 5 d s)
  | .vfmulF32N d s => some (enc16 6 d s)
  | .vfmaxF32N d s => some (enc16 7 d s)
  | .vfaddBf16N d s => some (enc16 8 d s)
  | .vfmulBf16N d s => some (enc16 9 d s)
  | .vfmaxBf16N d s => some (enc16 10 d s)
  | .vmaxWN d s => some (enc16 11 d s)
  | .vminWN d s => some (enc16 12 d s)
  | .vmv d s => some (enc16 13 d s)
  | .vfsubF32N d s => some (enc16 14 d s)
  | .vfsubBf16N d s => some (enc16 15 d s)
  | .cld a d => some (encSys 0 0 a 0 d)
  | .cst a b => some (encSys 0 1 a b 0)
  | .cmv a d => some (encSys 0 2 a 0 d)
  | .csplit a b d => some (encSys 0 3 a b d)
  | .cjoin a d => some (encSys 0 4 a 0 d)
  | .cfrac a d => some (encSys 0 5 a 0 d)
  | .cunfrac a d => some (encSys 0 6 a 0 d)
  | .cdrop a => some (encSys 0 7 a 0 0)
  | .cinfo a imm d => some (encSys 0 8 a imm d)
  | .cfill a b d => some (encSys 0 9 a b d)
  | .objNew a b d => some (encSys 0 10 a b d)
  | .objFree a => some (encSys 0 11 a 0 0)
  | .keyNew d => some (encSys 0 12 0 0 d)
  | .keyEnd la a d => some (encSys la 13 a 0 d)
  | .mxCfg a d => some (encSys 0 16 a 0 d)
  | .mxWld la a imm => some (encSys la 17 a imm 0)
  | .mxMma la a b d => some (encSys la 18 a b d)
  | .mxZero la d => some (encSys la 19 0 0 d)
  | .mxSt la a d => some (encSys la 20 a 0 d)
  | .mxSwap la a b => some (encSys la 21 a b 0)
  | .mxAfl la a b d => some (encSys la 22 a b d)
  | .mxWait la d => some (encSys la 23 0 0 d)
  | .mxStat imm d => some (encSys 0 24 0 imm d)
  | .mbSend la a b d => some (encSys la 25 a b d)
  | .mbRecv la a imm d => some (encSys la 26 a imm d)
  | .mbPeek imm d => some (encSys 0 27 0 imm d)
  | .mvCopy la a b d => some (encSys la 28 a b d)
  | .rgPop la a imm d => some (encSys la 29 a imm d)
  | .rgPush la a b d => some (encSys la 30 a b d)
  | .rgDone a imm => some (encSys 0 31 a imm 0)
  | .chSub la a b d => some (encSys la 32 a b d)
  | .chUnsub la a d => some (encSys la 33 a 0 d)
  | .cdlNew a b d => some (encSys 0 34 a b d)
  | .cdlDec la a b => some (encSys la 35 a b 0)
  | .strNew a b d => some (encSys 0 37 a b d)
  | .mig a => some (encSys 0 40 a 0 0)
  | .tagDecl la a b d => some (encSys la 41 a b d)
  | .tagPub la a b d => some (encSys la 42 a b d)
  | .barArr a d => some (encSys 0 43 a 0 d)
  | .barWait la a b d => some (encSys la 44 a b d)
  | .slotBorrow a d => some (encSys 0 45 a 0 d)
  | .slotRet a => some (encSys 0 46 a 0 0)
  | .xmvRd a imm d => some (encSys 0 47 a imm d)
  | .xmvWr a imm d => some (encSys 0 48 a imm d)
  | .strStop a => some (encSys 0 49 a 0 0)
  | .strSave la a b => some (encSys la 50 a b 0)
  | .strLoad la a b => some (encSys la 51 a b 0)
  | .strGo a => some (encSys 0 52 a 0 0)
  | .rpt n b => some (encSys 0 53 n b 0)
  | .jseg a d => some (encSys 0 54 a 0 d)
  | .ifetch la a b => some (encSys la 55 a b 0)
  | .shk la a b d => some (encSys la 56 a b d)
  | .edsig la a b d => some (encSys la 57 a b d)
  | .edver la a b d => some (encSys la 58 a b d)
  | .bist la a b d => some (encSys la 59 a b d)
  | .drbg d => some (encSys 0 60 0 0 d)
  | .ecall => some (115)
  | .ebreak => some (1048691)
  | .wfi => some (273678451)
  | .tret => some (270532723)
  | .dret => some (2065694835)
  | .cdlDone => some (encSys 0 36 0 0 0)
  | .strExit => some (encSys 0 38 0 0 0)
  | .strYield => some (encSys 0 39 0 0 0)
  | .lookaheadWindowClose _ _ => none
  | .trapEntry _ => none
  | .watchdogExpiry _ => none
  | .waitLimitExpiry _ _ => none
  | .barWaitLimitExpiry _ _ => none
  | .timerExpiry _ => none
  | .yieldExpiry _ => none
  | .waitListRetry _ _ => none
  | .matrixCommandStart _ => none
  | .matrixCommandComplete _ _ => none
  | .matrixCommandError _ _ => none
  | .mxSwapPairing _ => none
  | .moveCommandStart _ => none
  | .moveCommandComplete _ => none
  | .ifetchLoadComplete _ => none
  | .landingPacketCount _ _ => none
  | .mailboxReservation _ => none
  | .mailboxReservationRetry _ => none
  | .byteCopyComplete _ => none
  | .messageComplete _ => none
  | .ringSlotWrite _ => none
  | .churnLoaderPush _ => none
  | .churnStorerWrite _ => none
  | .subscriptionEnd _ => none
  | .codeletDispatch _ => none
  | .codeletAbort _ => none
  | .migratedStrandEntry _ => none
  | .stopTakesEffect _ => none
  | .tagDeclAtHome _ => none
  | .tagPubAtHome _ => none
  | .completionNotice _ _ => none
  | .launchRequest _ => none
  | .heldLaunchStart => none
  | .runComplete _ => none
  | .completionReportNext _ => none
  | .exportRequest _ => none
  | .revokeRequest _ => none
  | .hostTierGrant _ => none
  | .writeWrow _ _ => none
  | .writeCertificateSlot _ => none
  | .certWriteApply _ => none
  | .evictGranules _ => none
  | .restoreGranules _ => none
  | .getTdispVersion _ => none
  | .getTdispCapabilities _ => none
  | .lockInterfaceRequest _ => none
  | .getDeviceInterfaceReport _ => none
  | .getDeviceInterfaceState _ => none
  | .startInterfaceRequest _ => none
  | .stopInterfaceRequest _ => none
  | .quiesce _ => none
  | .quiesceComplete _ => none
  | .resume _ => none
  | .tdispUnsupportedRequest _ _ => none
  | .functionLevelReset _ => none
  | .ideIntegrityFailure _ => none
  | .lockedConfigWrite _ => none
  | .separatorStateError _ => none
  | .firmwareActivation _ _ => none
  | .spdmGetVersion _ => none
  | .spdmGetCapabilities _ _ => none
  | .spdmNegotiateAlgorithms _ _ _ _ => none
  | .spdmGetDigests _ _ => none
  | .spdmGetCertificate _ _ _ _ _ => none
  | .spdmChallenge _ _ _ => none
  | .spdmGetMeasurements _ _ _ => none
  | .spdmUnsupportedRequest _ _ _ => none
  | .mapRead _ _ _ => none
  | .blackBoxRead _ _ => none
  | .repairRecordRead _ => none
  | .marginAccess _ _ _ => none
  | .selfTest _ _ _ => none
  | .selfTestComplete _ => none
  | .operatorWorld _ => none
  | .marginPointStart _ _ => none
  | .marginPointComplete _ _ => none
  | .railOffsetWrite _ _ => none
  | .railOffsetApplied _ => none
  | .rptcWrite _ => none
  | .wdogWrite _ => none
  | .tdeltaWrite _ => none
  | .fmodeWrite _ => none
  | .mxcfgWrite _ => none
  | .registerWrite _ _ => none
  | .ualinkRetransmit _ => none
  | .ualinkRequestTimeout _ => none
  | .duplicateCacheExpiry _ _ => none
  | .busyRetry _ => none
  | .windowOpen _ _ _ => none
  | .windowAccessAtExporter _ _ _ _ _ _ _ => none
  | .apertureRead _ _ _ => none
  | .apertureWrite _ _ _ _ => none
  | .cxlSnoop _ => none
  | .foreignWorldRequest _ _ _ => none
  | .correctableError _ _ _ => none
  | .uncorrectableError _ _ _ => none
  | .linkCrcFailure _ _ _ => none
  | .errorWindowBoundary _ => none
  | .tileFence _ => none
  | .keyEndZeroFillComplete _ _ => none
  | .powerThrottle _ => none
  | .coldReset => none
  | .warmReset => none
  | .haltRequest _ => none
  | .debugHalt _ => none
  | .tileStop _ => none
  | .tileResume _ => none
  | .debugResume _ => none
  | .accessRegister _ _ _ _ => none
  | .programBufferExecute _ => none
  | .throttleEnd _ => none
  | .traceBufferWrite _ => none
  | .cxlLinkTraining _ _ _ => none
  | .malformedRequest _ => none
  | .strandEntryRetry _ => none
  | .entropyHealthFailure => none

end Sys2Proof
end

