-- ==== Sys2Proof/Machine/State.lean ====
section
/-! DEFINITION. The state of an Oadric package as plain data, the reasons a step can stop, and the state after reset. Every
table is a sparse map (`SMap`): a list of key and value pairs with the keys rising and no entry equal to the map's default.
Strand keys are global tile address × 16 + slot; the Separator's own core has the key 65,536. -/
namespace Sys2Proof.Machine

/-- A sparse table: pairs in rising key order, none equal to the table's default. -/
abbrev SMap (α : Type) := List (Nat × α)

/-- Why the machine stops. No instruction of the tables stops on operands; every trap of the spec is a next state. -/
inductive Fault where
  /-- Raised by an event's meaning when the condition under which the spec lets that event happen does not hold.
  Safe: no step of the hardware is lost, since such an event never happens there (log 10). -/
  | notDue
  /-- Raised when an event's own arguments name a unit that the spec says does not exist (a die above 63, a world above 7).
  Safe: the hardware has no such event (log 10). -/
  | noSuchUnit
  deriving DecidableEq, Repr

/-- Why an instruction has no meaning. -/
inductive Refusal where
  /-- Raised by an arm of `exec` for an instruction that has no meaning yet. Safe: nothing is claimed of it. -/
  | notModelled (mnemonic : String)
  deriving DecidableEq, Repr

/-- Privilege modes (03 R62). -/
inductive Mode where
  | u | s | m | d
  deriving DecidableEq, Repr

/-- A capability (04 R80): five fields that fill 128 bits. -/
structure Cap where
  gen : BitVec 12 := 0
  rights : BitVec 8 := 0
  oid : BitVec 28 := 0
  len : BitVec 40 := 0
  base : BitVec 40 := 0
  deriving DecidableEq, Repr

/-- The null capability (04 R82). -/
def Cap.null : Cap := {}

/-- An object-table entry (04 R84). `bad`: the entry holds an uncorrectable error (05 R137). -/
structure Entry where
  base : Nat := 0
  gen : Nat := 1
  owner : Nat := 0
  len : Nat := 0
  ext : Bool := false
  valid : Bool := false
  restartable : Bool := false
  amo : Bool := false
  resident : Bool := false
  poison : Bool := false
  world : Nat := 0
  pkey : Nat := 0
  keyid : Nat := 0
  cls : Nat := 0
  fills : Nat := 0
  fracs : Nat := 0
  bad : Bool := false
  deriving DecidableEq, Repr

/-- Results that a window writes when it closes (03 R56), and what else its closing does. -/
structure Res where
  /-- x registers, in order. -/
  xs : List (Nat × Word) := []
  vs : List (Nat × VReg) := []
  cs : List (Nat × Cap) := []
  /-- Flags ORed into fmode (07 R180). -/
  flags : Nat := 0
  /-- The tile's L1 discards every line (05 R115). -/
  acquire : Bool := false
  deriving DecidableEq, Repr

/-- Destination of a load. -/
inductive Dst where
  /-- x register, access size in bytes, sign-extended or not. -/
  | x (d size : Nat) (sg : Bool)
  | v (d : Nat)
  deriving DecidableEq, Repr

/-- A request of a strand to a port whose object may not be resident (05 R133): its operands as captured at issue. -/
inductive Req where
  /-- The parts (offset, size) of a load in the order of their bytes. -/
  | load (parts : List (Nat × Nat)) (dst : Dst)
  /-- The parts (offset, bytes) of a store, applied in order. -/
  | store (parts : List (Nat × List Byte))
  /-- An atomic: operation, offset, register of the old value, operand register, operands, rounding mode. -/
  | amo (op off d s : Nat) (a b : Word) (rm : Nat)
  deriving DecidableEq, Repr

/-- The full/empty operations (05 R128). -/
inductive FeOp where
  | ld | ldt | st | stRel | clr | probe
  deriving DecidableEq, Repr

/-- What an open window waits for. -/
inductive Wait where
  /-- A full/empty word (05 R125): operation, capability, offset, value; `listed` on the port's wait list, else it retries.
  `held`: the tile stop of 16 R390 keeps the request in the hold queue.
  `upto`: st.fe.rel has not been sent while a command of the strand with a lower id has not completed; 0: sent. -/
  | fe (op : FeOp) (cap : Cap) (off : Nat) (val : Word) (d : Nat) (listed held : Bool) (upto : Nat)
  /-- A landing word (05 R130); `gen`: the operand x[d], of which bits [7:0] are compared. -/
  | land (cap : Cap) (off gen d : Nat)
  /-- A granule that is not resident (05 R133): the wait is on its port's wait list, or finds it full and is sent again in cycle
  `retry` (01 R16, 05 R125). -/
  | resident (cap : Cap) (lkey : Word) (req : Req) (retry : Option Nat)
  /-- An atomic that earlier synchronising operations keep from being sent (06 R154), or a store that the strand's earlier buffered
  stores to the object do, which wait for granules that are not resident (05 R134, R138). -/
  | unsent (cap : Cap) (lkey : Word) (req : Req)
  /-- The answer to UALink request `id` (15 R386). -/
  | remote (id : Nat) (o : Nat) (req : Req)
  /-- A message of mailbox `mb` (10 R267). -/
  | recv (mb d c : Nat)
  /-- A ring slot to read (10 R273): capability, destination, cursor, the strand's lkey at issue. -/
  | pop (cap dst : Cap) (cur : Nat) (lkey : Word)
  /-- A free ring slot (10 R272): capability, source, x destination. -/
  | push (cap src : Cap) (d : Nat)
  /-- A barrier phase (12 R319): the operand of bar.wait, its token. -/
  | bar (x d : Nat)
  /-- The partner of an mx.swap (09 R248). -/
  | swap
  /-- An accepted command or request, by its id: the unit that performs it completes the window. -/
  | cmd (id : Nat)
  /-- The strand's matrix commands with ids below `upto` (09 R246); flags of the waited commands. -/
  | mxIdle (upto d flags : Nat)
  /-- The stopped slot of a str.save (12 R327); the strand's lkey at issue. -/
  | save (slot : Nat) (cap : Cap) (lkey : Word)
  /-- The end of a key: the key, the status it returns (0 or 2) and its destination (14 R360). The operation completes by
  LOOKAHEAD_WINDOW_CLOSE, whether or not its window can close then. -/
  | keyEnd (key status d : Nat)
  /-- Bytes that a Separator instruction writes when its window closes (14 R371). -/
  | sepOut (cap : Cap) (bs : List Byte)
  deriving DecidableEq, Repr

/-- State of a window. -/
inductive WinSt where
  | wait (w : Wait)
  | done (r : Res)
  /-- Failed with a deferred fault: cause and tval (03 R59). -/
  | fail (cause tval : Nat)
  deriving DecidableEq, Repr

/-- A lookahead window (03 R55 to R58). -/
structure Win where
  id : Nat
  /-- Overlay address and bits of the instruction that opened it. -/
  addr : Nat
  ibits : Nat
  /-- Following instructions still to issue before the window may close; `counting` until an event ends the counting. -/
  left : Nat
  counting : Bool := true
  /-- Following instructions that have issued within it. -/
  issued : Nat := 0
  /-- First cycle in which every instruction that counts has written its results. -/
  wAt : Nat
  st : WinSt
  /-- The cycle in which the operation completes is a rule's: the window closes in its first cycle (03 R55; log 47). -/
  prompt : Bool := false
  /-- The object whose bytes a load's answer carries over the mesh or a link (13 R344), 0 for none. -/
  obj : Nat := 0
  /-- Remaining counted ticks of a bounded wait (12 R321), none when there is no bound; `post` the tick of posting. -/
  lim : Option Nat := none
  post : Nat := 0
  /-- First cycle of the next retry of a request that found its port's list full (05 R125). -/
  retryAt : Nat := 0
  deriving DecidableEq, Repr

/-- Why the instruction at the pc, which has not issued yet, is held (03 R51). -/
inductive HoldWhy where
  /-- An open window must close first (03 R55, R58): one of them, or all. -/
  | window (id : Nat) | windows
  /-- Earlier full/empty operations or engine commands of the strand on the object (05 R128, 09 R235, 10 R252). -/
  | object (oid : Nat) (write : Bool)
  /-- Earlier full/empty operations of the strand on the object only, for an engine command (05 R128). -/
  | fe (oid : Nat)
  /-- An earlier atomic (06 R154); every earlier synchronising operation and engine command (R157). -/
  | sync | commands
  /-- Every earlier synchronising operation, matrix command, copy and push, for bar.arr (12 R317). -/
  | release
  /-- A full engine queue (01 R15). -/
  | mxQueue | mvQueue
  /-- The accumulate unit (08 R220). -/
  | lacc
  /-- An interrupt enabled in tie and pending in tip (03 R74). -/
  | wfi
  /-- bar.arr beyond the lead of four phases (12 R317): its operand and its destination. -/
  | barLead (x d : Nat)
  /-- The overlay slot is busy (05 R131). -/
  | fetch (slot : Nat)
  /-- Every earlier access and engine command of the strand on the object (04 R100); its stores only (R99, R106). -/
  | drop (oid : Nat) | drain (oid : Nat)
  /-- Buffered stores that wait for granules that are not resident, for cdl.done (05 R134). -/
  | late
  /-- The previous access to the window is not acknowledged (15 R383). -/
  | remote (oid : Nat)
  /-- Earlier full/empty operations, and engine commands other than pushes, of the strand on the ring object, for rg.pop; the strand's
  stores to it, for rg.done (10 R273, R274). -/
  | ring (oid : Nat) | ringDone (oid : Nat)
  /-- Stores that the tile issued before: the windows, by strand key, and the objects for which strands hold stores, by key
  (06 R149; 11 R290). -/
  | args (ws bs : List (Nat × Nat))
  /-- A self-test of the unit of a logic target, which is not idle (17 R402). -/
  | selfTest (g target : Nat)
  /-- A self-test of the vector unit by another slot (17 R402). -/
  | vecTest
  deriving DecidableEq, Repr

/-- A park that the instruction itself makes: it has issued (03 R51). -/
def HoldWhy.parks : HoldWhy → Bool
  | .wfi => true
  | .barLead _ _ => true
  | _ => false

/-- A held instruction; a bounded hold counts ticks as a wait does (12 R321). -/
structure Hold where
  why : HoldWhy
  lim : Option Nat := none
  post : Nat := 0
  deriving DecidableEq, Repr

/-- What occupies a slot (03 R51). -/
inductive Occ where
  | empty | persistent | codelet
  /-- Lent to the strand with that key. -/
  | lent (k : Nat)
  deriving DecidableEq, Repr

/-- What an engine command does; its operands as captured at issue (09 R233, 10 R251). `cfg`: mxcfg at issue. -/
inductive CmdOp where
  | wld (c : Cap) (slot fmt : Nat)
  | mma (cd ca cb : Cap) (cfg : Nat)
  | zero (cd : Cap)
  | st (cd ca : Cap) (cfg : Nat)
  /-- `data`: the partner's bytes once the swap has paired. -/
  | swap (c : Cap) (tag : Nat) (data : Option (List Byte))
  /-- `lay`: strides as 64-bit patterns, extents and element bytes of the layout record once read. -/
  | afl (cd ca cb : Cap) (lay : List Nat)
  /-- Carried capability, payload capability, descriptor. -/
  | send (carried pay : Cap) (desc : Nat)
  /-- Destination, source, landing word, and the packets not yet counted; with a window, the packets read and acknowledged. -/
  | copy (dst src land : Cap) (todo : List Nat) (got : List (Nat × List Byte)) (acked : List Nat)
  /-- Ring, source, x destination, wlim at issue; the bytes read at the start; the sequence number reserved. -/
  | push (ring src : Cap) (d : Nat) (wlim : Word) (data : List Byte) (seq : Option Nat)
  /-- Source of the code, overlay slot, segment, and the bytes still to load. -/
  | ifetch (src : Cap) (slot seg : Nat)
  deriving DecidableEq, Repr

/-- An accepted engine command (01 R15): its id, the strand key and window that issued it, the tile, the cycle of issue, the
strand's lkey, the engine (`mx`: matrix), whether it has started, the cycle of completion, whether its work is done, the objects it
reads and writes (09 R235, 10 R252), and the byte ranges (object, first, end) it reads and writes (09 R232). -/
structure Cmd where
  id : Nat
  key : Nat
  win : Nat
  g : Nat
  at_ : Nat
  lkey : Word
  mx : Bool
  running : Bool := false
  /-- A move command has drained, read its operands and passed its port checks. -/
  went : Bool := false
  doneAt : Nat := 0
  fin : Bool := false
  reads : List Nat := []
  writes : List Nat := []
  rd : List (Nat × Nat × Nat) := []
  wr : List (Nat × Nat × Nat) := []
  /-- First cycle after the completion of a conflicting matrix command (09 R232). -/
  freeAt : Nat := 0
  /-- Overlay address of its instruction; a fault that was met after its window had closed has been reported (log 98). -/
  addr : Nat := 0
  hurt : Bool := false
  op : CmdOp
  deriving DecidableEq, Repr

/-- A wait recorded at a stop or a halt (12 R323). -/
structure RecWait where
  addr : Nat
  ibits : Nat
  issued : Nat
  left : Nat
  w : Wait
  lim : Option Nat
  /-- The command of a parked rg.push or mx.swap that a halt has withdrawn (16 R389). -/
  cmd : Option Cmd := none
  deriving DecidableEq, Repr

/-- An entry of a codelet's commit buffer (05 R134): a store by capability, offset and bytes; or an operation that waits for
cdl.done (11 R292): a decrement by handle, a tag declaration by its operands. -/
inductive CbEnt where
  | st (cap : Cap) (off : Nat) (bs : List Byte)
  | dec (handle delta : Nat)
  | decl (cap : Cap) (handle key gen : Nat) (grant : Option Nat)
  deriving DecidableEq, Repr

/-- One strand slot and the strand in it (03 R51, R65). -/
structure Slot where
  occ : Occ := .empty
  /-- The slot was Empty at the start of this cycle (11 R288). -/
  wasFree : Bool := true
  /-- Priority class of the strand's launch (03 R53). -/
  cls : Nat := 0
  /-- A stop requested (12 R326), in effect, and the same of the debugger (16 R389); cause of the debug halt, trigger. -/
  stopReq : Bool := false
  stopped : Bool := false
  haltReq : Nat := 0
  halted : Bool := false
  mode : Mode := .u
  pc : Word := 0
  x : SMap Word := []
  c : SMap Cap := []
  /-- The S copy of c15 (03 R63). -/
  c15s : Cap := .null
  v : SMap VReg := []
  /-- Vector registers that hold an uncorrectable error (05 R137), as a mask. -/
  badv : Nat := 0
  m : SMap Mask := []
  fmode : Word := 0
  /-- Flags of fmode that closing windows and matrix commands have raised in this cycle (03 R72). -/
  flagNow : Nat := 0
  mxcfg : Word := 0
  wlim : Word := 0
  lkey : Word := 0
  rptc : Word := 0
  instret : Word := 0
  tvec : Word := 0
  trpc : Word := 0
  tcause : Word := 0
  tval : Word := 0
  /-- ie and pie are 1 at entry (13 R333). -/
  tstat : Word := 3
  tscratch : Word := 0
  wdog : Word := 0
  tie : Word := 0
  tip : Word := 0
  /-- Bits of tip that hardware has set in this cycle (03 R72). -/
  tipNow : Nat := 0
  /-- ver reads 4 (16 R391). -/
  dcsr : Word := 0x40000000
  dpc : Word := 0
  dscratch0 : Word := 0
  /-- A repeat drives the pc (03 R77); instructions of a repeat of count 0 still to skip (R76), and those of interrupted
  skips (log 14). -/
  rptLive : Bool := false
  skip : Nat := 0
  skipS : List Nat := []
  /-- Last refusal code (04 R105). -/
  refusal : Nat := 0
  wins : List Win := []
  nextWid : Nat := 1
  /-- The cycle in which a window last closed, plus 1, and what the windows that closed in it wrote (03 R58): window, kind (0 x, 1 v, 2 c),
  register. -/
  closedAt : Nat := 0
  closedDst : List (Nat × Nat × Nat) := []
  hold : Option Hold := none
  /-- A synchronous fault that waits for open windows (03 R60): cause and tval. -/
  sync : Option (Nat × Nat) := none
  /-- Deferred faults of closed windows (13 R338): window id, cause, tval, daddr. -/
  dfs : List (Nat × Nat × Nat × Nat) := []
  /-- The watchdog's count has reached 0 (12 R332); WATCHDOG is due, withdrawn waits reached the windows, and the address of the oldest. -/
  wdPend : Bool := false
  wdDue : Bool := false
  wdr : Bool := false
  wdAddr : Nat := 0
  /-- Ticks from which the watchdog and tip.tdelta count: the tick of the write is not counted (12 R332, 13 R341). -/
  wdPost : Nat := 0
  tdPost : Nat := 0
  /-- A timer that has run out and not yet set tip.tm (13 R342). -/
  tmDue : Bool := false
  /-- Earliest cycle of the next issue, cycle of the last, and cycle from which the slot is eligible (03 R52, R53). -/
  nextAt : Nat := 0
  lastIssue : Nat := 0
  /-- Cycles for which the slot has been eligible without issuing (03 R52). -/
  age : Nat := 0
  /-- str.yield: slots that must issue first, until this cycle (11 R308). -/
  yieldFor : List Nat := []
  yieldUntil : Nat := 0
  /-- The next instruction fires no trigger at its own address (16 R395); one step to halt after (16 R392). -/
  noTrig : Bool := false
  stepping : Bool := false
  /-- A synchronous fault of the dispatch that the strand takes before its first instruction (11 R290). -/
  startFault : Option (Nat × Nat) := none
  /-- Tile events recorded for the slot (13 R342). -/
  evset : Nat := 0
  /-- Pending matrix error code, 0 for none (09 R246), and flags of matrix commands since the last mx.wait. -/
  merr : Nat := 0
  mflags : Nat := 0
  /-- Message taken from each mailbox and not yet released (10 R263): mailbox to message id + 1. -/
  taken : SMap Nat := []
  /-- Waits recorded at a stop or halt (12 R323). -/
  recs : List RecWait := []
  /-- D mode was entered from S (03 R63); a trap of the program buffer, reported to the debugger (R62). -/
  dFromS : Bool := false
  /-- The repeat that drove the pc, and the instructions still to skip, when D mode was entered. -/
  dRpt : Bool := false
  dSkip : Nat := 0
  /-- The park that D mode interrupted, at the pc `dpc` then held (16 R389). -/
  dHold : Option (Hold × Word) := none
  dErr : Option (Nat × Nat) := none
  /-- Codelet: handle of its descriptor (11 R290), restartable (05 R134), commit buffer in program order with its bytes used,
  residency trap taken (05 R135), and the operations held for cdl.done (11 R292) by their requests' ids. -/
  desc : Nat := 0
  restartable : Bool := false
  cbuf : List CbEnt := []
  cbufUsed : Nat := 0
  nrSeen : Bool := false
  /-- The program buffer's next word, while it runs (16, D mode). -/
  pbPos : Option Nat := none
  /-- Codelet: argument entries that its dispatch claimed, as argument number and holding index (11 R290). -/
  args : List (Nat × Nat) := []
  deriving DecidableEq, Repr

/-- An overlay slot's record and its landing word (05 R131). -/
structure OvSlot where
  seg : Nat := 0
  valid : Bool := false
  busy : Bool := false
  /-- Id of the last ifetch command issued to the slot; its landing word has reached the target. -/
  last : Nat := 0
  landed : Bool := false
  target : Nat := 0
  count : Nat := 0
  deriving DecidableEq, Repr

/-- A weight slot (09 R221). -/
structure WSlot where
  valid : Bool := false
  busy : Bool := false
  fmt : Nat := 0
  lead : Nat := 0
  scale : Nat := 0
  deriving DecidableEq, Repr

/-- A record of a mailbox in reservation order (10 R259): message id (0: a pad record), byte count at its start, size, complete,
released, priority, and its capability while no strand has taken it. -/
structure MRec where
  id : Nat
  pos : Nat
  size : Nat
  complete : Bool
  released : Bool := false
  taken : Bool := false
  pri : Nat := 0
  cap : Cap := .null
  /-- Flat address of its capability slot, once written. -/
  slot : Nat := 0
  deriving DecidableEq, Repr

/-- A descriptor chained to a producer run's completion (11 R297): the run's table index, the descriptor's handle, the tagged
object and the pending grant. -/
structure Fallback where
  pslot : Nat
  handle : Nat
  oid : Nat
  grant : Option Nat
  deriving DecidableEq, Repr

/-- A migrated context (11 R309, R310): sender, destination, segment address of the pc, registers, and the destination that failed,
when it has been returned; the cycle in which a full entry queue last refused it. -/
structure Ctx where
  id : Nat
  origin : Nat
  dest : Nat
  seg : Nat
  x : SMap Word
  c : SMap Cap
  fmode : Word
  mxcfg : Word
  wlim : Word
  lkey : Word
  instret : Word
  wdog : Word
  tie : Word
  tip : Word
  back : Bool := false
  at_ : Nat := 0
  deriving DecidableEq, Repr

/-- One tile (01 R14 to R17). Fields of the run are the Separator's writes at the launch (11 R281). -/
structure Tile where
  fenced : Bool := false
  /-- The accumulator object of the run (05 R118), 0 for none. -/
  accObj : Nat := 0
  resetAt : Nat := 0
  /-- What a debugger has added to the tile's views of cycle and rtick (02 R49). -/
  cycleAdj : Word := 0
  rtickAdj : Word := 0
  /-- A run holds the tile: its fields as the launch wrote them. -/
  run : Bool := false
  runid : Nat := 0
  rank : Nat := 0
  pword : Nat := 0
  cls : Nat := 0
  entryseg : Nat := 0
  runWdog : Nat := 0
  runWlim : Nat := 0
  /-- Tile-set corners, run-table index, producer's index (11 R281, R282). -/
  tlo : Nat := 0
  thi : Nat := 0
  oslot : Nat := 0
  pslot : Nat := 0xFFF
  tagfb : Word := 0
  bfcnt : Word := 0
  slotmask : Word := 0
  ov : SMap OvSlot := []
  /-- Cycle in which the tile last issued, plus 1 (one instruction a cycle, 03 R52). -/
  issuedAt : Nat := 0
  /-- First cycle in which the accumulate unit is free (08 R220). -/
  laccFree : Nat := 0
  /-- First cycle in which no vector instruction of the tile is in flight (08 R195, 17 R402). -/
  vecFree : Nat := 0
  /-- Self-tests of the tile by strands: target, strand, and the cycle in which each ends (17 R402). -/
  tests : List (Nat × Nat × Nat) := []
  /-- The matrix engine (09 R221): weight slots, scale latch, first idle cycle of each unit (0 load, 1 array). -/
  wslots : SMap WSlot := []
  latchRow : SMap Nat := []
  latchCol : Nat := 0x3F800000
  mxFree : SMap Nat := []
  /-- Mailboxes (10 R257): records in reservation order, and the strands parked in mb.recv in the order of posting. -/
  mboxes : SMap (List MRec) := []
  mbWaits : SMap (List (Nat × Nat)) := []
  /-- Triggers (16 R393): tselect, tdata1 and tdata2 of each. -/
  tselect : Nat := 0
  tdata1 : SMap Word := []
  tdata2 : SMap Word := []
  /-- Ready queues by priority (11 R287): pool address of each descriptor, and whether it holds an entry of the ready ring. -/
  ready : SMap (List (Nat × Bool)) := []
  /-- First cycle of the next dispatch (R288); the strand-entry queue (R310). -/
  dispatchAt : Nat := 0
  entryQ : List Ctx := []
  /-- Fallback chains and the completion notices received during the run (11 R297). -/
  fbs : List Fallback := []
  notices : List Nat := []
  /-- A tile stop is in effect (16 R389); the program buffer of eight words. -/
  tstop : Bool := false
  pbuf : SMap Nat := []
  /-- Trace encoder and counters (16 R396 to R399): control, object and write offset, selectors, counts; the buffered records,
  records lost, the tick of the last record plus 1 (0: none since enabling), the last recorded state of each slot. -/
  trctl : Nat := 0
  trobj : Nat := 0
  pcsel : SMap Nat := []
  pcnt : SMap Word := []
  trBuf : List Word := []
  trLost : Nat := 0
  trTick : Nat := 0
  trState : SMap Nat := []
  deriving DecidableEq, Repr

/-- A line of an L1 (05 R114). -/
structure L1Line where
  oid : Nat
  gen : Nat
  line : Nat
  bytes : List Byte
  deriving DecidableEq, Repr

/-- States of a key id (14 R356). -/
inductive KeySt where
  | free | live | ending | ended | retired
  deriving DecidableEq, Repr

/-- A key id (14 R356): its state, epoch and world. -/
structure Key where
  st : KeySt := .free
  epoch : Nat := 0
  world : Nat := 0
  deriving DecidableEq, Repr

/-- An operation that the port of a stopped tile holds (16 R390): a full/empty request by strand key and window, a landing count
by landing-word address (flat) and bytes (none: error), a landing count of an overlay slot's load, an advance of a mailbox. -/
inductive Held where
  | fe (k w : Nat)
  | land (a : Nat) (n : Option Nat) (by_ : Nat)
  | ifetch (slot id : Nat)
  | vis (mb by_ : Nat)
  deriving DecidableEq, Repr

/-- How a message delivers its capability (10 R254). -/
inductive Deliver where
  | none | rights | owner | copy
  deriving DecidableEq, Repr

/-- Where a message is. -/
inductive MsgSt where
  /-- Its first packet is on its way. -/
  | sent
  /-- Refused for lack of space: the cycle of the refusal, and the mailbox's head then (10 R261). -/
  | held (at_ head : Nat)
  /-- Its record is reserved at that byte count of the mailbox. -/
  | reserved (pos : Nat)
  deriving DecidableEq, Repr

/-- A message that has started (10 R254 to R264). -/
structure Msg where
  id : Nat
  /-- The tile whose move engine holds it. -/
  holder : Nat
  dest : Nat
  mbox : Nat
  spkg : Nat
  stile : Nat
  pri : Nat
  user : Nat
  odesc : Nat := 0
  err : Nat := 0
  ret : Bool := false
  pay : List Byte
  cap : Cap
  how : Deliver
  st : MsgSt := .sent
  /-- The payload is written; packets of a copy still to write; the owner field has changed; the copy is complete. -/
  payDone : Bool := false
  todo : List Nat := []
  ownDone : Bool := false
  copyDone : Bool := false
  /-- The bytes of the object that another package receives carry the poison syndrome (10 R255). -/
  hurt : Bool := false
  /-- The new object of a byte copy and its generation; the flat address of the landing word, when counted. -/
  newO : Nat := 0
  newG : Nat := 0
  land : Option Nat := Option.none
  deriving DecidableEq, Repr

/-- A churn subscription (10 R275). `done`: slots that its cursor has passed (storer); `stopReq`: strand key, window and x register
of each ch.unsub, in order. -/
structure Sub where
  tile : Nat
  lkey : Word
  loader : Bool
  ring : Cap
  obj : Cap
  cur : Nat
  chunk : Nat
  h : Nat
  count : Nat
  s0 : Nat
  moved : Nat := 0
  done : Nat := 0
  /-- The chunk of a loader that waits for its slot: sequence number and bytes (10 R272, R277). -/
  resv : Option (Nat × List Byte) := none
  err : Option Nat := none
  ended : Bool := false
  returned : Bool := false
  stopReq : List (Nat × Nat × Nat) := []
  deriving DecidableEq, Repr

/-- A tag request on its way to its key's home (11 R295, R296): declaration of the descriptor `handle`, or publication; strand
and window that wait for its answer (window 0: none), tile, key, generation, grant. -/
structure TagReq where
  id : Nat
  k : Nat
  win : Nat
  g : Nat
  decl : Bool
  cap : Cap
  handle : Nat
  key : Nat
  gen : Nat
  grant : Option Nat
  lkey : Word
  /-- x register of the status or count. -/
  d : Nat := 0
  deriving DecidableEq, Repr

/-- A waiter of a tag (11 R293). -/
structure Waiter where
  handle : Nat
  gen : Nat
  grant : Option Nat
  deriving DecidableEq, Repr

/-- A tag-table entry (11 R293); `base` and `len` of the last publication. -/
structure TagEnt where
  key : Nat
  pub : Nat := 0
  lastRun : Nat := 0
  base : Nat := 0
  len : Nat := 0
  waiters : List Waiter := []
  deriving DecidableEq, Repr

/-- A window-table entry (15 R380). -/
structure WinEnt where
  gen : Nat := 1
  len : Nat := 0
  pkg : Nat := 0
  pstat : Nat := 0
  valid : Bool := false
  exported : Bool := false
  pidx : Nat := 0
  pgen : Nat := 0
  oid : Nat := 0
  base : Nat := 0
  deriving DecidableEq, Repr

/-- What an outstanding UALink request does (15 R386): an access of a strand's window, a packet of a copy read or written, a
message. -/
inductive UaOp where
  | access (key win : Nat)
  | copyRead (cmd p : Nat)
  | copyWrite (cmd p : Nat)
  | message (id : Nat)
  deriving DecidableEq, Repr

/-- An outstanding UALink request: id, station number (01 R18), what it asks of the peer (entry index and generation, offset, length,
bytes written), the cycle of the last transmission, retransmissions made, and the cycle of a BUSY answer. -/
structure UaReq where
  id : Nat
  st : Nat
  op : UaOp
  pidx : Nat := 0
  pgen : Nat := 0
  off : Nat := 0
  len : Nat := 0
  data : Option (List Byte) := none
  sentAt : Nat
  tries : Nat := 0
  busy : Option Nat := none
  deriving DecidableEq, Repr

/-- A duplicate-cache entry (15 R387): source package, station and request id, the stored answer, the cycle of entry. -/
structure DupEnt where
  pkg : Nat
  st : Nat
  id : Nat
  code : Nat
  at_ : Nat
  data : List Byte := []
  deriving DecidableEq, Repr

/-- A black-box record (13 R350). -/
structure BbRec where
  tick : Nat
  code : Nat
  slot : Nat
  gta : Nat
  cls : Nat
  runid : Nat
  cause : Nat
  info : Nat
  deriving DecidableEq, Repr

/-- What moves next, chosen outside the machine (log 5). -/
inductive Turn where
  /-- The core of tile g issues an instruction. -/
  | issue (g : Nat)
  /-- An event of the opcode table happens. -/
  | event (e : Instr)
  /-- An atomic in window w of strand k, which earlier synchronising operations kept back, goes to its home (06 R154). -/
  | send (k w : Nat)
  /-- A started move command that waited for its strand's earlier accesses goes on (10 R252). -/
  | drained (id : Nat)
  /-- A peer answers UALink request `id` (15 R386): code 0 done, 1 BUSY, 2 refused for lack of space, 16 and above a bounce, any
  other the cause of a refusal plus 64; the bytes read. -/
  | answer (id code : Nat) (data : List Byte)
  /-- A message of another package reaches this one (15 R388). -/
  | arrive (m : Msg) (st req : Nat)
  /-- Another package signals that the head of the mailbox to which message `id` is held has advanced (10 R261). -/
  | headMoved (id : Nat)
  /-- A peer has revoked the window that the import entry with object id `o` names, by the peer's generation (15 R384). -/
  | revoked (o gen : Nat)
  /-- The host writes bytes into the host mailbox window of world `w` (15 R373). -/
  | hostWrite (w off : Nat) (data : List Byte)
  /-- One cycle passes, in which every core that can issue has issued (03 R52). -/
  | clock
  /-- A notice of the Separator reaches tile `g` (13 R342). -/
  | notice (g : Nat)
  /-- The Separator's firmware extends measurement register `i`, 5 to 7, with a digest of 64 bytes (14 R367). -/
  | extend (i digest : Nat)
  /-- The board controller writes bytes into a certificate slot (14 R368). -/
  | certWrite (slot off : Nat) (data : List Byte)
  /-- The Separator's own core executes an instruction of its firmware (14 R370). -/
  | sep (i : Instr)
  deriving DecidableEq, Repr

/-- A barrier (12 R316): completed phases, and member count and arrivals of phases k to k + 3. -/
structure Bar where
  k : Nat := 0
  ph : List (Nat × Nat) := []
  deriving DecidableEq, Repr

/-- State of a run-table entry (11 R280); held: accepted and waiting for its tiles. -/
inductive RunSt where
  | free | held | running | complete
  deriving DecidableEq, Repr

/-- A run-table entry (11 R280 to R283). `body`: the request, while it is held; `order`: order of acceptance; `begun`: its tiles are
taken, and its start waits for granules of its code or image (05 R131) or for stores to its objects (06 R149). -/
structure Run where
  st : RunSt := .free
  id : Nat := 0
  world : Nat := 0
  cls : Nat := 0
  order : Nat := 0
  tlo : Nat := 0
  thi : Nat := 0
  hnote : Nat := 0
  prun : Nat := 0
  pslot : Nat := 0xFFF
  begun : Bool := false
  lossy : Bool := false
  damaged : Option Nat := none
  /-- The HBM reservation (19 R421): object id of the arena object, first byte and length. -/
  resv : Option (Nat × Nat × Nat) := none
  nab : Nat := 0
  body : List Byte := []
  /-- Tiles that the run's completion notice has not reached yet (11 R297). -/
  notify : List Nat := []
  deriving DecidableEq, Repr

/-- Interface states of a world (14 R362). -/
inductive TdSt where
  | unlocked | locked | run | quiesced | error
  deriving DecidableEq, Repr

/-- An aperture-map entry (15 R385). -/
structure Aper where
  valid : Bool := false
  off : Nat := 0
  len : Nat := 0
  oid : Nat := 0
  base : Nat := 0
  write : Bool := false
  read : Bool := false
  deriving DecidableEq, Repr

/-- A certificate write, which may be held as BUSY (14 R368): slot, offset, bytes. -/
structure CertW where
  slot : Nat
  off : Nat
  bytes : List Byte
  deriving DecidableEq, Repr

/-- One world (14 R361 to R365; 15 R373): interface state, a QUIESCE without its response, the completion reports not yet retired
(run-table indices), granted host ranges (die, first granule of its port 69, host granule, count), the aperture map and its refusal
counter, a certificate write held as BUSY. -/
structure World where
  td : TdSt := .unlocked
  quiesce : Bool := false
  reports : List Nat := []
  grants : List (Nat × Nat × Nat × Nat) := []
  aper : SMap Aper := []
  aperRefused : Nat := 0
  certw : Option CertW := none
  deriving DecidableEq, Repr

/-- An SPDM connection (14 R369): 0 none, 1 after VERSION, 2 after CAPABILITIES, 3 after ALGORITHMS; the slot of a
GET_CERTIFICATE sequence in progress; and the messages that its transcripts begin with: of VERSION to ALGORITHMS, of digests and
certificates since, and of measurements since the last signature. -/
structure Conn where
  phase : Nat := 0
  cert : Option Nat := none
  vca : List Byte := []
  certs : List Byte := []
  meas : List Byte := []
  deriving DecidableEq, Repr

/-- The package. -/
structure State where
  /-- Turns still to be taken, first first; empty: the default order (log 5). -/
  agenda : List Turn := []
  /-- Key of the strand that executes. -/
  cur : Nat := 0
  /-- Counter of free values (log 11). -/
  free : Nat := 0
  cycle : Nat := 0
  slots : SMap Slot := []
  tiles : SMap Tile := []
  /-- Holding tables (04 R91), key g × 4,096 + index. -/
  hold : SMap Cap := []
  /-- Claims on holding entries, as `hold`: 1 codelet (11 R290), 2 grant (R298), 3 subscription (10 R276). -/
  claims : SMap Nat := []
  mem : List Host.Cell := []
  /-- Full/empty bits by word address; the default is full (05 R123, log 2). -/
  fe : SMap Bool := []
  entries : SMap Entry := []
  l1 : SMap (List L1Line) := []
  /-- Black box of each die, oldest record first (13 R350). -/
  bbox : SMap (List BbRec) := []
  /-- Row assignment (14 R352), package number (15 R379). -/
  wrow : Nat := 0
  pkgno : Nat := 0
  keys : SMap Key := []
  /-- Key tag of each 256-byte sector of HBM and of the host tier (14 R355), by flat address ÷ 256. -/
  ktags : SMap Nat := []
  /-- Version of each sector of a class-2 object (14 R354), by flat address ÷ 256. -/
  vers : SMap Nat := []
  /-- Dirty sectors that the L2 holds (05 R116), by flat address ÷ 256: key tag + 1, 0 for none; bytes under `spL2`. -/
  l2 : SMap Nat := []
  /-- Words that carry the poison syndrome (13 R343), by flat address ÷ 8: 1, or 2 for an integrity failure (R345). -/
  badw : SMap Nat := []
  /-- Marked bytes, by flat address: length × 2, + 1 for a live descriptor (11 R285), + 0 for bytes that hold capabilities
  (10 R259, 12 R328); and the capabilities in them, by flat address. -/
  marks : SMap Nat := []
  mcaps : SMap Cap := []
  /-- Holding entries that hold an uncorrectable error (05 R137), as `hold`. -/
  badh : SMap Nat := []
  /-- Storage units marked beside those of objects, by flat address: length (04 R85: launch areas, extent maps). -/
  umark : SMap Nat := []
  /-- Storage that retirement has taken out of use for good, by flat address: length (13 R349). -/
  dead : SMap Nat := []
  /-- Window tables of the stations by object id (15 R380); outstanding UALink requests and the running counter of each station
  (R386); the duplicate caches by station (R387). -/
  wtab : SMap WinEnt := []
  uareqs : List UaReq := []
  uaNext : SMap Nat := []
  dups : SMap (List DupEnt) := []
  /-- Stations that lead to each package number, by world × 256 + package (15 R379). -/
  routes : SMap (List Nat) := []
  /-- Answers that have left the package, the newest by its channel (log 25): code and bytes. Channels: 0 to 2 the SPDM transports,
  16 + w the TDISP requests of world w, 32 + w its host mailbox, 48 the board controller, 49 the debugger, 50 the host tier, 64 + st
  the station st, 256 + id the message id. -/
  answers : SMap (Nat × List Byte) := []
  /-- Tag tables by die, entries in the order in which they were last acted on (11 R293, R294). -/
  tags : SMap (List TagEnt) := []
  /-- Port wait lists (05 R125): key and window of each waiter in order of joining. -/
  waits : SMap (List (Nat × Nat)) := []
  /-- Stores of commit buffers that met a granule that is not resident when they were written out (05 R133, R134), in order: strand
  key, capability, offset, bytes. -/
  late : List (Nat × Cap × Nat × List Byte) := []
  /-- Hold queue of a stopped tile's port (16 R390). -/
  stopq : SMap (List Held) := []
  /-- Accepted engine commands that have not completed, in order of acceptance. -/
  cmds : List Cmd := []
  /-- Messages that have started and are not complete, in the order of their starts (10 R260). -/
  msgs : List Msg := []
  /-- Churn subscriptions by id (10 R275). -/
  subs : SMap (Option Sub) := []
  /-- Tag requests that have not reached their homes. -/
  treqs : List TagReq := []
  /-- Next id of a command, transfer or request. -/
  nextId : Nat := 1
  /-- Refusal counter of each die-to-die port, by die × 4 + edge (14 R353). -/
  refused : SMap Nat := []
  /-- Migrated contexts that a full entry queue has refused (11 R310). -/
  migs : List Ctx := []
  /-- What a save record does not hold of the strand saved in it, by the record's flat address (log 28). -/
  saved : SMap Slot := []
  /-- Barriers by level × 2^32 + unit × 2^13 + index (12 R315); a level-4 unit is a run-table index. -/
  bars : SMap Bar := []
  /-- The run table (11 R280), and the next run id. -/
  runs : SMap Run := []
  runNext : Nat := 1
  worlds : SMap World := []
  /-- Keys whose key.end goes on without its strand (14 R360). -/
  keyEnds : List Nat := []
  /-- Zero-fills after a key.end that have not finished: storage, key, and the objects with their generations (14 R360). -/
  zfill : List (Nat × Nat × List (Nat × Nat)) := []
  /-- SPDM connections by transport (0 and 1 the CXL ports, 2 MCTP), certificate slots 1 to 7, measurement registers (14 R367). -/
  conns : SMap Conn := []
  certs : SMap (List Byte) := []
  meas : SMap (List Byte) := []
  /-- Certificate writes of the board controller that are held as BUSY, in order (14 R368). -/
  boardCert : List CertW := []
  /-- The ROM refused the first image (14 R366): its failure code, 0 for none; the entropy source has failed its health test. -/
  romFail : Nat := 0
  entropyBad : Bool := false
  /-- The Separator has brought the package up (17 R407): it takes the board controller's commands. -/
  up : Bool := false
  /-- Dies that bring-up holds in reset because their defect map is not consistent (17 R407). -/
  deadDie : SMap Bool := []
  /-- The operator world plus 1, 0 for none (15 R378). -/
  opWorld : Nat := 0
  /-- Margin registers (17 R403), rail offsets in effect, and those written with the cycle of the
  write (R404); each die's outstanding self-test (R406): word and seed. -/
  margins : SMap Nat := []
  rails : SMap Int := []
  railsNew : SMap (Option (Int × Nat)) := []
  tests : SMap (Option (Nat × Nat)) := []
  /-- Dies whose error window has ended with this tick (13 R348). -/
  winDue : List Nat := []
  /-- Counts of this error window by resource (13 R348): corrected or replayed, uncorrected; spares used by structure (R349);
  the repair record; disabled lanes and slices. -/
  errCnt : SMap (Nat × Nat) := []
  spares : SMap Nat := []
  repairs : List Nat := []
  /-- L2 slices that are disabled, as a mask by die, and those that the next reset of their world disables (01 R22, 13 R349). -/
  l2off : SMap Nat := []
  l2new : SMap Nat := []
  /-- Dies whose issue is throttled (01 R24). -/
  throttle : SMap Bool := []
  /-- Width and speed of each CXL link (15 R372), by width × 256 + speed; 0 for the trained ×16 at 64 GT/s. -/
  cxl : SMap Nat := []
  /-- errwin and errthr of each die (13 R347). -/
  errwin : SMap Nat := []
  errthr : SMap Nat := []
  deriving DecidableEq, Repr

/-- The machine after cold reset (14 R366, R367): every tile without a run, every table at its reset contents, and the
Separator's own core in M mode, which it never leaves (03 R62). Values that the spec does not give are those of logs 1 to 3. -/
def State.reset : State := { slots := [(65536, { occ := .persistent, mode := .m })] }

end Sys2Proof.Machine
end

