-- ==== Sys2Proof/Machine/Ops.lean ====
section
/-! DEFINITION. The named operations over tables, memory and registers; retiring an instruction; opening a window; taking a
trap and returning from one. Every meaning is written over these. -/
namespace Sys2Proof.Machine

/-- The outcome type of the machine. -/
abbrev Out := Host.Outcome State Fault Refusal

/-! ### Sparse tables -/

/-- The entry of key `k`, or the default. -/
def sget {α : Type} (d : α) : SMap α → Nat → α
  | [], _ => d
  | (k', v) :: r, k => if k' = k then v else sget d r k

/-- The pair (k, v) in its place, in the place of an entry of `k`. -/
def sins {α : Type} : SMap α → Nat → α → SMap α
  | [], k, v => [(k, v)]
  | (k', v') :: r, k, v =>
    if k < k' then (k, v) :: (k', v') :: r else if k = k' then (k, v) :: r else (k', v') :: sins r k v

/-- The table with the entry of key `k` set to `v`; an entry equal to the default is not listed. -/
def sput {α : Type} [DecidableEq α] (d : α) (m : SMap α) (k : Nat) (v : α) : SMap α :=
  if v = d then m.filter (fun p => p.1 != k) else sins m k v

/-- The keys rise strictly from above `lo` and no entry is the default. -/
def swfFrom {α : Type} [DecidableEq α] (d : α) : Nat → SMap α → Bool
  | _, [] => true
  | lo, (k, v) :: r => decide (lo ≤ k) && decide (v ≠ d) && swfFrom d (k + 1) r

/-- The canonical form of a table. -/
def swf {α : Type} [DecidableEq α] (d : α) (m : SMap α) : Bool := swfFrom d 0 m

/-! ### Memory: one flat space; each storage has its own range of 2^48 addresses -/

/-- The canonical form of memory: addresses rising, no byte equal to what an unlisted address reads as, which is 0 (log 1). -/
def Memory.wf (m : List Host.Cell) : Bool := swf (0 : Byte) m

/-- Flat address of byte `a` of storage `sp`: a port's storage is die × 128 + port (04 R83). -/
def flat (sp a : Nat) : Nat := sp * 2 ^ 48 + a
/-- The instruction overlay of a tile (05 R131). -/
def spOverlay (g : Nat) : Nat := 8192 + g
/-- The weight slots of a tile (09 R221): slot k at byte k × 8,192. -/
def spWeight (g : Nat) : Nat := 12288 + g
/-- What the L2 holds of a port's storage (05 R116). -/
def spL2 (p : Nat) : Nat := 32768 + p

/-- One byte. -/
def mget (m : List Host.Cell) (a : Nat) : Byte := sget 0 m a
/-- One byte written. -/
def mset (m : List Host.Cell) (a : Nat) (b : Byte) : List Host.Cell := sput 0 m a b
/-- `n` bytes from `a` on. -/
def mbytes (m : List Host.Cell) (a : Nat) : Nat → List Byte
  | 0 => []
  | n + 1 => mget m a :: mbytes m (a + 1) n
/-- Bytes written from `a` on. -/
def mwrite (m : List Host.Cell) (a : Nat) : List Byte → List Host.Cell
  | [] => m
  | b :: bs => mwrite (mset m a b) (a + 1) bs
/-- The number held in `n` bytes from `a` on, least significant first. -/
def mnat (m : List Host.Cell) (a n : Nat) : Nat := ofBytes (mbytes m a n)
/-- `n` bytes from `a` on cleared to what unlisted bytes read as. -/
def mzero (m : List Host.Cell) (a n : Nat) : List Host.Cell := m.filter fun c => decide (c.1 < a) || decide (a + n ≤ c.1)
/-- `n` bytes from `src` on copied to `dst` (ranges that do not overlap). -/
def mcopy (m : List Host.Cell) (src dst n : Nat) : List Host.Cell :=
  let mid := (m.filter fun c => decide (src ≤ c.1) && decide (c.1 < src + n)).map fun c => (c.1 - src + dst, c.2)
  (m.filter fun c => decide (c.1 < dst)) ++ mid ++ (m.filter fun c => decide (dst + n ≤ c.1))

/-! ### Slots and tiles -/

/-- The slot with strand key `k`. -/
def State.slot (s : State) (k : Nat) : Slot := sget {} s.slots k
/-- The state with slot `k` replaced. -/
def State.putSlot (s : State) (k : Nat) (t : Slot) : State := { s with slots := sput {} s.slots k t }
/-- The slot of the executing strand. -/
def State.me (s : State) : Slot := s.slot s.cur
/-- The executing strand's slot changed by `f`. -/
def State.upd (s : State) (f : Slot → Slot) : State := s.putSlot s.cur (f s.me)
/-- Slot `k` changed by `f`. -/
def State.updSlot (s : State) (k : Nat) (f : Slot → Slot) : State := s.putSlot k (f (s.slot k))
/-- The tile with global address `g`. -/
def State.tile (s : State) (g : Nat) : Tile := sget {} s.tiles g
/-- The state with tile `g` replaced. -/
def State.putTile (s : State) (g : Nat) (t : Tile) : State := { s with tiles := sput {} s.tiles g t }
/-- Tile `g` changed by `f`. -/
def State.updTile (s : State) (g : Nat) (f : Tile → Tile) : State := s.putTile g (f (s.tile g))
/-- The tile of the executing strand. -/
def State.gta (s : State) : Nat := s.cur / 16
/-- The strand key of the Separator's own core (14 R370). -/
def sepKey : Nat := 65536
/-- Reference ticks since the package's reset: one tick is 15 cycles (00 R4). -/
def State.tick (s : State) : Nat := s.cycle / 15

/-- An answer that leaves the package (log 25). -/
def State.answer (s : State) (ch code : Nat) (bs : List Byte := []) : State := { s with answers := sput (0, []) s.answers ch (code, bs) }

/-! ### Registers (03 R65) -/

/-- x[n]; x0 reads 0. -/
def Slot.getX (t : Slot) (n : Nat) : Word := if n = 0 then 0 else sget 0 t.x n
/-- x[n] := w; a write to x0 is discarded. -/
def Slot.setX (t : Slot) (n : Nat) (w : Word) : Slot := if n = 0 then t else { t with x := sput 0 t.x n w }
/-- c15 names the S copy in S mode and in D mode entered from S (03 R63). -/
def Slot.c15isS (t : Slot) : Bool := t.mode == .s || (t.mode == .d && t.dFromS)
/-- c[n]; c0 reads null. -/
def Slot.getC (t : Slot) (n : Nat) : Cap :=
  if n = 0 then .null else if n = 15 && t.c15isS then t.c15s else sget .null t.c n
/-- c[n] := v; a write to c0 is discarded. -/
def Slot.setC (t : Slot) (n : Nat) (v : Cap) : Slot :=
  if n = 0 then t else if n = 15 && t.c15isS then { t with c15s := v } else { t with c := sput .null t.c n v }
/-- v[n]. -/
def Slot.getV (t : Slot) (n : Nat) : VReg := sget 0 t.v n
/-- v[n] := w, with good check codes. -/
def Slot.setV (t : Slot) (n : Nat) (w : VReg) : Slot := { t with v := sput 0 t.v n w, badv := setBits t.badv n 1 0 }
/-- m[n]; m0 reads all ones. -/
def Slot.getM (t : Slot) (n : Nat) : Mask := if n = 0 then BitVec.allOnes 128 else sget 0 t.m n
/-- m[n] := w; a write to m0 is discarded. -/
def Slot.setM (t : Slot) (n : Nat) (w : Mask) : Slot := if n = 0 then t else { t with m := sput 0 t.m n w }

/-- x[n] of the executing strand. -/
def State.x (s : State) (n : Nat) : Word := s.me.getX n
/-- x[n] of the executing strand as a number. -/
def State.xn (s : State) (n : Nat) : Nat := (s.x n).toNat
/-- c[n] of the executing strand. -/
def State.c (s : State) (n : Nat) : Cap := s.me.getC n

/-- Bit [10] of the partition word: 32 vector registers instead of 16 (05 R117). -/
def Tile.v32 (t : Tile) : Bool := tbit t.pword 10
/-- Persistent slots p of the run (05 R117). -/
def Tile.pers (t : Tile) : Nat := t.pword % 32
/-- Codelet slots k of the run (05 R117). -/
def Tile.cdl (t : Tile) : Nat := bits t.pword 5 5

/-! ### Retiring an instruction -/

/-- An instruction of the strand has issued: every window that counts it counts it, and waits for its results until the cycle
`wr` (03 R55). -/
def Win.note (wr : Nat) (w : Win) : Win :=
  if w.counting && 0 < w.left then { w with left := w.left - 1, issued := w.issued + 1, wAt := max w.wAt wr } else w

/-- rptc with a completed body instruction counted (03 R77), and the next pc when it is not `pc'`. -/
def rptStep (r pc' : Word) : Word × Word × Bool :=
  let n := r.toNat
  let pos := bits n 32 5 + 1
  if pos = bits n 40 5 + 1 then
    if bits n 0 32 = 0 then (BitVec.ofNat 64 (setBits (setBits n 32 5 pos) 47 1 0), pc', false)
    else (BitVec.ofNat 64 (setBits (setBits n 32 5 0) 0 32 (bits n 0 32 - 1)), BitVec.ofNat 64 (bits n 48 16), true)
  else (BitVec.ofNat 64 (setBits n 32 5 pos), pc', true)

/-- The pc after an instruction of `len` bytes, and the repeat's accounting (03 R52, R77). -/
def Slot.advance (t : Slot) (len : Nat) : Slot :=
  let pc' := t.pc + BitVec.ofNat 64 len
  if t.rptLive then
    let r := rptStep t.rptc pc'
    { t with rptc := r.1, pc := r.2.1, rptLive := r.2.2 }
  else { t with pc := pc' }

/-- The strand's next instruction issues no sooner than `L` cycles from now (03 R52); windows count this one (R55), whose results count as
written in the cycle before (log 47). -/
def Slot.issued (t : Slot) (L now : Nat) : Slot :=
  { t with wins := t.wins.map (Win.note (now + L - 1)), nextAt := now + L, lastIssue := now, hold := none, noTrig := false }

/-- The instruction at the pc, `len` bytes long, has completed; its strand issues again after `L` cycles. -/
def Slot.retire (t : Slot) (len L now : Nat) : Slot :=
  ({ t.advance len with instret := t.instret + 1 }).issued L now

/-- A transfer of control to `target`: the instruction has completed and ends an active repeat (03 R78). -/
def Slot.jump (t : Slot) (target : Word) (now : Nat) : Slot :=
  ({ t with pc := target, instret := t.instret + 1, rptc := if t.rptLive then 0 else t.rptc, rptLive := false }).issued 8 now

/-- A 32-bit instruction that completes by changing its strand's registers with `f`. -/
def State.finish (s : State) (f : Slot → Slot) (L : Nat := 8) : Out := .next (s.upd fun t => (f t).retire 4 L s.cycle)
/-- The same for an instruction of `len` bytes. -/
def State.finishN (s : State) (len L : Nat) (f : Slot → Slot) : Out := .next (s.upd fun t => (f t).retire len L s.cycle)
/-- x[d] := w, and the instruction completes. -/
def State.finishX (s : State) (d : Nat) (w : Word) (L : Nat := 8) : Out := s.finish (·.setX d w) L

/-- The instruction at the pc has not issued: it is held until `why` is over (03 R51). -/
def State.holdOn (s : State) (why : HoldWhy) : State := s.upd fun t => { t with hold := some ⟨why, none, 0⟩ }
/-- The instruction at the pc has issued and parks its strand (03 R51, R52); a bounded park counts from the next tick (12 R321). -/
def State.parkOn (s : State) (why : HoldWhy) (lim : Option Nat := none) : State :=
  s.upd fun t => { t with hold := some ⟨why, lim, s.tick⟩, nextAt := s.cycle + 8, lastIssue := s.cycle, noTrig := false }
/-- The park of the instruction at the pc ends: the instruction completes, 32 bits long, and the next issues after this cycle. -/
def Slot.unpark (t : Slot) (now : Nat) : Slot := { t.retire 4 1 now with nextAt := max t.nextAt (now + 1) }
/-- The pc is parked by an instruction that has issued. -/
def Slot.parkedAt (t : Slot) : Bool := t.hold.any fun h => h.why.parks
/-- An event that a strand waits for ends the counting of its windows (03 R55). -/
def Slot.endCounting (t : Slot) : Slot := { t with wins := t.wins.map fun w => { w with counting := false } }

/-! ### Self-tests (17 R402) -/

/-- The strand whose self-test of target `target` runs at tile `g`. -/
def State.strandTest (s : State) (g target : Nat) : Option Nat :=
  ((s.tile g).tests.find? fun t => t.1 == target && decide (s.cycle < t.2.2)).map (·.2.1)
/-- The board controller has a self-test of target `target` at tile `g` outstanding (17 R406). -/
def State.boardTest (s : State) (g target : Nat) : Bool := s.tests.any fun p => p.2.any fun x => bits x.1 24 12 == g && bits x.1 0 8 == target
/-- A self-test of target `target` runs at tile `g`: the strand that runs it, or 65,536 for the Separator. -/
def State.testing (s : State) (g target : Nat) : Option Nat :=
  (s.strandTest g target).or (if s.boardTest g target then some sepKey else none)
/-- The targets that test the unit of a logic target: the matrix array and the weight buffer are the matrix engine's. -/
def testUnit (target : Nat) : List Nat := if target = 4 || target = 6 then [4, 6] else if target = 5 then [5] else []
/-- The unit of a logic target is not idle at tile `g`: its matrix engine has a command, or had one in this cycle (09 R232); its vector unit
has an instruction in flight (08 R195) or its accumulate unit is held (08 R220); or a strand's self-test of it runs. -/
def State.unitBusy (s : State) (g target : Nat) : Bool :=
  let t := s.tile g
  (decide (4 ∈ testUnit target) && (s.cmds.any (fun c => c.g == g && c.mx) || decide (s.cycle < sget 0 t.mxFree 0)
      || decide (s.cycle < sget 0 t.mxFree 1)))
    || (decide (5 ∈ testUnit target) && (decide (s.cycle < t.vecFree) || decide (s.cycle < t.laccFree)))
    || (testUnit target).any fun n => (s.strandTest g n).isSome
/-- The matrix engine of tile `g` is under a self-test, and takes no command. -/
def State.mxTested (s : State) (g : Nat) : Bool := (s.testing g 4).isSome || (s.testing g 6).isSome

/-! ### Windows -/

/-- An operand names a vector register beyond the strand's file (02 R32). -/
def State.vIll (s : State) (rs : List Nat) : Bool := rs.any (fun r => decide (16 ≤ r)) && !(s.tile s.gta).v32

/-- Opens a window for the instruction at the pc: it has issued, with `la` more that may issue before the window closes, and
its results are there no sooner than cycle `at_`. A bounded wait counts from the tick after this one (12 R321). -/
def Slot.openWin (t : Slot) (la ibits now at_ tick : Nat) (lim : Option Nat) (st : WinSt) (prompt : Bool) (obj : Nat) : Slot :=
  let w : Win := { id := t.nextWid, addr := t.pc.toNat, ibits := ibits, left := la, wAt := at_, st := st, prompt := prompt, obj := obj,
                   lim := lim, post := tick }
  let t' := (t.advance 4).issued 8 now
  { t' with wins := t'.wins ++ [w], nextWid := t.nextWid + 1 }

/-- A wait limit: 0 is no bound (12 R322). -/
def limit (w : Word) : Option Nat := if w = 0 then none else some w.toNat

/-- The window of the executing strand opened in this step; `lim` bounds its wait; `prompt`: its latency is a rule's; `obj`: the object
that a load reads. -/
def State.openW (s : State) (la : Nat) (i : Instr) (st : WinSt) (lim : Option Nat := none) (extra : Nat := 7)
    (prompt : Bool := false) (obj : Nat := 0) : State :=
  s.upd fun t => t.openWin la ((encode i).getD 0) s.cycle (s.cycle + extra) s.tick lim st prompt obj

/-- A long-latency instruction that would open a fifth window waits for the oldest, whose counting ends (03 R55, R58). -/
def State.winFull (s : State) : Option State :=
  if s.me.wins.length < 4 then none
  else some (s.upd fun t =>
    match t.wins with
    | [] => t
    | w :: ws => { t with wins := { w with counting := false } :: ws, hold := some ⟨.window w.id, none, 0⟩ })

/-- Window `w` of strand `k` changed by `f`. -/
def State.updWin (s : State) (k w : Nat) (f : Win → Win) : State :=
  s.updSlot k fun t => { t with wins := t.wins.map fun x => if x.id = w then f x else x }
/-- The operation of window `w` of strand `k` ends in `st`. -/
def State.endWin (s : State) (k w : Nat) (st : WinSt) : State := s.updWin k w fun x => { x with st := st }

/-! ### The black box and tile events -/

/-- A record in the black box of a die: the newest of 4,096 stay (13 R350). -/
def State.bb (s : State) (die : Nat) (r : BbRec) : State :=
  let l := sget [] s.bbox die
  { s with bbox := sput [] s.bbox die ((if l.length < 4096 then l else l.drop 1) ++ [r]) }

/-- Sets a bit of tip in a slot (13 R342); a clearing write in the same cycle leaves it set (03 R72). -/
def Slot.setTip (t : Slot) (b : Nat) : Slot := { t with tip := t.tip ||| BitVec.ofNat 64 (2 ^ b), tipNow := t.tipNow ||| 2 ^ b }

/-- Applies `f` to the slots of tile `g` with numbers below `n`. -/
def State.forSlots (s : State) (g : Nat) (f : Nat → Slot → Slot) : Nat → State
  | 0 => s
  | n + 1 => (s.forSlots g f n).updSlot (g * 16 + n) (f n)

/-- A tile event: every persistent slot's set records it, and tip.ev is set where tie.ev is (13 R342). -/
def State.tileEvent (s : State) (g ev : Nat) : State :=
  s.forSlots g (fun _ t0 =>
    let t := { t0 with evset := t0.evset ||| ev }
    if t.occ = .persistent && tbit t.tie.toNat 3 then t.setTip 3 else t) (s.tile g).pers

/-- Counters of a tile after `n` more of event `e` (16 R399): those that select it. -/
def bumped (sel : SMap Nat) (e n : Nat) : Nat → SMap Word → SMap Word
  | 0, m => m
  | i + 1, m =>
    let m := bumped sel e n i m
    if sget 0 sel i = e then sput 0 m i (sget 0 m i + BitVec.ofNat 64 n) else m

/-- Counts `n` of event `e` in the tile's counters (16 R399). -/
def State.count (s : State) (g e : Nat) (n : Nat := 1) : State :=
  if (s.tile g).pcsel.isEmpty then s
  else s.updTile g fun t => { t with pcnt := bumped t.pcsel e n 8 t.pcnt }

/-! ### Traps -/

/-- Cause codes (13 R339). -/
def cILLEGAL : Nat := 1
def cCAP_NULL : Nat := 2
def cCAP_BOUNDS : Nat := 3
def cCAP_RIGHTS : Nat := 4
def cCAP_STALE : Nat := 5
def cCAP_POISON : Nat := 6
def cMISALIGNED : Nat := 7
def cHOLD_INDEX : Nat := 8
def cWAIT_LIMIT : Nat := 9
def cTAG_STALE : Nat := 10
def cSEG_ABSENT : Nat := 11
def cPC_RANGE : Nat := 12
def cENGINE : Nat := 13
def cMSG_TOO_LARGE : Nat := 14
def cKEY_ENDED : Nat := 15
def cWORLD : Nat := 16
def cINTEGRITY : Nat := 17
def cMCHECK : Nat := 18
def cWATCHDOG : Nat := 19
def cECALL : Nat := 20
def cBREAK : Nat := 21
def cNOT_RESIDENT : Nat := 22
def cPKEY : Nat := 23
def cMODE : Nat := 24

/-- The mode code of tstat and dcsr (03 R62). -/
def Mode.code : Mode → Nat
  | .u => 0 | .s => 1 | .m => 3 | .d => 1

/-- Resolves a segment address: the lowest overlay slot whose record names the segment and whose landing word has reached its
target (03 R79). -/
def Tile.resolve (t : Tile) (a : Nat) : Option Nat :=
  ((List.range 8).find? fun k => let o := sget {} t.ov k; o.valid && o.landed && o.seg == bits a 13 8).map
    fun k => k * 0x2000 + bits a 1 12 * 2

/-- tstat.held (13 R333). -/
def Slot.held (t : Slot) : Bool := tbit t.tstat.toNat 12

/-- A double trap (13 R337): the slot halts as if by str.stop, dbl is set, the cause goes to the black box, and the tile has an
event. -/
def State.doubleTrap (s : State) (k cause : Nat) : State :=
  let g := k / 16
  let s := s.updSlot k fun t =>
    { t with stopped := true, stopReq := false, hold := none, sync := none, dfs := [], tstat := t.tstat ||| 0x8000 }
  let s := s.bb (g / 64) ⟨s.tick, 8, k % 16, g, 0, (s.tile g).runid, cause, 0⟩
  s.tileEvent g (1 + 2 ^ (16 + k % 16))

/-- What a trap carries to its entry. -/
structure Trap where
  cause : Nat
  tval : Nat
  irq : Bool := false
  dfr : Bool := false
  daddr : Nat := 0
  multi : Bool := false
  wdr : Bool := false
  deriving DecidableEq, Repr

/-- tstat at trap entry (13 R333, R336 steps 4 and 5): dbl is kept. -/
def trapStat (t : Slot) (p : Trap) : Word :=
  BitVec.ofNat 64 (bits t.tstat.toNat 15 1 * 2 ^ 15 + p.daddr % 2 ^ 16 * 2 ^ 16 + b2n p.wdr * 2 ^ 14 + b2n p.dfr * 2 ^ 13
    + 2 ^ 12 + b2n p.multi * 2 ^ 11 + t.mode.code * 2 ^ 4 + bits t.tstat.toNat 0 1 * 2)

/-- Steps 4 and 5 of trap entry (13 R336); an active repeat is suspended (03 R78). -/
def Slot.trapped (t : Slot) (p : Trap) : Slot :=
  { t with trpc := t.pc, tcause := BitVec.ofNat 64 (p.cause + b2n p.irq * 2 ^ 63), tval := BitVec.ofNat 64 p.tval,
           tstat := trapStat t p, mode := .s, rptLive := false, skip := 0, skipS := t.skip :: t.skipS,
           hold := none, sync := none, dfs := [] }

/-- Taking a trap in the strand with key `k`, all of whose windows have closed (13 R336 steps 3 to 6). A tile strand enters S
mode at tvec; on the Separator's core, which never leaves M mode (03 R62), the trap state is written and the firmware goes on at
tvec as an address (log 22). -/
def State.enterTrap (s : State) (k : Nat) (p : Trap) : State :=
  let t := s.slot k
  if k = sepKey then s.putSlot k { t.trapped p with mode := .m, pc := t.tvec }
  else if t.held && !p.irq && p.cause != cWATCHDOG then s.doubleTrap k p.cause
  else match (s.tile (k / 16)).resolve t.tvec.toNat with
    | none => (s.putSlot k (t.trapped p)).doubleTrap k cSEG_ABSENT
    | some pc => s.putSlot k { t.trapped p with pc := BitVec.ofNat 64 pc }

/-- The instruction at the pc raises a precise fault (03 R59, R60; 13 R336). With no window open the trap is taken in this step
(log 9); otherwise it waits until they have closed. In D mode it ends the program buffer and is reported (03 R62). -/
def State.raise (s : State) (cause tval : Nat) : State :=
  let now := s.cycle
  let s := s.upd fun t => { t with hold := none, nextAt := now + 8, lastIssue := now, noTrig := false }
  if s.me.mode = .d then s.upd fun t => { t with dErr := some (cause, tval), pbPos := none }
  else if s.me.wins.isEmpty then s.enterTrap s.cur { cause := cause, tval := tval }
  else s.upd fun t => { t.endCounting with sync := some (cause, tval) }

/-- A precise fault as an outcome. -/
def State.trap (s : State) (cause tval : Nat) : Out := .next (s.raise cause tval)
/-- ILLEGAL with the bits of `i` (02 R26). -/
def State.illegal (s : State) (i : Instr) : Out := s.trap cILLEGAL ((encode i).getD 0)
/-- MODE with the bits of `i` (13 R339). -/
def State.modeFault (s : State) (i : Instr) : Out := s.trap cMODE ((encode i).getD 0)

/-- A return from a trap (03 R75 steps 2 to 4, 13 R336): pc, mode and interrupt enable restored, held cleared, and the repeat
of rptc resumed when it is active. -/
def Slot.trapReturn (t : Slot) : Slot :=
  let st := t.tstat.toNat
  { t with pc := t.trpc, mode := if bits st 4 2 = 1 then .s else .u,
           tstat := BitVec.ofNat 64 (setBits (setBits (setBits (setBits st 0 1 (bits st 1 1)) 1 1 1) 4 2 0) 12 1 0),
           rptLive := tbit t.rptc.toNat 47, skip := t.skipS.headD 0, skipS := t.skipS.drop 1, noTrig := true }

end Sys2Proof.Machine
end

