-- ==== Sys2Proof/Machine/Flags.lean ====
section
/-! DEFINITION. The sticky flags of fmode (07 R180) and its rounding mode (R175). A set of flags is a number with the bits that
the flags have in fmode. -/
namespace Sys2Proof.Machine

/-- The result differs from the exact value. -/
def fNX : Nat := 0x010
/-- The result is tiny and inexact. -/
def fUF : Nat := 0x020
/-- IEEE overflow. -/
def fOF : Nat := 0x040
/-- A finite non-zero value divided by zero. -/
def fDZ : Nat := 0x080
/-- Invalid operation. -/
def fNV : Nat := 0x100
/-- A result was saturated. -/
def fSAT : Nat := 0x200

/-- The flags `fl` ORed into fmode (R180). -/
def Slot.raiseFlags (t : Slot) (fl : Nat) : Slot := { t with fmode := t.fmode ||| BitVec.ofNat 64 fl }
/-- The same by hardware beside the strand's instructions, when a window closes or a matrix command completes: a clearing write in the same
cycle leaves them set (03 R72). -/
def Slot.raiseNow (t : Slot) (fl : Nat) : Slot := { t.raiseFlags fl with flagNow := t.flagNow ||| fl }
/-- The rounding mode fmode[2:0] (R175). -/
def Slot.rm (t : Slot) : Nat := t.fmode.toNat % 8

end Sys2Proof.Machine
end

