-- ==== Sys2Proof/Machine/Formats.lean ====
section
/-! DEFINITION. Number formats, exact values, rounding and the arithmetic on them (07 R167 to R183). A float or integer element is
read as an exact value; an operation is exact; `roundFmt` rounds once. -/
namespace Sys2Proof.Machine

/-- An exact value: NaN (signalling or not), an infinity, or (−1)^neg × m × 2^e; with `st` the magnitude lies strictly between
m × 2^e and (m + 1) × 2^e. -/
inductive Val where
  | nan (sig : Bool)
  | inf (neg : Bool)
  | fin (neg : Bool) (m : Nat) (e : Int) (st : Bool)
  deriving DecidableEq, Repr

/-- An exact integer. -/
def Val.ofInt (i : Int) : Val := .fin (i < 0) i.natAbs 0 false
/-- +0 and −0. -/
def Val.zero (neg : Bool) : Val := .fin neg 0 0 false
/-- The value is NaN. -/
def Val.isNan : Val → Bool
  | .nan _ => true
  | .inf _ => false
  | .fin .. => false
/-- The value is a signalling NaN. -/
def Val.isSig : Val → Bool
  | .nan g => g
  | .inf _ => false
  | .fin .. => false

/-! ### Formats -/

/-- A floating format (R170): exponent and fraction bits, bias, whether it has infinities, and its canonical NaN (R178). -/
structure FloatFmt where
  eb : Nat
  mb : Nat
  bias : Nat
  hasInf : Bool
  nan : Option Nat
  deriving DecidableEq, Repr

/-- A format by its code (R167): floating, integer with its range, ternary. -/
inductive Fmt where
  | flt (f : FloatFmt)
  | int (lo hi : Int) (w : Nat)
  | ter
  deriving DecidableEq, Repr

/-- The formats of R167 that hold one element; a codebook or sparse code stands for its base format. -/
def fmtOf : Nat → Fmt
  | 0 => .flt ⟨8, 23, 127, true, some 0x7FC00000⟩
  | 1 => .flt ⟨8, 10, 127, true, some 0x7FC00000⟩
  | 2 => .flt ⟨8, 7, 127, true, some 0x7FC0⟩
  | 3 => .flt ⟨5, 10, 15, true, some 0x7E00⟩
  | 4 => .flt ⟨4, 3, 7, false, some 0x7F⟩
  | 5 => .flt ⟨5, 2, 15, true, some 0x7E⟩
  | 6 => .flt ⟨3, 4, 3, false, none⟩
  | 7 => .flt ⟨3, 2, 3, false, none⟩
  | 8 => .flt ⟨2, 3, 1, false, none⟩
  | 9 => .flt ⟨2, 1, 1, false, none⟩
  | 10 => .int (-128) 127 8
  | 11 => .int 0 255 8
  | 12 => .int (-8) 7 4
  | 13 => .int 0 15 4
  | 14 => .int (-2) 1 2
  | 15 => .ter
  | 16 => .flt ⟨4, 3, 7, false, some 0x7F⟩
  | 17 => .flt ⟨4, 3, 7, false, some 0x7F⟩
  | 18 => .int (-128) 127 8
  | 19 => .flt ⟨2, 1, 1, false, none⟩
  | 20 => .flt ⟨11, 52, 1023, true, some 0x7FF8000000000000⟩
  | 21 => .int (-32768) 32767 16
  | _ => .int (-2147483648) 2147483647 32

/-- Storage bits of an element (R167): 8 for the 6-bit formats. -/
def fmtBits : Nat → Nat
  | 0 => 32 | 1 => 32 | 2 => 16 | 3 => 16 | 4 => 8 | 5 => 8 | 6 => 8 | 7 => 8 | 8 => 8 | 9 => 4 | 10 => 8 | 11 => 8
  | 12 => 4 | 13 => 4 | 14 => 2 | 15 => 2 | 16 => 4 | 17 => 8 | 18 => 8 | 19 => 4 | 20 => 64 | 21 => 16 | _ => 32

/-! ### Reading an element -/

/-- The exact value of a float pattern of width 1 + eb + mb (R170, R171). `full`: the format has infinities and NaNs at the
highest exponent; otherwise only the all-ones code of a format with a NaN is NaN. -/
def FloatFmt.read (f : FloatFmt) (w : Nat) : Val :=
  let neg := tbit w (f.eb + f.mb)
  let e := bits w f.mb f.eb
  let m := bits w 0 f.mb
  if f.hasInf && e = 2 ^ f.eb - 1 then
    if m = 0 then .inf neg else .nan (f.mb > 2 && m < 2 ^ (f.mb - 1))
  else if !f.hasInf && f.nan.isSome && e = 2 ^ f.eb - 1 && m = 2 ^ f.mb - 1 then .nan false
  else if e = 0 then .fin neg m (1 - (f.bias : Int) - f.mb) false
  else .fin neg (2 ^ f.mb + m) ((e : Int) - f.bias - f.mb) false

/-- The exact value of an element of format code `c`, and the flags of reading it: TER2 0b10 reads as 0 and raises NV (R172). An
FP19 element lies in bits [31:13] of its container (R169). -/
def readFmt (c w : Nat) : Val × Nat :=
  match fmtOf c with
  | .flt f => (f.read (if c = 1 then bits w 13 19 else w), 0)
  | .int lo _ n => (Val.ofInt (if lo < 0 then signed n w else (w % 2 ^ n : Nat)), 0)
  | .ter =>
    match w % 4 with
    | 0 => (Val.zero false, 0)
    | 1 => (Val.ofInt 1, 0)
    | 3 => (Val.ofInt (-1), 0)
    | _ => (Val.zero false, fNV)

/-! ### Rounding (R175 to R180) -/

/-- Whether a magnitude with that remainder is rounded up: mode, sign, the lower candidate odd, comparison of the remainder with
one half (−1 below and not zero, 0 equal, 1 above; 2 exact). -/
def roundUp (rm : Nat) (neg odd : Bool) (cmp : Int) : Bool :=
  if cmp = 2 then false
  else match rm with
    | 1 => false
    | 2 => neg
    | 3 => !neg
    | 4 => 0 ≤ cmp
    | _ => cmp = 1 || (cmp = 0 && odd)

/-- m × 2^e (with `st`) rounded to a multiple of 2^q: the multiple, and whether the result differs from the exact value. -/
def roundAt (rm : Nat) (neg : Bool) (m : Nat) (e : Int) (st : Bool) (q : Int) : Nat × Bool :=
  if q ≤ e then
    let n := m * 2 ^ (e - q).toNat
    (if st && roundUp rm neg (n % 2 = 1) (-1) then n + 1 else n, st)
  else
    let sh := (q - e).toNat
    let n := m / 2 ^ sh
    let r := 2 * (m % 2 ^ sh)
    let cmp : Int := if r = 0 && !st then 2 else if r < 2 ^ sh then -1 else if r = 2 ^ sh && !st then 0 else 1
    (if roundUp rm neg (n % 2 = 1) cmp then n + 1 else n, cmp != 2)

/-- Largest finite magnitude of a float format: n × 2^q. -/
def FloatFmt.maxMag (f : FloatFmt) : Nat × Int :=
  if f.hasInf then (2 ^ (f.mb + 1) - 1, (2 ^ f.eb - 2 : Nat) - (f.bias : Int) - f.mb)
  else if f.nan.isSome then (2 ^ (f.mb + 1) - 2, (2 ^ f.eb - 1 : Nat) - (f.bias : Int) - f.mb)
  else (2 ^ (f.mb + 1) - 1, (2 ^ f.eb - 1 : Nat) - (f.bias : Int) - f.mb)

/-- The pattern of n × 2^q, a value of the format. -/
def FloatFmt.pack (f : FloatFmt) (neg : Bool) (n : Nat) (q : Int) : Nat :=
  let s := b2n neg * 2 ^ (f.eb + f.mb)
  let p : Nat × Int := if 2 ^ (f.mb + 1) ≤ n then (n / 2, q + 1) else (n, q)
  if p.1 < 2 ^ f.mb then s + p.1 else s + (p.2 + f.mb + f.bias).toNat * 2 ^ f.mb + (p.1 - 2 ^ f.mb)
/-- Pattern of an infinity. -/
def FloatFmt.infPat (f : FloatFmt) (neg : Bool) : Nat := b2n neg * 2 ^ (f.eb + f.mb) + (2 ^ f.eb - 1) * 2 ^ f.mb
/-- Pattern of the largest finite value. -/
def FloatFmt.maxPat (f : FloatFmt) (neg : Bool) : Nat := f.pack neg f.maxMag.1 f.maxMag.2

/-- n × 2^q exceeds the largest finite magnitude. -/
def FloatFmt.over (f : FloatFmt) (n : Nat) (q : Int) : Bool :=
  let m := f.maxMag
  if q ≤ m.2 then m.1 * 2 ^ (m.2 - q).toNat < n else m.1 < n * 2 ^ (q - m.2).toNat

/-- round_fmt to a float format (R176, R177): pattern and flags; `sat`: saturation is requested. -/
def FloatFmt.round (f : FloatFmt) (v : Val) (rm : Nat) (sat : Bool) : Nat × Nat :=
  match v with
  | .nan _ => (match f.nan with
    | some p => (p, 0)
    | none => (0, fNV))
  | .inf neg => if f.hasInf && !sat then (f.infPat neg, 0) else (f.maxPat neg, fSAT)
  | .fin neg m e st =>
    if m = 0 && !st then (f.pack neg 0 0, 0)
    else
      let top := e + (m.log2 : Int)
      let emin : Int := 1 - (f.bias : Int)
      let q := max (top - f.mb) (emin - f.mb)
      let r := roundAt rm neg m e st q
      if f.over r.1 q then
        if !f.hasInf || sat then (f.maxPat neg, fSAT + fNX)
        else if rm = 1 || (rm = 2 && !neg) || (rm = 3 && neg) then (f.maxPat neg, fOF + fNX)
        else (f.infPat neg, fOF + fNX)
      else
        let u := roundAt rm neg m e st (top - f.mb)
        let tiny := decide (top + (if 2 ^ (f.mb + 1) ≤ u.1 then 1 else 0) < emin)
        (f.pack neg r.1 q, if r.2 then fNX + (if tiny then fUF else 0) else 0)

/-- round_fmt to an integer range (R177 to R179): the integer and the flags. -/
def roundInt (lo hi : Int) (v : Val) (rm : Nat) : Int × Nat :=
  match v with
  | .nan _ => (0, fNV)
  | .inf neg => (if neg then lo else hi, fSAT)
  | .fin neg m e st =>
    let r := roundAt rm neg m e st 0
    let i : Int := if neg then -(r.1 : Int) else r.1
    if i < lo then (lo, fSAT + fNX) else if hi < i then (hi, fSAT + fNX) else (i, if r.2 then fNX else 0)

/-- round_fmt(v, c, rm) (R176): the stored pattern of format code `c` and the flags. -/
def roundFmt (c : Nat) (v : Val) (rm : Nat) (sat : Bool := false) : Nat × Nat :=
  match fmtOf c with
  | .flt f => if c = 1 then (match v with
      | .nan _ => (0x7FC00000, 0)
      | _ => let r := f.round v rm sat; (r.1 * 2 ^ 13, r.2)) else f.round v rm sat
  | .int lo hi w => let r := roundInt lo hi v rm; (wrap w r.1, r.2)
  | .ter => let r := roundInt (-1) 1 v rm; (wrap 2 r.1, r.2)

/-! ### Exact arithmetic -/

/-- A signed multiple of 2^e. -/
def Val.num (neg : Bool) (m : Nat) : Int := if neg then -(m : Int) else m

/-- NaN from NaN operands, NV when one is signalling (R178). -/
def nanOf (vs : List Val) : Option (Val × Nat) :=
  if vs.any Val.isNan then some (.nan false, if vs.any Val.isSig then fNV else 0) else none

/-- The sum of two finite exact values; an exact zero of operands of opposite sign is +0, or −0 under RDN (R176). -/
def addFin (rm : Nat) (n1 : Bool) (m1 : Nat) (e1 : Int) (n2 : Bool) (m2 : Nat) (e2 : Int) : Val :=
  let e := min e1 e2
  let t := Val.num n1 (m1 * 2 ^ (e1 - e).toNat) + Val.num n2 (m2 * 2 ^ (e2 - e).toNat)
  if t = 0 then .fin (if n1 = n2 then n1 else rm = 2) 0 0 false
  else .fin (t < 0) t.natAbs e false

/-- a + b. -/
def vadd (rm : Nat) (a b : Val) : Val × Nat :=
  match nanOf [a, b] with
  | some r => r
  | none => match a, b with
    | .inf x, .inf y => if x = y then (.inf x, 0) else (.nan false, fNV)
    | .inf x, _ => (.inf x, 0)
    | _, .inf y => (.inf y, 0)
    | .fin n1 m1 e1 _, .fin n2 m2 e2 _ => (addFin rm n1 m1 e1 n2 m2 e2, 0)
    | _, _ => (.nan false, 0)

/-- −a. -/
def Val.neg : Val → Val
  | .nan g => .nan g
  | .inf n => .inf !n
  | .fin n m e st => .fin (!n) m e st

/-- a × b. -/
def vmul (a b : Val) : Val × Nat :=
  match nanOf [a, b] with
  | some r => r
  | none => match a, b with
    | .inf x, .inf y => (.inf (x != y), 0)
    | .inf x, .fin y m _ _ => if m = 0 then (.nan false, fNV) else (.inf (x != y), 0)
    | .fin x m _ _, .inf y => if m = 0 then (.nan false, fNV) else (.inf (x != y), 0)
    | .fin n1 m1 e1 _, .fin n2 m2 e2 _ => (.fin (n1 != n2) (m1 * m2) (e1 + e2) false, 0)
    | _, _ => (.nan false, 0)

/-- a × b + c with one rounding to come; 0 × ∞ raises NV even when c is a quiet NaN (08 R199). -/
def vfma (rm : Nat) (a b c : Val) : Val × Nat :=
  let p := vmul a b
  let r := vadd rm p.1 c
  (r.1, p.2 ||| r.2)

/-- a ÷ b to 120 bits and a sticky bit (R183). -/
def vdiv (a b : Val) : Val × Nat :=
  match nanOf [a, b] with
  | some r => r
  | none => match a, b with
    | .inf _, .inf _ => (.nan false, fNV)
    | .inf x, .fin y _ _ _ => (.inf (x != y), 0)
    | .fin x _ _ _, .inf y => (.fin (x != y) 0 0 false, 0)
    | .fin n1 m1 e1 _, .fin n2 m2 e2 _ =>
      if m2 = 0 then (if m1 = 0 then (.nan false, fNV) else (.inf (n1 != n2), fDZ))
      else
        let k := 120 + m2.log2
        (.fin (n1 != n2) (m1 * 2 ^ k / m2) (e1 - e2 - k) (m1 * 2 ^ k % m2 != 0), 0)
    | _, _ => (.nan false, 0)

/-- The largest r below 2^(i+1) more than `r` with r² ≤ n, bit by bit. -/
def isqrtFrom (n : Nat) : Nat → Nat → Nat
  | 0, r => if (r + 1) * (r + 1) ≤ n then r + 1 else r
  | i + 1, r => isqrtFrom n i (if (r + 2 ^ (i + 1)) * (r + 2 ^ (i + 1)) ≤ n then r + 2 ^ (i + 1) else r)
/-- Integer square root. -/
def isqrt (n : Nat) : Nat := isqrtFrom n (n.log2 / 2 + 1) 0

/-- √a (08 R201). -/
def vsqrt (a : Val) : Val × Nat :=
  match a with
  | .nan g => (.nan false, if g then fNV else 0)
  | .inf n => if n then (.nan false, fNV) else (.inf false, 0)
  | .fin n m e _ =>
    if m = 0 then (.fin n 0 0 false, 0)
    else if n then (.nan false, fNV)
    else
      let k := 140 + (e % 2).toNat
      let x := m * 2 ^ k
      let r := isqrt x
      (.fin false r ((e - k) / 2) (r * r != x), 0)

/-- Comparison of two values that are not NaN; −0 equals +0. -/
def Val.cmp (a b : Val) : Ordering :=
  match a, b with
  | .inf x, .inf y => if x = y then .eq else if x then .lt else .gt
  | .inf x, _ => if x then .lt else .gt
  | _, .inf y => if y then .gt else .lt
  | .fin n1 m1 e1 _, .fin n2 m2 e2 _ =>
    let e := min e1 e2
    compare (Val.num n1 (m1 * 2 ^ (e1 - e).toNat)) (Val.num n2 (m2 * 2 ^ (e2 - e).toNat))
  | _, _ => .eq

/-- The sign of a value. -/
def Val.isNeg : Val → Bool
  | .nan _ => false
  | .inf n => n
  | .fin n _ _ _ => n

/-! ### vfexp2 and vflog2 (08 R201): integer bounds of an irrational result, refined until both round alike (log 70) -/

/-- Σ 1 ÷ (k 2^k) for k from 1 to n, scaled by 2^p: ln 2 from below. -/
def ln2Fix (p : Nat) : Nat → Nat
  | 0 => 0
  | n + 1 => ln2Fix p n + 2 ^ p / ((n + 1) * 2 ^ (n + 1))
/-- Terms of e^y: y scaled by 2^p, the last term, its index, terms left; the sum scaled by 2^p. -/
def expSum (p y : Nat) : Nat → Nat → Nat → Nat
  | _, _, 0 => 0
  | t, k, n + 1 => t + expSum p y (t * y / 2 ^ p / k) (k + 1) n
/-- Bounds of 2^f, f in [0, 1) given as its first p bits, scaled by 2^p. -/
def exp2Bounds (p f : Nat) : Nat × Nat :=
  let y := f * ln2Fix p (p + 8) / 2 ^ p
  let r := expSum p y (2 ^ p) 1 (p / 2 + 20)
  (r, r + 8 * p)
/-- The bits of log₂ x, x in [1, 2) scaled by 2^p, one by one. -/
def log2Bits (p : Nat) : Nat → Nat → Nat → Nat
  | 0, _, r => r
  | n + 1, x, r =>
    let y := x * x / 2 ^ p
    if 2 ^ (p + 1) ≤ y then log2Bits p n (y / 2) (2 * r + 1) else log2Bits p n y (2 * r)

/-- The value of a signed integer scaled by 2^−p, not exact. -/
def between (t : Int) (p : Int) : Val := if 0 ≤ t then .fin false t.toNat (-p) true else .fin true (t.natAbs - 1) (-p) true

/-- Rounds a value that lies strictly between lo and hi (both scaled by 2^−p × 2^x): the result when both ends round alike. -/
def roundBetween (c : Nat) (lo hi : Int) (p : Nat) (x : Int) : Option (Nat × Nat) :=
  let a := roundFmt c (between lo (p - x)) 0
  let b := roundFmt c (between (hi - 1) (p - x)) 0
  if a = b then some a else none

/-- The first precision at which both bounds round alike. -/
def refine (c : Nat) (f : Nat → Int × Int × Int) : Nat → Nat → Nat × Nat
  | 0, p => let b := f p; roundFmt c (between b.1 (p - b.2.2)) 0
  | n + 1, p =>
    let b := f p
    match roundBetween c b.1 b.2.1 p b.2.2 with
    | some r => r
    | none => refine c f n (2 * p)

/-- 2^a rounded to nearest in format `c`, with flags. -/
def exp2Fmt (c : Nat) (a : Val) : Nat × Nat :=
  match a with
  | .nan g => let r := roundFmt c (.nan false) 0; (r.1, r.2 ||| if g then fNV else 0)
  | .inf n => roundFmt c (if n then Val.zero false else .inf false) 0
  | .fin n m e _ =>
    if m = 0 then roundFmt c (Val.ofInt 1) 0
    else if 14 ≤ e + (m.log2 : Int) then roundFmt c (.fin false 1 (if n then -20000 else 20000) false) 0
    else
      -- the integer part and the fraction, at 2^-k
      let k := (-e).toNat
      let t := Val.num n (m * 2 ^ e.toNat)
      let i := t / (2 ^ k : Nat)
      let f := (t % (2 ^ k : Nat)).toNat
      if f = 0 then roundFmt c (.fin false 1 i false) 0
      else refine c (fun p =>
        let b := exp2Bounds p (f * 2 ^ p / 2 ^ k)
        (b.1, b.2, i)) 6 192

/-- log₂ a rounded to nearest in format `c`, with flags. -/
def log2Fmt (c : Nat) (a : Val) : Nat × Nat :=
  match a with
  | .nan g => let r := roundFmt c (.nan false) 0; (r.1, r.2 ||| if g then fNV else 0)
  | .inf n => let r := roundFmt c (if n then .nan false else .inf false) 0; (r.1, r.2 ||| if n then fNV else 0)
  | .fin n m e _ =>
    if m = 0 then let r := roundFmt c (.inf true) 0; (r.1, r.2 ||| fDZ)
    else if n then let r := roundFmt c (.nan false) 0; (r.1, r.2 ||| fNV)
    else
      let x := e + (m.log2 : Int)
      if m = 2 ^ m.log2 then roundFmt c (Val.ofInt x) 0
      else refine c (fun p =>
        let r : Int := log2Bits p p (m * 2 ^ p / 2 ^ m.log2) 0 + x * (2 ^ p : Nat)
        (r - 8, r + 8, 0)) 6 192

end Sys2Proof.Machine
end

