-- ==== Sys2Proof/Machine/Operands.lean ====
section
/-! DEFINITION. Operand forms: the fields and rights of a capability (04 R80 to R83), the checks that the issuing tile makes at
issue (R86, 05 R124, 13 R430), and the offsets of the memory formats (02 R33, R34). -/
namespace Sys2Proof.Machine

/-- A check: the value, or the cause and tval of the fault. -/
abbrev Chk := Except (Nat × Nat)

/-! ### Capabilities -/

/-- Bits of the rights field (R81). -/
def rR : Nat := 7
def rW : Nat := 6
def rA : Nat := 5
def rX : Nat := 4
def rS : Nat := 3
def rQ : Nat := 2
def rL : Nat := 1
def rN : Nat := 0

/-- The capability holds the right with that bit. -/
def Cap.has (c : Cap) (r : Nat) : Bool := c.rights.getLsbD r
/-- An owner capability holds none of Q, L and N (R82). -/
def Cap.isOwner (c : Cap) : Bool := !c.has rQ && !c.has rL && !c.has rN
/-- Object id, base and length as numbers. -/
def Cap.o (c : Cap) : Nat := c.oid.toNat
def Cap.b (c : Cap) : Nat := c.base.toNat
def Cap.l (c : Cap) : Nat := c.len.toNat
def Cap.g (c : Cap) : Nat := c.gen.toNat
/-- First offset beyond the range. -/
def Cap.top (c : Cap) : Nat := c.b + c.l
/-- The 128 bits of a capability (R80). -/
def Cap.bits (c : Cap) : Nat := c.g * 2 ^ 116 + c.rights.toNat * 2 ^ 108 + c.o * 2 ^ 80 + c.l * 2 ^ 40 + c.b
/-- The capability with those 128 bits. -/
def Cap.ofBits (n : Nat) : Cap :=
  { gen := BitVec.ofNat 12 (n / 2 ^ 116), rights := BitVec.ofNat 8 (n / 2 ^ 108), oid := BitVec.ofNat 28 (n / 2 ^ 80),
    len := BitVec.ofNat 40 (n / 2 ^ 40), base := BitVec.ofNat 40 n }
/-- A capability from its fields. -/
def Cap.mk' (gen rights oid len base : Nat) : Cap :=
  { gen := BitVec.ofNat 12 gen, rights := BitVec.ofNat 8 rights, oid := BitVec.ofNat 28 oid,
    len := BitVec.ofNat 40 len, base := BitVec.ofNat 40 base }
/-- The capability without right S. -/
def Cap.clearS (c : Cap) : Cap := { c with rights := c.rights &&& 0xF7#8 }

/-- Die, port and index of an object id (R83). -/
def oidDie (o : Nat) : Nat := o / 2 ^ 22
def oidPort (o : Nat) : Nat := o / 2 ^ 15 % 128
def oidIdx (o : Nat) : Nat := o % 2 ^ 15
/-- The storage of an object's port: die × 128 + port. -/
def oidSp (o : Nat) : Nat := o / 2 ^ 15
/-- An object id. -/
def mkOid (die port idx : Nat) : Nat := die * 2 ^ 22 + port * 2 ^ 15 + idx
/-- The storage of a tile's own port. -/
def ownSp (g : Nat) : Nat := g / 64 * 128 + g % 64
/-- The object lies at the tile's own port. -/
def isOwn (g o : Nat) : Bool := oidSp o == ownSp g
/-- Tile or cluster SRAM: ports 0 to 67. -/
def isSram (o : Nat) : Bool := oidPort o < 68
/-- A remote window: ports 96 to 127. -/
def isWindow (o : Nat) : Bool := 96 ≤ oidPort o

/-! ### Checks at issue (R86) -/

/-- tval of a precise CAP_RIGHTS: the rights field and the register number (13 R339). -/
def rightsVal (c : Cap) (n : Nat) : Nat := c.rights.toNat * 256 + n
/-- CAP_NULL when register `n` holds null. -/
def notNull (c : Cap) (n : Nat) : Chk Unit := if c = .null then .error (cCAP_NULL, n) else .ok ()
/-- CAP_RIGHTS unless `ok`. -/
def rights (ok : Bool) (c : Cap) (n : Nat) : Chk Unit := if ok then .ok () else .error (cCAP_RIGHTS, rightsVal c n)
/-- The capability of register `n`, not null and with one of the rights `rs`: steps 1 and 2 of R86. -/
def capUse (c : Cap) (n : Nat) (rs : List Nat) : Chk Unit := do
  notNull c n
  rights (rs.any c.has) c n
/-- A 64-bit pattern of an offset. -/
def offVal (a : Int) : Nat := wrap 64 a
/-- Step 3 of R86 for [a, a + n): tval is the lowest byte outside the range, or `a` itself for an element of a vector access
(13 R430; log 94). -/
def bound (c : Cap) (a : Int) (n : Nat) (vec : Bool := false) : Chk Unit :=
  if a < c.b then .error (cCAP_BOUNDS, offVal a)
  else if a + n > c.top then .error (cCAP_BOUNDS, offVal (if vec then a else max a c.top))
  else .ok ()
/-- MCHECK when one of the vector registers that the instruction reads holds an uncorrectable error (05 R137, 08 R196). -/
def vGood (t : Slot) (rs : List Nat) : Chk Unit := if rs.any (tbit t.badv) then .error (cMCHECK, 1) else .ok ()
/-- The traps of a vector instruction (08 R196): ILLEGAL for a register beyond the file among `rs`, then MCHECK on those it reads. -/
def vecChk (i : Instr) (rs reads : List Nat) (s : State) (k : Out) : Out :=
  if s.vIll rs then s.illegal i
  else match vGood s.me reads with
    | .error f => s.trap f.1 f.2
    | .ok _ => k
/-- MISALIGNED unless `a` is a multiple of `u`. -/
def aligned (a u : Nat) : Chk Unit := if a % u = 0 then .ok () else .error (cMISALIGNED, a)
/-- Every element in bounds, in order (05 R141). -/
def boundAll (c : Cap) (n : Nat) : List Int → Chk Unit
  | [] => .ok ()
  | a :: as => do bound c a n true; boundAll c n as
/-- Every element aligned, in order. -/
def alignAll (u : Nat) : List Int → Chk Unit
  | [] => .ok ()
  | a :: as => do aligned (offVal a) u; alignAll u as

/-! ### Offsets -/

/-- c.base + sext(imm8) × size (02 R33). -/
def memOff (c : Cap) (imm size : Nat) : Int := c.b + signed 8 imm * size
/-- c.base + x (02 R34). -/
def xOff (c : Cap) (x : Nat) : Int := c.b + x
/-- The element offsets of vlds and vsts (05 R141): element size 2^e, signed stride. -/
def strided (c : Cap) (x st : Nat) : List Int :=
  (List.range (128 / 2 ^ bits st 62 2)).map fun (i : Nat) => (c.b : Int) + x + i * signed 48 st
/-- The 32 offsets of vldx and vstx (05 R142). -/
def indexed (c : Cap) (v : VReg) : List Int :=
  (List.range 32).map fun (i : Nat) => (c.b : Int) + (v.toNat / 2 ^ (32 * i) % 2 ^ 32 : Nat)

end Sys2Proof.Machine
end

