-- ==== Sys2Proof/Machine/Port.lean ====
section
/-! DEFINITION. Ports: the entries of objects (04 R84, R85), the checks of R87, where an object's bytes lie (05 R112, R133), the
L2 and the key tags (14 R355), the L1 (05 R114, R115), marked bytes, landing words (R129) and full/empty words (R123 to R128). -/
namespace Sys2Proof.Machine

/-! ### Entries -/

/-- The oid names an entry of its port's table (04 R83). The window tables of ports 96 to 99 are kept apart (15 R380). -/
def namesEntry (o : Nat) : Bool :=
  let p := oidPort o
  let i := oidIdx o
  if p < 64 then i < 1024 else if p < 68 then i < 8192 else p < 70

/-- Bytes of a port's storage (01 R13, R17). -/
def portSize (p : Nat) : Nat := if p < 64 then 2 ^ 21 else if p < 68 then 2 ^ 24 else if p = 68 then 2 ^ 35 else 2 ^ 40

/-- The arena object, entry 0 of every port (04 R85): valid from reset, gen 1, over all of the port's storage. -/
def arenaEntry (s : State) (o : Nat) : Entry :=
  { len := portSize (oidPort o), valid := true, resident := true, world := bits s.wrow (oidDie o / 8 * 4) 3 }

/-- The entry of an object id. -/
def State.entry (s : State) (o : Nat) : Entry :=
  if oidIdx o = 0 then { arenaEntry s o with poison := (sget {} s.entries o).poison, bad := (sget {} s.entries o).bad }
  else sget {} s.entries o
/-- The state with the entry of an object id replaced; the arena object never changes, but for an error in its entry (05 R137). -/
def State.putEntry (s : State) (o : Nat) (e : Entry) : State :=
  { s with entries := sput {} s.entries o (if oidIdx o = 0 then { poison := e.poison, bad := e.bad } else e) }
/-- The entry of an object id changed by `f`. -/
def State.updEntry (s : State) (o : Nat) (f : Entry → Entry) : State := s.putEntry o (f (s.entry o))

/-- A key id. -/
def State.key (s : State) (k : Nat) : Key := sget {} s.keys k
/-- The entry's key has been ended: it is Ending or Ended (14 R357). -/
def State.keyEnded (s : State) (k : Nat) : Bool := k != 0 && ((s.key k).st == .ending || (s.key k).st == .ended)

/-! ### Checks at the port (04 R87) -/

/-- A request from tile `g` crosses to a die of another world, or of an unassigned row (step 1; 14 R352, R353). -/
def State.foreign (s : State) (g o : Nat) : Bool :=
  let w (die : Nat) : Nat := bits s.wrow (die / 8 * 4) 4
  g / 64 != oidDie o && g < 4096 && (w (g / 64) != w (oidDie o) || w (oidDie o) < 8)

/-- The port of a failed tile (04 R111). -/
def State.fencedAt (s : State) (o : Nat) : Bool := decide (oidPort o < 64) && (s.tile (oidDie o * 64 + oidPort o)).fenced

/-- Steps 1 to 5 of R87; `anyKey`: an operation that step 3 admits when the key has been ended (14 R357). A failed tile's port
answers CAP_POISON (04 R111). -/
def State.check15 (s : State) (c : Cap) (g : Nat) (anyKey : Bool := false) : Option (Nat × Nat) :=
  let e := s.entry c.o
  if s.foreign g c.o then some (cWORLD, c.o)
  else if s.fencedAt c.o then some (cCAP_POISON, c.o)
  else if !namesEntry c.o || !e.valid then some (cCAP_STALE, c.o)
  else if e.bad then some (cMCHECK, 4)
  else if !anyKey && s.keyEnded e.keyid then some (cKEY_ENDED, c.o * 2 ^ 16 + e.keyid)
  else if c.g ≠ e.gen then some (cCAP_STALE, c.o)
  else if c.isOwner && g ≠ e.owner then some (cCAP_STALE, c.o)
  else none

/-- Steps 1 to 8 of R87 for an access with lkey `lkey`. -/
def State.check18 (s : State) (c : Cap) (g : Nat) (lkey : Word) (write : Bool) : Option (Nat × Nat) :=
  let e := s.entry c.o
  match s.check15 c g with
  | some f => some f
  | none =>
    if e.poison then some (cCAP_POISON, c.o)
    else if tbit lkey.toNat (2 * e.pkey) || (write && tbit lkey.toNat (2 * e.pkey + 1)) then
      some (cPKEY, e.pkey * 2 ^ 32 + c.o)
    else if write && c.isOwner && 0 < e.fracs then some (cCAP_RIGHTS, c.o)
    else none

/-- A die does not admit requests of die `d`: it belongs to another world, or to none (14 R352, R353). -/
def State.foreignDie (s : State) (d e : Nat) : Bool :=
  bits s.wrow (d / 8 * 4) 4 != bits s.wrow (e / 8 * 4) 4 || bits s.wrow (e / 8 * 4) 4 < 8
/-- The die-to-die port, as die × 4 + edge, that drops a request of die `d` to die `e`: the first port on the request's way whose die does
not admit it (14 R353). Routes are adaptive, so the way is a free value (log 103). -/
def State.refusalPort (s : State) (d e : Nat) : Nat :=
  ((Config.meshRoute s.free d e).find? fun p => decide (p < 256) && s.foreignDie d (p / 4)).getD (e * 4 + Config.meshEdge s.free % 4)
/-- Port `p` drops a request of tile `g` on object `o`: it counts and records it (14 R353). -/
def State.refuseAt (s : State) (p g o : Nat) : State :=
  { s with refused := sput 0 s.refused p ((sget 0 s.refused p + 1) % 2 ^ 32) }.bb (p / 4) ⟨s.tick, 13, 0xFF, g, 0, 0, cWORLD, o⟩
/-- What a failed check does at a die-to-die port: a request of another world is counted and recorded (14 R353). -/
def State.noteRefusal (s : State) (g o : Nat) (f : Nat × Nat) : State :=
  if f.1 ≠ cWORLD then s else State.refuseAt { s with free := s.free + 1 } (s.refusalPort (g / 64) (oidDie o)) g o

/-! ### Bytes of an object -/

/-- The storage address of byte `off` (04 R84): through the extent map in the die's HBM when ext = 1. -/
def State.addr (s : State) (o : Nat) (e : Entry) (off : Nat) : Nat :=
  if e.ext then
    mnat s.mem (flat (oidDie o * 128 + 68) (e.base + off / 65536 * 4)) 4 % 2 ^ 31 * 65536 + off % 65536
  else e.base + off
/-- The granule of byte `off` is resident (05 R133). -/
def State.granuleHere (s : State) (o : Nat) (e : Entry) (off : Nat) : Bool :=
  !e.ext || mnat s.mem (flat (oidDie o * 128 + 68) (e.base + off / 65536 * 4)) 4 < 2 ^ 31
/-- Every granule of [off, off + n) is resident. -/
def State.rangeHere (s : State) (o : Nat) (e : Entry) (off n : Nat) : Bool :=
  e.resident || n = 0 || (List.range ((off + n - 1) / 65536 - off / 65536 + 1)).all
    fun i => s.granuleHere o e (off / 65536 * 65536 + i * 65536)

/-- The granule numbers of an object with an extent map (04 R84). -/
def State.extents (s : State) (o : Nat) (e : Entry) : List Nat :=
  (List.range ((e.len + 65535) / 65536)).map fun i => mnat s.mem (flat (oidDie o * 128 + 68) (e.base + 4 * i)) 4

/-- The object whose storage holds byte `a` of port `sp`. -/
def State.objectAt (s : State) (sp a : Nat) : Option Nat :=
  (s.entries.find? fun p => oidSp p.1 == sp && p.2.valid &&
    (if p.2.ext then (s.extents p.1 p.2).contains (a / 65536) else decide (p.2.base ≤ a) && decide (a < p.2.base + p.2.len))).map (·.1)
/-- The key tag of an object's sectors (14 R355). -/
def State.tagOf (s : State) (e : Entry) : Nat := if e.cls = 0 then 0 else e.keyid * 2 ^ 16 + (s.key e.keyid).epoch

/-- A byte of HBM or of the host tier as its L2 or the encryption point gives it: a sector with another tag reads as zeros. -/
def State.secByte (s : State) (sp tag a : Nat) : Byte :=
  let k := flat sp a / 256
  let d := sget 0 s.l2 k
  if d ≠ 0 then (if d = tag + 1 then mget s.mem (flat (spL2 sp) a) else 0)
  else if sget 0xFFFFFFFF s.ktags k = tag then mget s.mem (flat sp a) else 0
/-- `n` bytes of sectors. -/
def State.secBytes (s : State) (sp tag a : Nat) : Nat → List Byte
  | 0 => []
  | n + 1 => s.secByte sp tag a :: s.secBytes sp tag (a + 1) n
/-- The sector of `a` filled into the L2 under `tag`, dirty; filled as zeros, it carries no poison syndrome. -/
def State.secFill (s : State) (sp tag a : Nat) : State :=
  let k := flat sp a / 256
  if sget 0 s.l2 k = tag + 1 then s
  else { s with badw := if sget 0 s.l2 k = 0 && sget 0xFFFFFFFF s.ktags k = tag then s.badw else s.badw.filter fun p => p.1 / 32 != k,
                 mem := mwrite (mzero s.mem (flat (spL2 sp) (a / 256 * 256)) 256) (flat (spL2 sp) (a / 256 * 256))
                  (s.secBytes sp tag (a / 256 * 256) 256),
                l2 := sput 0 s.l2 k (tag + 1) }
/-- Bytes written into sectors of the L2. -/
def State.secWrite (s : State) (sp tag a : Nat) : List Byte → State
  | [] => s
  | b :: bs =>
    let s := s.secFill sp tag a
    State.secWrite { s with mem := mset s.mem (flat (spL2 sp) a) b } sp tag (a + 1) bs
/-- The object of class 2, which has versions, that the sector belongs to (14 R354). -/
def State.versioned (s : State) (k : Nat) : Option Nat :=
  let sp := k * 256 / 2 ^ 48
  let a := k * 256 % 2 ^ 48
  (s.entries.find? fun p => p.2.valid && p.2.cls == 2 && oidSp p.1 == sp && (if p.2.ext then
      (List.range ((p.2.len + 65535) / 65536)).any fun i => s.addr p.1 p.2 (i * 65536) / 65536 == a / 65536
    else decide (p.2.base ≤ a) && decide (a < p.2.base + p.2.len))).map (·.1)
/-- The version of a sector that is written back. One that would pass 2^56 − 1 poisons the object, every word of the sector carries the
integrity failure, and the black box records it (14 R354, 13 R345; log 13). -/
def State.nextVersion (s : State) (k : Nat) : State :=
  match s.versioned k with
  | none => s
  | some o =>
    if 2 ^ 56 - 1 ≤ sget 0 s.vers k then
      ({ s with badw := (List.range 32).foldl (fun m i => sput 0 m (k * 32 + i) 2) s.badw }.putEntry o { s.entry o with poison := true }).bb
        (oidDie o) ⟨s.tick, 14, 0xFF, oidDie o * 64, 5, 0, 0, o⟩
    else { s with vers := sput 0 s.vers k (sget 0 s.vers k + 1) }
/-- A sector of bytes [off, off + n) of a class-2 object has no version left for its write-back: the write reports INTEGRITY (14 R354). -/
def State.versionEnd (s : State) (o : Nat) (e : Entry) (off n : Nat) : Bool :=
  !isSram o && e.cls == 2 && n != 0 && (List.range ((off + n - 1) / 256 - off / 256 + 1)).any fun i =>
    decide (2 ^ 56 - 1 ≤ sget 0 s.vers (flat (oidSp o) (s.addr o e ((off / 256 + i) * 256)) / 256))
/-- A dirty sector, by its key in `l2`, written back with its tag (14 R355). -/
def State.secBack (s : State) (k : Nat) : State :=
  let d := sget 0 s.l2 k
  if d = 0 then s
  else
    let a := k * 256
    let up := 32768 * 2 ^ 48
    let s := s.nextVersion k
    { s with mem := mzero (mwrite s.mem a (mbytes s.mem (a + up) 256)) (a + up) 256,
             ktags := sput 0xFFFFFFFF s.ktags k (d - 1), l2 := sput 0 s.l2 k 0 }
/-- A sector dropped from the L2 without write-back. -/
def State.secDrop (s : State) (k : Nat) : State :=
  { s with mem := mzero s.mem (k * 256 + 32768 * 2 ^ 48) 256, l2 := sput 0 s.l2 k 0 }

/-- `n` bytes of an object as its port holds them, byte by byte. -/
def State.objBytes (s : State) (o : Nat) (e : Entry) (off : Nat) : Nat → List Byte
  | 0 => []
  | n + 1 =>
    (if isSram o then mget s.mem (flat (oidSp o) (e.base + off)) else s.secByte (oidSp o) (s.tagOf e) (s.addr o e off))
      :: s.objBytes o e (off + 1) n

/-! ### Marked bytes (10 R259, 11 R285, 12 R328) -/

/-- Byte `a` lies in a marked range of kind `k` (0 capability bytes, 1 live descriptor). -/
def State.marked (s : State) (k a : Nat) : Bool :=
  s.marks.any fun m => m.2 % 2 == k && decide (m.1 ≤ a) && decide (a < m.1 + m.2 / 2)
/-- Some byte of [a, a + n) lies in a marked range of kind `k`. -/
def State.markedIn (s : State) (k a n : Nat) : Bool :=
  s.marks.any fun m => m.2 % 2 == k && decide (m.1 < a + n) && decide (a < m.1 + m.2 / 2)

/-- Bytes [a, a + n) hold capabilities or live descriptor bytes: no engine writes them (10 R259, 11 R285). -/
def State.noWrite (s : State) (a n : Nat) : Bool := s.markedIn 0 a n || s.markedIn 1 a n
/-- What an ordinary load or an engine reads: bytes that hold capabilities read as zeros. -/
def State.readObj (s : State) (o : Nat) (e : Entry) (off n : Nat) : List Byte :=
  let bs := s.objBytes o e off n
  if isSram o && s.markedIn 0 (flat (oidSp o) (e.base + off)) n then
    (List.range n).zipWith (fun i b => if s.marked 0 (flat (oidSp o) (e.base + off + i)) then 0 else b) bs
  else bs

/-- A write that reaches marked bytes is refused: 0 capability bytes, 1 live descriptor bytes. -/
def State.refusedWrite (s : State) (o : Nat) (e : Entry) (off n : Nat) : Option Nat :=
  if !isSram o || n = 0 then none
  else if s.markedIn 0 (flat (oidSp o) (e.base + off)) n then some 0
  else if s.markedIn 1 (flat (oidSp o) (e.base + off)) n then some 1
  else none

/-- The sector of storage address `a` holds bytes under the object's tag; under another it reads as zeros, with no fault (14 R355). -/
def State.tagHere (s : State) (o : Nat) (e : Entry) (a : Nat) : Bool :=
  let k := flat (oidSp o) a / 256
  let d := sget 0 s.l2 k
  isSram o || (if d ≠ 0 then d == s.tagOf e + 1 else sget 0xFFFFFFFF s.ktags k == s.tagOf e)
/-- The read meets a word with the poison syndrome (13 R345): 1 poison, 2 an integrity failure. -/
def State.badIn (s : State) (o : Nat) (e : Entry) (off n : Nat) : Nat :=
  if s.badw.isEmpty || n = 0 then 0
  else
    (List.range ((off + n - 1) / 8 - off / 8 + 1)).foldl
      (fun r i =>
        let a := s.addr o e ((off / 8 + i) * 8)
        if s.tagHere o e a then max r (sget 0 s.badw (flat (oidSp o) a / 8)) else r) 0

/-- Some word of the `n` bytes of SRAM at flat address `a` carries the poison syndrome (13 R345). -/
def State.badWords (s : State) (a n : Nat) : Bool :=
  !s.badw.isEmpty && n != 0 && (List.range ((a + n - 1) / 8 - a / 8 + 1)).any fun i => sget 0 s.badw (a / 8 + i) != 0
/-- The words that lie wholly in the `n` bytes written at flat address `a` no longer carry the poison syndrome. -/
def State.goodWords (s : State) (a n : Nat) : State :=
  if s.badw.isEmpty then s else { s with badw := s.badw.filter fun p => !(decide (a ≤ p.1 * 8) && decide (p.1 * 8 + 8 ≤ a + n)) }
/-- The object that holds a word with the poison syndrome is poisoned (13 R345). -/
def State.poisonObj (s : State) (o : Nat) : State := s.updEntry o fun e => { e with poison := true }
/-- The object whose storage holds the byte at flat address `a` (0, which no object but an arena has, where none does). -/
def State.objAt (s : State) (a : Nat) : Nat := (s.objectAt (a / 2 ^ 48) (a % 2 ^ 48)).getD 0
/-- That object poisoned. -/
def State.poisonWord (s : State) (a : Nat) : State := match s.objectAt (a / 2 ^ 48) (a % 2 ^ 48) with
  | some o => s.poisonObj o
  | none => s

/-! ### Landing words (05 R129, R130) -/

/-- Doublewords 0 and 1 of the pair at flat address `a`. -/
def State.land0 (s : State) (a : Nat) : Nat := mnat s.mem a 8
def State.land1 (s : State) (a : Nat) : Nat := mnat s.mem (a + 8) 8

/-- land.wait with operand `gen` returns: gen differs from its bits [7:0], or err is set. -/
def State.landOver (s : State) (a gen : Nat) : Bool := bits (s.land0 a) 56 8 != gen % 256 || tbit (s.land1 a) 58

/-- The object that a waiting request names is still the one that it was checked against: an object that has been freed wakes no
waiter (log 43). -/
def State.sameObj (s : State) (c : Cap) : Bool := (s.entry c.o).valid && (s.entry c.o).gen == c.g

/-- A landing wait whose condition holds is done, with word 0. -/
def Win.landed (s : State) (w : Win) : Win :=
  match w.st with
  | .wait (.land c off gen d) =>
    let a := flat (oidSp c.o) ((s.entry c.o).base + off)
    if s.sameObj c && s.landOver a gen then { w with st := .done { xs := [(d, BitVec.ofNat 64 (s.land0 a))], acquire := true } } else w
  | _ => w
/-- The mark of a save record's capability bytes, at 0x200 of the record (12 R328). -/
def saveMark : Nat := 0x280
/-- The mark does not belong to a save record whose valid bit, bit 24 of its first word, is 0. -/
def State.saveLive (s : State) (m : Nat × Nat) : Bool := m.2 != saveMark || (mget s.mem (m.1 - 0x1FD)).getLsbD 0
/-- A save record whose valid bit has been cleared holds no capability (12 R328). -/
def State.dropSaves (s : State) : State :=
  if s.marks.all s.saveLive then s
  else
    let gone := (s.marks.filter fun m => !s.saveLive m).map (·.1)
    { s with marks := s.marks.filter s.saveLive,
             mcaps := s.mcaps.filter (fun q => !gone.any fun a => decide (a ≤ q.1) && decide (q.1 < a + 0x140)),
             saved := s.saved.filter fun p => !gone.contains (p.1 + 0x200) }

/-- What watches the storage looks again after a change of memory: every landing wait (R130), and the marks of save records. -/
def State.settle (s0 : State) : State :=
  let s := s0.dropSaves
  { s with slots := s.slots.map fun p => (p.1, { p.2 with wins := p.2.wins.map (Win.landed s) }) }

/-- The rounds that complete after a count (R129), all at once: each takes the target from the count and advances gen, and ovf is set
when one of them ends with the count past the target. -/
def landRounds (w0 w1 : Nat) : Nat × Nat :=
  let count := bits w1 0 56
  let target := bits w0 0 56
  if tbit w1 56 && target ≠ 0 && target ≤ count then
    let w1 := setBits w1 0 56 (count % target)
    (setBits w0 56 8 (bits w0 56 8 + count / target), if target < count then setBits w1 57 1 1 else w1)
  else (w0, w1)

/-- A packet of `n` bytes counted at the pair at flat address `a` (R129); a failed transfer (none) sets err. A count that reaches marked
bytes is refused (11 R285), and one that meets a word with the poison syndrome poisons the object (13 R345). -/
def State.landCountNow (s : State) (a : Nat) (n : Option Nat) : State :=
  if s.noWrite a 16 then s
  else if s.badWords a 16 then s.poisonWord a
  else
  let w0 := s.land0 a
  let w1 := s.land1 a
  let p := match n with
    | none => (w0, setBits w1 58 1 1)
    | some n => landRounds w0 (setBits w1 0 56 (bits w1 0 56 + n))
  State.settle { s with mem := mwrite (mwrite s.mem a (toBytes 8 p.1)) (a + 8) (toBytes 8 p.2) }

/-- The tile whose pool holds flat address `a`, stopped by the debugger (16 R390). -/
def State.stoppedAt (s : State) (a : Nat) : Option Nat :=
  let sp := a / 2 ^ 48
  if sp < 8192 && sp % 128 < 64 && (s.tile (sp / 128 * 64 + sp % 128)).tstop then some (sp / 128 * 64 + sp % 128) else none
/-- A held operation joins the port's hold queue. -/
def State.holdOp (s : State) (g : Nat) (h : Held) : State := { s with stopq := sput [] s.stopq g (sget [] s.stopq g ++ [h]) }
/-- The command or message whose delivery a held operation counts or shows, 0 for none. -/
def Held.by : Held → Nat
  | .fe .. => 0
  | .land _ _ id => id
  | .ifetch _ id => id
  | .vis _ id => id
/-- A count of message `id` is held at its port. -/
def State.countHeld (s : State) (id : Nat) : Bool := s.stopq.any fun p => p.2.any fun h => match h with
  | .land _ _ i => i == id
  | _ => false
/-- An operation of delivery `id` found the hold queue of 256 entries full: it waits in the delivering port's pipeline and holds the
engine's work-list place (16 R390). -/
def State.queueFull (s : State) (id : Nat) : Bool := s.stopq.any fun p => (p.2.drop 256).any fun h => h.by == id
/-- A packet of command or message `id` counted at a landing word; the port of a stopped tile holds the count (16 R390). -/
def State.landCount (s : State) (a : Nat) (n : Option Nat) (id : Nat) : State :=
  match s.stoppedAt a with
  | some g => s.holdOp g (.land a n id)
  | none => s.landCountNow a n

/-! ### Writing an object -/

/-- Words wholly inside bytes [off, off + n) of an object no longer carry the poison syndrome. -/
def State.clearBad (s : State) (o : Nat) (e : Entry) (off n : Nat) : State :=
  if s.badw.isEmpty then s
  else
    let ws := (List.range ((off + n) / 8 - (off + 7) / 8)).map fun i => flat (oidSp o) (s.addr o e (((off + 7) / 8 + i) * 8)) / 8
    { s with badw := s.badw.filter fun p => !ws.contains p.1 }

/-- Bytes written into an object at its port, one at a time where the object lies in sectors. -/
def State.putObj (s : State) (o : Nat) (e : Entry) (off : Nat) : List Byte → State
  | [] => s
  | b :: bs =>
    if isSram o then { s with mem := mwrite s.mem (flat (oidSp o) (e.base + off)) (b :: bs) }
    else State.putObj (s.secWrite (oidSp o) (s.tagOf e) (s.addr o e off) [b]) o e (off + 1) bs
/-- Bytes written into an object at its port, and what watches the storage looks again. -/
def State.writeObj (s : State) (o : Nat) (e : Entry) (off : Nat) (bs : List Byte) : State :=
  ((s.putObj o e off bs).clearBad o e off bs.length).settle

/-! ### L1 (05 R114, R115) -/

/-- The lines of a tile's L1. -/
def State.l1Of (s : State) (g : Nat) : List L1Line := sget [] s.l1 g
/-- A self-invalidation: every line is discarded. -/
def State.l1Discard (s : State) (g : Nat) : State := State.count { s with l1 := sput [] s.l1 g [] } g 8
/-- The lines of one object are discarded (04 R100). -/
def State.l1DropObj (s : State) (g o : Nat) : State :=
  { s with l1 := sput [] s.l1 g ((s.l1Of g).filter fun l => l.oid != o) }
/-- The tile's L1 may cache the object: ports 0 to 69 other than its own. -/
def l1Caches (g o : Nat) : Bool := !isOwn g o && !isWindow o
/-- A store updates the bytes of any line it hits. -/
def L1Line.store (o off : Nat) (bs : List Byte) (l : L1Line) : L1Line :=
  if l.oid ≠ o then l
  else { l with bytes := (List.range 256).zipWith (fun i b =>
    let a := l.line * 256 + i
    if off ≤ a && a < off + bs.length then bs.getD (a - off) b else b) l.bytes }
/-- The L1 after a store of the tile. -/
def State.l1Store (s : State) (g o off : Nat) (bs : List Byte) : State :=
  if (s.l1Of g).isEmpty then s else { s with l1 := sput [] s.l1 g ((s.l1Of g).map (L1Line.store o off bs)) }

/-- Lines that may be replaced for `l`: those of its set, once its four ways are full (R114). -/
def L1Line.mates (l : L1Line) (ls : List L1Line) : List L1Line :=
  ls.filter fun x => Config.l1Set x.oid x.line % 64 == Config.l1Set l.oid l.line % 64
/-- A line filled: 64 sets of 4 ways of 256 bytes hold the L1's 64 KiB (R114). Which line of a full set is replaced is a free value
(log 11). -/
def State.l1Fill (s : State) (g : Nat) (l : L1Line) : State :=
  let ls := (s.l1Of g).filter fun x => !(x.oid == l.oid && x.line == l.line)
  let ms := l.mates ls
  if ms.length < 4 then { s with l1 := sput [] s.l1 g (ls ++ [l]) }
  else { s with l1 := sput [] s.l1 g (ls.erase (ms.getD (Config.l1Victim s.free % 4) l) ++ [l]), free := s.free + 1 }

/-- Bytes [off, off + n) within one line of the object through the tile's L1: a line of the same generation that is still held
gives its bytes, and a miss fills it (R114). -/
def State.l1Line (s : State) (g o gen : Nat) (e : Entry) (off n : Nat) : List Byte × State :=
  let ln := off / 256
  match (s.l1Of g).find? (fun l => l.oid == o && l.gen == gen && l.line == ln) with
  | some l => ((l.bytes.drop (off % 256)).take n, s.count g 6)
  | none =>
    let bs := s.readObj o e (ln * 256) 256
    ((bs.drop (off % 256)).take n, (s.l1Fill g ⟨o, gen, ln, bs⟩).count g 7)

/-- Bytes [off, off + n) through the L1, line by line. -/
def State.l1Read (s : State) (g o gen : Nat) (e : Entry) : Nat → Nat → Nat → List Byte × State
  | 0, _, _ => ([], s)
  | fuel + 1, off, n =>
    if n = 0 then ([], s)
    else
      let k := min n (256 - off % 256)
      let r := s.l1Line g o gen e off k
      let r' := r.2.l1Read g o gen e fuel (off + k) (n - k)
      (r.1 ++ r'.1, r'.2)

/-! ### Full/empty words (05 R123 to R128) -/

/-- The bit of the word at flat address `a`. -/
def State.feBit (s : State) (a : Nat) : Bool := sget true s.fe (a / 8)
/-- The bit of the word set. -/
def State.setFe (s : State) (a : Nat) (b : Bool) : State := { s with fe := sput true s.fe (a / 8) b }
/-- The operation can be performed at once in that state of the word. -/
def FeOp.ready (op : FeOp) (full : Bool) : Bool :=
  match op with
  | .ld => full | .ldt => full | .st => !full | .stRel => !full | .clr => true | .probe => true

/-- The flat address of the word that a full/empty request names. -/
def State.feAddr (s : State) (c : Cap) (off : Nat) : Nat := flat (oidSp c.o) ((s.entry c.o).base + off)

/-- The effect of a full/empty operation whose condition holds, on the word at flat address `a` (R128), and the answer. -/
def State.fePerform (s : State) (op : FeOp) (a : Nat) (val : Word) (d : Nat) : State × Res :=
  let old := BitVec.ofNat 64 (mnat s.mem a 8)
  match op with
  | .ld => (s, { xs := [(d, old)], acquire := true })
  | .ldt => (s.setFe a false, { xs := [(d, old)], acquire := true })
  | .st => (State.settle ({ s with mem := mwrite s.mem a (toBytes 8 val.toNat) }.setFe a true), {})
  | .stRel => (State.settle ({ s with mem := mwrite s.mem a (toBytes 8 val.toNat) }.setFe a true), {})
  | .clr => (s.setFe a false, {})
  | .probe => (s, { xs := [(d, BitVec.ofNat 64 (b2n (s.feBit a)))] })

/-- The window of a waiter, if it still waits on a full/empty word. -/
def State.feWait (s : State) (k w : Nat) : Option (FeOp × Cap × Nat × Word × Nat) :=
  match (s.slot k).wins.reverse.find? (fun x => x.id == w) with
  | some x => (match x.st with
    | .wait (.fe op c off val d _ _ _) => some (op, c, off, val, d)
    | _ => none)
  | none => none

/-- The wait list of a port without one waiter. -/
def State.unlist (s : State) (sp k w : Nat) : State :=
  { s with waits := sput [] s.waits sp ((sget [] s.waits sp).filter fun p => !(p.1 == k && p.2 == w)) }

/-- Every wait list without the waiters of strand `k`. -/
def State.unlistAll (s : State) (k : Nat) : State :=
  if s.waits.any fun p => p.2.any (·.1 == k) then
    { s with waits := (s.waits.map fun p => (p.1, p.2.filter (·.1 != k))).filter fun p => !p.2.isEmpty }
  else s

/-- It stores to the word. -/
def FeOp.stores (op : FeOp) : Bool := op == .st || op == .stRel
/-- It counts as a write at the port. -/
def FeOp.writes : FeOp → Bool
  | .ld => false | .ldt => true | .st => true | .stRel => true | .clr => true | .probe => false

/-- The port performs the full/empty operation of window `w` of strand `k`, whose condition holds; a word with the poison syndrome
fails it (13 R345), and so does a store that reaches live descriptor bytes (11 R285). True when the word may have changed. -/
def State.feDo (s : State) (k w : Nat) (op : FeOp) (c : Cap) (off : Nat) (val : Word) (d : Nat) : State × Bool :=
  let e := s.entry c.o
  let bad := s.badIn c.o e off 8
  if bad ≠ 0 then ((s.poisonObj c.o).endWin k w (.fail (if bad = 2 then cINTEGRITY else cCAP_POISON) c.o), false)
  else if op.stores && (s.refusedWrite c.o e off 8).isSome then (s.endWin k w (.fail cCAP_RIGHTS c.o), false)
  else
    let r := s.fePerform op (s.feAddr c off) val d
    (r.1.endWin k w (.done r.2), !(op == .ld || op == .probe))

/-- One pass over the waiters listed at a port for the word at flat address `a` (R125): a ld.fe is completed and the pass goes on;
a ld.fet or st.fe is completed, changes the state and ends the pass. True when the state changed. -/
def State.fePass (s : State) (sp a : Nat) : List (Nat × Nat) → State × Bool
  | [] => (s, false)
  | (k, w) :: rest =>
    match s.feWait k w with
    | some (op, c, off, val, d) =>
      if s.sameObj c && s.feAddr c off = a && op.ready (s.feBit a) then
        let r := s.feDo k w op c off val d
        let s' := r.1.unlist sp k w
        if r.2 then (s', true) else s'.fePass sp a rest
      else s.fePass sp a rest
    | none => s.fePass sp a rest

/-- The port serves the waiters of a word after its state changed, until no pass changes it again. -/
def State.feServe (s : State) (a : Nat) : Nat → State
  | 0 => s
  | fuel + 1 =>
    let sp := a / 2 ^ 48
    let r := s.fePass sp a (sget [] s.waits sp)
    if r.2 then r.1.feServe a fuel else r.1

/-- The request of window `w` is sent again after 64 cycles (R125). -/
def State.retryIn (s : State) (k w : Nat) : State := s.updWin k w fun x => { x with retryAt := s.cycle + 64 }
/-- A full/empty request reaches its port (R125): it is checked, and performed, or joins the wait list, or finds it full and will
retry. The window `w` of strand `k` holds the request; step 7 of 04 R87 was made at its issue, and neither the lkey that it carries
nor the object's pkey changes after that. The port of a stopped tile holds it (16 R390). -/
def State.feArrive (s : State) (k w : Nat) : State :=
  match s.feWait k w with
  | none => s
  | some (op, c, off, val, d) =>
    let a := s.feAddr c off
    let sp := oidSp c.o
    match s.stoppedAt a with
    | some g =>
      if (sget [] s.stopq g).length < 256 then
        (s.endWin k w (.wait (.fe op c off val d false true 0))).holdOp g (.fe k w)
      else (s.endWin k w (.wait (.fe op c off val d false false 0))).retryIn k w
    | none =>
      match s.check18 c (k / 16) 0 op.writes with
      | some f => (s.noteRefusal (k / 16) c.o f).endWin k w (.fail f.1 f.2)
      | none =>
      if op.ready (s.feBit a) then
        let r := s.feDo k w op c off val d
        if r.2 then r.1.feServe a ((sget [] r.1.waits sp).length + 1) else r.1
      else if (sget [] s.waits sp).length < 64 then
        { s.endWin k w (.wait (.fe op c off val d true false 0)) with
            waits := sput [] s.waits sp (sget [] s.waits sp ++ [(k, w)]) }
      else
        let s := (s.endWin k w (.wait (.fe op c off val d false false 0))).retryIn k w
        if oidPort c.o < 64 then s.count (oidDie c.o * 64 + oidPort c.o) 9 else s

end Sys2Proof.Machine
end

