-- ==== Sys2Proof/Machine/Desc.lean ====
section
/-! DEFINITION. Codelet descriptors (11 R284 to R287): their fields in the pool, the ready queues, decrements by handle, and a
codelet's commit buffer (05 R134, 11 R292). -/
namespace Sys2Proof.Machine

/-- A field of `n` bytes at offset `o` of the descriptor at pool address `a` of tile `g` (R284). -/
def State.dget (s : State) (g a o n : Nat) : Nat := mnat s.mem (flat (ownSp g) (a + o)) n
/-- The field written. -/
def State.dput (s : State) (g a o n v : Nat) : State :=
  State.settle ({ s with mem := mwrite s.mem (flat (ownSp g) (a + o)) (toBytes n v) }.goodWords (flat (ownSp g) (a + o)) n)
/-- State field: 0 Free, 1 Waiting, 2 Ready, 3 Running. -/
def State.dstate (s : State) (g a : Nat) : Nat := s.dget g a 4 1 % 8
/-- The state field written. -/
def State.dsetState (s : State) (g a v : Nat) : State := s.dput g a 4 1 (setBits (s.dget g a 4 1) 0 3 v)

/-- Home tile, pool address and stamp of a handle (R286). -/
def hHome (h : Nat) : Nat := bits h 32 12
def hAddr (h : Nat) : Nat := bits h 0 21
def hStamp (h : Nat) : Nat := bits h 48 16
/-- A handle. -/
def mkHandle (stamp home addr : Nat) : Nat := stamp * 2 ^ 48 + home * 2 ^ 32 + addr
/-- A reserved bit of a handle is set. An addr off the 64-byte grid is a handle that matches no descriptor (log 115). -/
def badHandle (h : Nat) : Bool := bits h 44 4 != 0 || bits h 21 11 != 0
/-- The handle matches: its descriptor is live, Waiting, and has its stamp (R286). -/
def State.matches_ (s : State) (h : Nat) : Bool :=
  s.dstate (hHome h) (hAddr h) == 1 && s.dget (hHome h) (hAddr h) 6 2 == hStamp h
    && sget 0 s.marks (flat (ownSp (hHome h)) (hAddr h)) % 2 == 1

/-- The initial codelet's descriptor lies in the dispatcher and not in the pool (R281): an address beyond the pool stands for it. -/
def initialDesc : Nat := 2 ^ 21
/-- Entries of the ready ring in use (R287). -/
def Tile.ringUsed (t : Tile) : Nat := t.ready.foldl (fun n p => n + (p.2.filter (·.2)).length) 0

/-- The descriptor at pool address `a` of tile `g` becomes Ready and joins the tail of the queue of its priority; with the ring
full it is chained through link (R287). -/
def State.makeReady (s : State) (g a : Nat) : State :=
  let s := if a = initialDesc then s else s.dsetState g a 2
  let pr := if a = initialDesc then 0 else s.dget g a 5 1 % 4
  let q := sget [] (s.tile g).ready pr
  let inRing := decide ((s.tile g).ringUsed < 256)
  let s := match q.getLast? with
    | some (p, false) => if inRing || p = initialDesc then s else s.dput g p 0x18 8 a
    | _ => s
  s.updTile g fun t => { t with ready := sput [] t.ready pr (q ++ [(a, inRing)]) }

/-- The first word of the live descriptor that handle `h` names carries the poison syndrome: an operation on it poisons its object and
fails (13 R345). -/
def State.descBad (s : State) (h : Nat) : Bool :=
  let a := flat (ownSp (hHome h)) (hAddr h)
  sget 0 s.marks a % 2 == 1 && s.badWords a 8
/-- Subtracts `n` from the counter of the descriptor that handle `h` names: the state after it, and the fault where the descriptor does not
match (ENGINE 32), the counter is less (33) (R304), or the word is poisoned (13 R345). -/
def State.decrement (s : State) (h n : Nat) : State × Option (Nat × Nat) :=
  let g := hHome h
  let a := hAddr h
  if s.descBad h then (s.poisonWord (flat (ownSp g) a), some (cCAP_POISON, s.objAt (flat (ownSp g) a)))
  else if !s.matches_ h then (s, some (cENGINE, 32))
  else
    let c := s.dget g a 0 4
    if c < n then (s, some (cENGINE, 33))
    else
      let s := s.dput g a 0 4 (c - n)
      (if n ≠ 0 && c = n then s.makeReady g a else s, none)
/-- What a black-box record holds of a fault: the ENGINE code, or the cause (13 R350). -/
def bbCause (f : Nat × Nat) : Nat := if f.1 = cENGINE then f.2 else f.1

/-- A black-box record of a strand (13 R350). -/
def State.bbStrand (s : State) (k code cause info : Nat) : State :=
  s.bb (k / 16 / 64) ⟨s.tick, code, k % 16, k / 16, 0, (s.tile (k / 16)).runid, cause, info⟩

/-- A buffered store that the port refuses at its write-out (05 R134): steps 1 to 6 and 8 of R87, and marked bytes. -/
def State.storeRefused (s : State) (c : Cap) (g off n : Nat) : Option (Nat × Nat) :=
  match s.check18 c g 0 true with
  | some f => some f
  | none => if (s.refusedWrite c.o (s.entry c.o) off n).isSome then some (cCAP_RIGHTS, c.o) else none
/-- Buffered stores of strand `k` to the object wait for a granule that is not resident. -/
def State.lateOn (s : State) (k o : Nat) : Bool := s.late.any fun p => p.1 == k && p.2.1.o == o
/-- The commit buffer holds a store to the object. -/
def Slot.buffers (t : Slot) (o : Nat) : Bool := t.cbuf.any fun e => match e with
  | .st c _ _ => c.o == o
  | _ => false

/-- One entry of the commit buffer of strand `k` written out (05 R134): an operation that fails is lost and recorded (event 10). A
store to a granule that is not resident, and every later one of the strand to the object, waits until it is (R133). -/
def State.cbufOut (s : State) (k : Nat) : CbEnt → State
  | .st c off bs =>
    let wait : State := { s with late := s.late ++ [(k, c, off, bs)] }
    if s.lateOn k c.o then wait
    else match s.storeRefused c (k / 16) off bs.length with
    | some f => (s.noteRefusal (k / 16) c.o f).bbStrand k 10 f.1 c.o
    | none =>
      if s.versionEnd c.o (s.entry c.o) off bs.length then (s.poisonObj c.o).bbStrand k 10 cINTEGRITY c.o
      else if s.rangeHere c.o (s.entry c.o) off bs.length then (s.writeObj c.o (s.entry c.o) off bs).l1Store (k / 16) c.o off bs
      else wait
  | .dec h n =>
    let o := mkOid (hHome h / 64) (hHome h % 64) 0
    if s.foreign (k / 16) o then (s.noteRefusal (k / 16) o (cWORLD, o)).bbStrand k 10 cWORLD h
    else match s.decrement h n with
    | (s', none) => s'
    | (s', some f) => s'.bbStrand k 10 (bbCause f) h
  | .decl c h key gen grant =>
    { s with treqs := s.treqs ++ [⟨s.nextId, k, 0, k / 16, true, c, h, key, gen, grant, (s.slot k).lkey, 0⟩], nextId := s.nextId + 1 }
/-- Stores that waited for granules of the object are tried again in their order. -/
def State.lateServe (s : State) (o : Nat) : State :=
  if s.late.any (fun p => p.2.1.o == o) then
    (s.late.filter fun p => p.2.1.o == o).foldl (fun (s : State) p => s.cbufOut p.1 (.st p.2.1 p.2.2.1 p.2.2.2))
      { s with late := s.late.filter fun p => p.2.1.o != o }
  else s

/-- Bytes of the commit buffer that a store of `n` bytes uses (05 R134). -/
def cbufBytes (n : Nat) : Nat := 8 + 8 * ((n + 7) / 8)
/-- The buffered stores of strand `k` to the object written out, where a drain asks for it (04 R99, R106; log 61): the codelet stays
restartable. -/
def State.cbufDrain (s : State) (k o : Nat) : State :=
  let mine (e : CbEnt) : Bool := match e with
    | .st c _ _ => c.o == o
    | _ => false
  let es := (s.slot k).cbuf.filter mine
  let used := es.foldl (fun n e => match e with
    | .st _ _ bs => n + cbufBytes bs.length
    | _ => n) 0
  es.foldl (fun s e => s.cbufOut k e) (s.updSlot k fun t => { t with cbuf := t.cbuf.filter (!mine ·), cbufUsed := t.cbufUsed - used })

/-- The commit buffer written out in program order; the codelet is not restartable from here on (05 R134). -/
def State.cbufFlush (s : State) (k : Nat) : State :=
  let es := (s.slot k).cbuf
  let s := s.updSlot k fun t => { t with cbuf := [], cbufUsed := 0, restartable := false }
  es.foldl (fun s e => s.cbufOut k e) s
/-- An event that ends restartability, for the executing strand (05 R134). -/
def State.endRestart (s : State) : State := if s.me.restartable then s.cbufFlush s.cur else s
/-- An entry of `n` bytes joins the commit buffer; none when it overflows the 4 KiB. -/
def State.cbufHold (s : State) (e : CbEnt) (n : Nat) : Option State :=
  if s.me.cbufUsed + n ≤ 4096 then some (s.upd fun t => { t with cbuf := t.cbuf ++ [e], cbufUsed := t.cbufUsed + n }) else none

end Sys2Proof.Machine
end

