-- ==== Sys2Proof/Machine/Remote.lean ====
section
/-! DEFINITION. Remote windows and UALink requests (15 R380 to R387). -/
namespace Sys2Proof.Machine

/-- The window-table entry that an object id of ports 96 to 99 names; none for other ids (04 R83, R380). -/
def State.winEnt (s : State) (o : Nat) : Option WinEnt :=
  if 96 ≤ oidPort o && oidPort o < 100 && oidIdx o < 4096 && (oidDie o % 8 == 0 || oidDie o % 8 == 7) then some (sget {} s.wtab o) else none
/-- The entry written. -/
def State.putWinEnt (s : State) (o : Nat) (e : WinEnt) : State := { s with wtab := sput {} s.wtab o e }
/-- The entry freed with its generation advanced; past 0xFFF it is retired (R380). -/
def State.freeWinEnt (s : State) (o : Nat) : State :=
  match s.winEnt o with
  | some e => s.putWinEnt o { gen := if 4096 ≤ e.gen then e.gen else e.gen + 1 }
  | none => s
/-- An access parked on a granule that is not resident through window `o`. -/
def Win.parkedOn (o : Nat) (w : Win) : Bool := match w.st with
  | .wait (.resident c _ _ _) => c.o == o
  | _ => false
/-- An export ends: its entry is freed, and the accesses parked through it, which come later, are refused (R384). -/
def State.closeExport (s : State) (o : Nat) : State :=
  let gone (p : Nat × Nat) : Bool := (s.slot p.1).wins.any fun w => w.id == p.2 && w.parkedOn o
  let refuse (w : Win) : Win := if w.parkedOn o then { w with st := .fail cCAP_STALE o } else w
  let waits := (s.waits.map fun p => (p.1, p.2.filter (!gone ·))).filter fun p => !p.2.isEmpty
  { s.freeWinEnt o with slots := s.slots.map fun p => (p.1, { p.2 with wins := p.2.wins.map refuse }), waits := waits }
/-- The entry of a window capability, or CAP_STALE. -/
def State.winOf (s : State) (c : Cap) : Except (Nat × Nat) WinEnt :=
  match s.winEnt c.o with
  | some e => if e.valid && e.gen = c.g then .ok e else .error (cCAP_STALE, c.o)
  | none => .error (cCAP_STALE, c.o)
/-- The number of the station of an object id (01 R18). -/
def stationOf (o : Nat) : Nat := oidDie o / 8 * 8 + (if oidDie o % 8 = 7 then 4 else 0) + (oidPort o - 96)
/-- The object id of entry `idx` of station `st`'s window table. -/
def winOid (st idx : Nat) : Nat := mkOid (st / 8 * 8 + if 4 ≤ st % 8 then 7 else 0) (96 + st % 4) idx

/-- A request leaves its station under the next id of the station's running counter (R386). -/
def State.uaSend (s : State) (r : UaReq) : State × Nat :=
  let n := sget 0 s.uaNext r.st
  let id := r.st * 2 ^ 32 + n
  ({ s with uareqs := s.uareqs ++ [{ r with id := id, sentAt := s.cycle }], uaNext := sput 0 s.uaNext r.st ((n + 1) % 2 ^ 32) }, id)

/-- Steps 1 to 8 of 04 R87 for an exported object with the authority of its owner tile, step 7 omitted (R383). -/
def State.checkExported (s : State) (o : Nat) (write : Bool) : Option (Nat × Nat) :=
  let e := s.entry o
  if s.fencedAt o then some (cCAP_POISON, o)
  else if !namesEntry o || !e.valid then some (cCAP_STALE, o)
  else if e.bad then some (cMCHECK, 4)
  else if s.keyEnded e.keyid then some (cKEY_ENDED, o * 2 ^ 16 + e.keyid)
  else if e.poison then some (cCAP_POISON, o)
  else if write && 0 < e.fracs then some (cCAP_RIGHTS, o)
  else none

/-- An access to byte `off` of the export at `st`, `idx` with generation `gen`, at the exporter's station (R383): bytes read, or the
state after the write, or the cause of the refusal. -/
def State.exportAccess (s : State) (o gen off len : Nat) (data : Option (List Byte)) : Except (Nat × Nat) (State × List Byte) :=
  match s.winEnt o with
  | none => .error (cCAP_STALE, o)
  | some w =>
    if !w.valid || !w.exported || w.gen ≠ gen then .error (cCAP_STALE, o)
    else if w.len < off + len then .error (cCAP_BOUNDS, off)
    else
      let e := s.entry w.oid
      match s.checkExported w.oid data.isSome with
      | some f => .error f
      | none =>
        if !s.rangeHere w.oid e (w.base + off) len then .error (cNOT_RESIDENT, w.oid)
        else match data with
          | none =>
            let bad := s.badIn w.oid e (w.base + off) len
            if bad ≠ 0 then .error (if bad = 2 then cINTEGRITY else cCAP_POISON, w.oid)
            else .ok (s, s.readObj w.oid e (w.base + off) len)
          | some bs =>
            if (s.refusedWrite w.oid e (w.base + off) len).isSome then .error (cCAP_RIGHTS, w.oid)
            else if s.versionEnd w.oid e (w.base + off) len then .error (cINTEGRITY, w.oid)
            else .ok (s.writeObj w.oid e (w.base + off) bs, [])

/-- The exported object is poisoned by an access that met a word with the poison syndrome, or a sector without a version left (13 R345, 14
R354): `f` is the access's failure. -/
def State.exportHurt (s : State) (o off len : Nat) (f : Nat × Nat) : State := match s.winEnt o with
  | some w =>
    if (f.1 = cCAP_POISON || f.1 = cINTEGRITY) && (s.badIn w.oid (s.entry w.oid) (w.base + off) len ≠ 0
        || s.versionEnd w.oid (s.entry w.oid) (w.base + off) len) then s.poisonObj w.oid else s
  | none => s

/-- The smallest range that holds the parts of a load or store; the answer to a load carries the bytes of its parts in order. -/
def Req.span : Req → Nat × Nat
  | .load ps _ => let lo := ps.foldl (fun m p => min m p.1) (2 ^ 40); (lo, ps.foldl (fun m p => max m (p.1 + p.2)) 0 - lo)
  | .store ps => let lo := ps.foldl (fun m p => min m p.1) (2 ^ 40); (lo, ps.foldl (fun m p => max m (p.1 + p.2.length)) 0 - lo)
  | .amo _ off _ _ _ _ _ => (off, 8)

/-- The parts of a request as offsets and sizes. -/
def Req.parts : Req → List (Nat × Nat)
  | .load ps _ => ps
  | .store ps => ps.map fun p => (p.1, p.2.length)
  | .amo _ off _ _ _ _ _ => [(off, 8)]

/-- A request that meets a granule that is not resident (05 R133, R135), of window `w` of strand `k` or of the one it opens next: it
parks, on its port's wait list or, with the list full, to be sent again after 64 cycles (01 R16); the first such refusal of a codelet
that is not restartable is a deferred NOT_RESIDENT. -/
def State.notHere (s : State) (k : Nat) (c : Cap) (lkey : Word) (req : Req) (w : Option Nat) : State × WinSt :=
  let t := s.slot k
  if t.occ = .codelet && !t.restartable && !t.nrSeen then
    (s.updSlot k fun t => { t with nrSeen := true }, .fail cNOT_RESIDENT c.o)
  else
    let l := sget [] s.waits (oidSp c.o)
    if l.length < 64 then
      ({ s with waits := sput [] s.waits (oidSp c.o) (l ++ [(k, w.getD t.nextWid)]) }, .wait (.resident c lkey req none))
    else (s, .wait (.resident c lkey req (some (s.cycle + 64))))

/-- The objects behind the parts of a request through export `e` are resident (04 R87 step 9). -/
def State.exportHere (s : State) (e : WinEnt) (req : Req) : Bool :=
  req.parts.all fun p => e.len < p.1 + p.2 || (s.checkExported e.oid false).isSome || s.rangeHere e.oid (s.entry e.oid) (e.base + p.1) p.2

/-- A strand's access through a window (R383): at an export of this package it is applied at once, or parks on a granule that is not
resident; otherwise a request leaves the
station and the lookahead window `w` of the strand, or the one that it opens next, waits for its answer. -/
def State.winReq (s : State) (k : Nat) (c : Cap) (lkey : Word) (req : Req) (w : Option Nat) (res : List Byte → Res) :
    State × WinSt :=
  match s.winOf c with
  | .error f => (s, .fail f.1 f.2)
  | .ok e =>
    if e.exported then
      if !s.exportHere e req then s.notHere k c lkey req w
      else match req with
      | .load ps _ =>
        (match ps.foldlM (fun (r : State × List Byte) p =>
            match r.1.exportAccess c.o e.gen p.1 p.2 none with
            | .ok x => Except.ok (x.1, r.2 ++ x.2)
            | .error f => Except.error f) (s, []) with
        | .ok r => (r.1, .done (res r.2))
        | .error f => (s.exportHurt c.o req.span.1 req.span.2 f, .fail f.1 f.2))
      | .store ps =>
        (match ps.foldlM (fun (r : State) p =>
            match r.exportAccess c.o e.gen p.1 p.2.length (some p.2) with
            | .ok x => Except.ok x.1
            | .error f => Except.error f) s with
        | .ok r => (r, .done {})
        | .error f => (s.exportHurt c.o req.span.1 req.span.2 f, .fail f.1 f.2))
      | .amo .. => (s, .fail cCAP_RIGHTS c.o)
    else
      let sp := req.span
      let bs := match req with
        | .store ps => some (ps.flatMap (·.2))
        | _ => none
      let r := s.uaSend
        { id := 0, st := stationOf c.o, op := .access k (w.getD (s.slot k).nextWid), pidx := e.pidx, pgen := e.pgen, off := sp.1,
          len := sp.2, data := bs, sentAt := s.cycle }
      (r.1, .wait (.remote r.2 c.o req))

/-- A strand waits for the answer to an access to that window. -/
def Win.remoteOn (o : Nat) (w : Win) : Bool := match w.st with
  | .wait (.remote _ o' _) => o' == o
  | _ => false

end Sys2Proof.Machine
end

