-- ==== Sys2Proof/Machine/Mem.lean ====
section
/-! DEFINITION. Loads and stores (05 R138 to R145), the full/empty instructions (R123 to R128) and the landing instructions
(R129, R130). An access is applied in the step that issues it (log 8); its results are written when its window closes. -/
namespace Sys2Proof.Machine

/-! ### What holds an access before it issues -/

/-- The window waits on a full/empty word of the object (05 R128). -/
def Win.feOn (o : Nat) (w : Win) : Bool :=
  match w.st with
  | .wait (.fe _ c _ _ _ _ _ _) => c.o == o
  | _ => false
/-- An accepted engine command of the strand still reads or writes the object in a way that holds the access (09 R235,
10 R252): a write behind its reads, anything behind its writes, and of a window any access behind any other (15 R383). -/
def Cmd.holds (k o : Nat) (write : Bool) (c : Cmd) : Bool :=
  c.key == k && (c.writes.contains o || ((write || isWindow o) && c.reads.contains o))
/-- The window holds an atomic that has not been performed (06 R154). -/
def Win.amoWait (w : Win) : Bool := match w.st with
  | .wait (.resident _ _ (.amo ..) _) => true
  | .wait (.unsent _ _ (.amo ..)) => true
  | _ => false
/-- An earlier atomic of strand `k` is not complete: a later synchronising operation is held (06 R154). -/
def State.amoBusy (s : State) (k : Nat) : Bool := (s.slot k).wins.any Win.amoWait
/-- The window holds an access to the object that has not been applied: it waits for a granule that is not resident, or has not been
sent (05 R138, 06 R148). -/
def Win.heldOn (o : Nat) (w : Win) : Bool := match w.st with
  | .wait (.resident c _ _ _) => c.o == o
  | .wait (.unsent c _ _) => c.o == o
  | _ => false
/-- An access of strand `k` to the object must wait for earlier accesses that are not applied, full/empty operations or engine
commands of the strand. -/
def State.objHold (s : State) (k o : Nat) (write : Bool) : Bool :=
  (s.slot k).wins.any (fun w => w.feOn o || w.heldOn o) || s.lateOn k o || s.cmds.any (Cmd.holds k o write)
/-- An access to the object of `c` is held in Waiting. -/
def State.heldBy (s : State) (c : Cap) (write : Bool) : Bool := c != .null && s.objHold s.cur c.o write

/-! ### Performing a request at the port -/

/-- Bytes of one object as a restartable codelet sees them: its own buffered bytes over those of the port (05 R134). -/
def cbufOver (o off : Nat) (es : List CbEnt) (bs : List Byte) : List Byte :=
  es.foldl (fun bs e => match e with
    | .st c a ws =>
      if c.o ≠ o then bs
      else (List.range bs.length).zipWith (fun i b =>
        if a ≤ off + i && off + i < a + ws.length then ws.getD (off + i - a) b else b) bs
    | _ => bs) bs

/-- Bytes [off, off + n) of an object as tile `g` loads them: through its L1 where the L1 caches the object (05 R114). -/
def State.loadBytes (s : State) (g : Nat) (c : Cap) (e : Entry) (off n : Nat) : List Byte × State :=
  if l1Caches g c.o then s.l1Read g c.o c.g e (n + 1) off n else (s.readObj c.o e off n, s)

/-- The parts of a load, in order. -/
def State.loadParts (s : State) (k : Nat) (c : Cap) (e : Entry) : List (Nat × Nat) → List Byte × State
  | [] => ([], s)
  | (off, n) :: ps =>
    let r := s.loadBytes (k / 16) c e off n
    let r' := r.2.loadParts k c e ps
    (cbufOver c.o off (s.slot k).cbuf r.1 ++ r'.1, r'.2)

/-- The register that a load writes. -/
def loadRes (dst : Dst) (bs : List Byte) : Res :=
  match dst with
  | .x d size sg => { xs := [(d, BitVec.ofNat 64 (if sg then sext64 (8 * size) (ofBytes bs) else ofBytes bs))] }
  | .v d => { vs := [(d, BitVec.ofNat 1024 (ofBytes bs))] }

/-- The parts of a store written at the port, and into any L1 line they hit. -/
def State.storeParts (s : State) (g : Nat) (c : Cap) (e : Entry) : List (Nat × List Byte) → State
  | [] => s
  | (off, bs) :: ps => ((s.writeObj c.o e off bs).l1Store g c.o off bs).storeParts g c e ps

/-- Bytes of the commit buffer that the parts of a store use (05 R134): each element of a vsts or vstx is a store of its own
(log 95). -/
def cbufSize (ps : List (Nat × List Byte)) : Nat := ps.foldl (fun n p => n + cbufBytes p.2.length) 0

/-- A store of strand `k` to the object ends its restartability (05 R134): the object is not restartable, or the commit buffer would
overflow. Its buffered stores are written out, and then the store goes on. -/
def State.storeEnds (s : State) (k : Nat) (c : Cap) (ps : List (Nat × List Byte)) : State :=
  let t := s.slot k
  if t.restartable && !isOwn (k / 16) c.o && !((s.entry c.o).restartable && t.cbufUsed + cbufSize ps ≤ 4096) then s.cbufFlush k else s
/-- A store of strand `k` applied: held in the commit buffer of a codelet that is still restartable, where R134 says so. -/
def State.storeGo (s : State) (k : Nat) (c : Cap) (e : Entry) (ps : List (Nat × List Byte)) : State :=
  if (s.slot k).restartable && !isOwn (k / 16) c.o then
    s.updSlot k fun t => { t with cbuf := t.cbuf ++ ps.map (fun p => .st c p.1 p.2), cbufUsed := t.cbufUsed + cbufSize ps }
  else s.storeParts (k / 16) c e ps

/-- A load or a store of strand `k` at its port (04 R87), for its window `w` or the one it opens next: the state after it, and what
the window holds. -/
def State.memReq (s : State) (k : Nat) (c : Cap) (lkey : Word) (req : Req) (w : Option Nat := none) : State × WinSt :=
  let g := k / 16
  let e := s.entry c.o
  if isWindow c.o then
    let s := match req with
      | .store _ => if (s.slot k).restartable then s.cbufFlush k else s
      | _ => s
    s.winReq k c lkey req w fun bs => match req with
      | .load _ dst => loadRes dst bs
      | _ => {}
  else match req with
  | .load ps dst =>
    (match s.check18 c g lkey false with
    | some f => (s.noteRefusal g c.o f, .fail f.1 f.2)
    | none =>
      if !ps.all (fun p => s.rangeHere c.o e p.1 p.2) then s.notHere k c lkey req w
      else
        let bad := ps.foldl (fun r p => max r (s.badIn c.o e p.1 p.2)) 0
        if bad ≠ 0 then (s.poisonObj c.o, .fail (if bad = 2 then cINTEGRITY else cCAP_POISON) c.o)
        else
          let r := s.loadParts k c e ps
          (r.2, .done (loadRes dst r.1)))
  | .store ps =>
    (match s.check18 c g lkey true with
    | some f => (s.noteRefusal g c.o f, .fail f.1 f.2)
    | none =>
      let s := s.storeEnds k c ps
      if s.lateOn k c.o then (s, .wait (.unsent c lkey req))
      else if !ps.all (fun p => s.rangeHere c.o e p.1 p.2.length) then s.notHere k c lkey req w
      else if ps.any (fun p => (s.refusedWrite c.o e p.1 p.2.length).isSome) then (s, .fail cCAP_RIGHTS c.o)
      else if ps.any (fun p => s.versionEnd c.o e p.1 p.2.length) then (s.poisonObj c.o, .fail cINTEGRITY c.o)
      else (s.storeGo k c e ps, .done {}))
  | .amo .. => (s, .done {})

/-- A store of a strand that reaches bytes that hold capabilities is refused precisely (10 R259, 12 R328). -/
def State.capBytes (s : State) (c : Cap) : Req → Bool
  | .store ps => (s.check18 c s.gta s.me.lkey true).isNone
      && ps.any fun p => s.refusedWrite c.o (s.entry c.o) p.1 p.2.length == some 0
  | _ => false

/-- Cycles beyond 7 that an access to the own pool takes by bank conflicts (05 R113, R144). -/
def State.bankExtra (s : State) (c : Cap) (ps : List (Nat × Nat)) : Nat :=
  if !isOwn s.gta c.o then 0
  else
    let base := (s.entry c.o).base
    let lines := (ps.flatMap fun p =>
      (List.range ((base + p.1 + p.2 - 1) / 64 - (base + p.1) / 64 + 1)).map fun i => (base + p.1) / 64 + i).eraseDups
    (List.range 16).foldl (fun m b => max m (lines.filter fun l => l % 16 == b).length) 1 - 1

/-- A load or store with capability register `n`: what holds it, the checks `chk` at issue, then the port; it opens a window with
`la` (R138). `vec`: the cycles of bank conflicts count (R144). -/
def memOp (i : Instr) (la n : Nat) (write vec : Bool) (chk : Cap → Chk Req) (s : State) : Out :=
  match s.winFull with
  | some s' => .next s'
  | none =>
    let c := s.c n
    if s.heldBy c write then .next (s.holdOn (.object c.o write))
    else if isWindow c.o && s.me.wins.any (Win.remoteOn c.o) then .next (s.holdOn (.remote c.o))
    else match chk c with
      | .error f => s.trap f.1 f.2
      | .ok req =>
        if s.capBytes c req then s.trap cCAP_RIGHTS (rightsVal c n)
        else
          let r := s.memReq s.cur c s.me.lkey req
          .next (r.1.openW la i r.2 none (7 + if vec then s.bankExtra c req.parts else 0) (isOwn s.gta c.o)
            (if write || isOwn s.gta c.o then 0 else c.o))

/-! ### Scalar loads and stores (R139) -/

/-- Issue checks of a scalar access of `size` bytes at c.base + sext(imm8) × size. -/
def scalarChk (n imm size r : Nat) (f : Nat → Req) (c : Cap) : Chk Req := do
  capUse c n [r]
  bound c (memOff c imm size) size
  aligned (offVal (memOff c imm size)) size
  pure (f (memOff c imm size).toNat)

/-- x[d] := the `size` bytes, sign-extended or not. -/
def loadX (i : Instr) (la c imm d size : Nat) (sg : Bool) (s : State) : Out :=
  memOp i la c false false (scalarChk c imm size rR fun off => .load [(off, size)] (.x d size sg)) s
/-- The `size` low bytes of x[r] stored. -/
def storeX (i : Instr) (la c imm r size : Nat) (s : State) : Out :=
  memOp i la c true false (scalarChk c imm size rW fun off => .store [(off, toBytes size (s.xn r))]) s

/-- LD_B. -/
def execLdB (la c imm d : Nat) (s : State) : Out := loadX (.ldB la c imm d) la c imm d 1 true s
/-- LD_H. -/
def execLdH (la c imm d : Nat) (s : State) : Out := loadX (.ldH la c imm d) la c imm d 2 true s
/-- LD_W. -/
def execLdW (la c imm d : Nat) (s : State) : Out := loadX (.ldW la c imm d) la c imm d 4 true s
/-- LD_D. -/
def execLdD (la c imm d : Nat) (s : State) : Out := loadX (.ldD la c imm d) la c imm d 8 true s
/-- LD_BU. -/
def execLdBu (la c imm d : Nat) (s : State) : Out := loadX (.ldBu la c imm d) la c imm d 1 false s
/-- LD_HU. -/
def execLdHu (la c imm d : Nat) (s : State) : Out := loadX (.ldHu la c imm d) la c imm d 2 false s
/-- LD_WU. -/
def execLdWu (la c imm d : Nat) (s : State) : Out := loadX (.ldWu la c imm d) la c imm d 4 false s
/-- ST_B. -/
def execStB (la c imm r : Nat) (s : State) : Out := storeX (.stB la c imm r) la c imm r 1 s
/-- ST_H. -/
def execStH (la c imm r : Nat) (s : State) : Out := storeX (.stH la c imm r) la c imm r 2 s
/-- ST_W. -/
def execStW (la c imm r : Nat) (s : State) : Out := storeX (.stW la c imm r) la c imm r 4 s
/-- ST_D. -/
def execStD (la c imm r : Nat) (s : State) : Out := storeX (.stD la c imm r) la c imm r 8 s

/-! ### Vector loads and stores (R140 to R143) -/

/-- Bytes of a vector register. -/
def vBytes (v : VReg) : List Byte := toBytes 128 v.toNat
/-- Bytes [i × e, i × e + e) of a register. -/
def vPart (v : VReg) (i e : Nat) : List Byte := toBytes e (v.toNat / 2 ^ (8 * i * e))

/-- Issue checks of vld and vst: 128 bytes at a multiple of 8. -/
def vldChk (n imm r : Nat) (f : Nat → Req) (c : Cap) : Chk Req := do
  capUse c n [r]
  bound c (memOff c imm 128) 128
  aligned (offVal (memOff c imm 128)) 8
  pure (f (memOff c imm 128).toNat)

/-- The checks `chk`, and after them those of the vector registers read (08 R196, 13 R338). -/
def vGoodThen (s : State) (rs : List Nat) (chk : Cap → Chk Req) (c : Cap) : Chk Req := do
  let r ← chk c
  vGood s.me rs
  pure r

/-- VLD (R140). -/
def execVld (la c imm d : Nat) (s : State) : Out :=
  if s.vIll [d] then s.illegal (.vld la c imm d)
  else memOp (.vld la c imm d) la c false true (vldChk c imm rR fun off => .load [(off, 128)] (.v d)) s
/-- VST (R140). -/
def execVst (la c imm r : Nat) (s : State) : Out :=
  if s.vIll [r] then s.illegal (.vst la c imm r)
  else memOp (.vst la c imm r) la c true true (vGoodThen s [r] (vldChk c imm rW fun off => .store [(off, vBytes (s.me.getV r))])) s

/-- Issue checks of an access to elements of `e` bytes at `as`: every bound, then every alignment (R141, R142). -/
def elemChk (n e r : Nat) (as : Cap → List Int) (f : List Nat → Req) (c : Cap) : Chk Req := do
  capUse c n [r]
  boundAll c e (as c)
  alignAll e (as c)
  pure (f ((as c).map Int.toNat))

/-- Element size that x[o + 1][63:62] selects (R141). -/
def strideSize (s : State) (o : Nat) : Nat := 2 ^ bits (s.xn (o + 1)) 62 2
/-- VLDS (R141). -/
def execVlds (la c o d : Nat) (s : State) : Out :=
  if s.vIll [d] then s.illegal (.vlds la c o d)
  else
    let e := strideSize s o
    memOp (.vlds la c o d) la c false true (elemChk c e rR (fun c => strided c (s.xn o) (s.xn (o + 1)))
      fun as => .load (as.map fun a => (a, e)) (.v d)) s
/-- VSTS (R141): ascending elements, a later one overwrites an earlier one. -/
def execVsts (la c o r : Nat) (s : State) : Out :=
  if s.vIll [r] then s.illegal (.vsts la c o r)
  else
    let e := strideSize s o
    memOp (.vsts la c o r) la c true true (vGoodThen s [r] (elemChk c e rW (fun c => strided c (s.xn o) (s.xn (o + 1)))
      fun as => .store ((List.range as.length).zipWith (fun i a => (a, vPart (s.me.getV r) i e)) as))) s
/-- VLDX (R142). -/
def execVldx (la c o d : Nat) (s : State) : Out :=
  if s.vIll [d] then s.illegal (.vldx la c o d)
  else memOp (.vldx la c o d) la c false true (vGoodThen s [o] (elemChk c 4 rR (fun c => indexed c (s.me.getV o))
      fun as => .load (as.map fun a => (a, 4)) (.v d))) s
/-- VSTX (R142). -/
def execVstx (la c o r : Nat) (s : State) : Out :=
  if s.vIll [r] then s.illegal (.vstx la c o r)
  else memOp (.vstx la c o r) la c true true (vGoodThen s [o, r] (elemChk c 4 rW (fun c => indexed c (s.me.getV o))
      fun as => .store ((List.range as.length).zipWith (fun i a => (a, vPart (s.me.getV r) i 4)) as))) s
/-- VLDT (R143): one byte column at an interval of 128 bytes. -/
def execVldt (la c o d : Nat) (s : State) : Out :=
  if s.vIll [d] then s.illegal (.vldt la c o d)
  else memOp (.vldt la c o d) la c false true (fun cp => do
    capUse cp c [rR]
    boundAll cp 1 ((List.range 128).map fun (j : Nat) => xOff cp (s.xn o) + 128 * j)
    pure (.load ((List.range 128).map fun j => ((xOff cp (s.xn o)).toNat + 128 * j, 1)) (.v d))) s

/-! ### Full/empty instructions (R124 to R128) -/

/-- A command for which a send, a tag.pub, a st.fe.rel and a bar.arr wait: a matrix command, mv.copy or rg.push (09 R235,
10 R252). -/
def CmdOp.drained : CmdOp → Bool
  | .send .. => false
  | .ifetch .. => false
  | _ => true
/-- Such commands of strand `k` accepted before `upto` have not completed. -/
def State.drains (s : State) (k upto : Nat) : Bool := s.cmds.any fun c => c.key == k && decide (c.id < upto) && c.op.drained
/-- The request of a full/empty window goes to its port; st.fe.rel first waits for the strand's engine commands. -/
def State.feSend (s : State) (k w : Nat) : State :=
  match (s.slot k).wins.reverse.find? (fun x => x.id == w) with
  | some x => (match x.st with
    | .wait (.fe _ _ _ _ _ _ _ upto) => if s.drains k upto then s else s.feArrive k w
    | _ => s)
  | none => s
/-- The windows of strand `k` whose st.fe.rel waits for commands, and the command `c` gone: those that may go are sent. -/
def State.feResend (s : State) (k : Nat) : List Win → State
  | [] => s
  | w :: ws =>
    State.feResend (match w.st with
      | .wait (.fe .stRel _ _ _ _ _ _ upto) => if upto = 0 then s else s.feSend k w.id
      | _ => s) k ws
/-- A command has completed or failed: it leaves the engine, and what waited for it goes on. -/
def State.cmdGone (s : State) (c : Cmd) : State :=
  let s := { s with cmds := s.cmds.filter fun x => x.id != c.id }
  s.feResend c.key (s.slot c.key).wins

/-- Rights that a full/empty operation needs (04 R88, R128). -/
def FeOp.rights : FeOp → List Nat
  | .ld => [rR] | .ldt => [rW] | .st => [rW, rL] | .stRel => [rW, rL] | .clr => [rW] | .probe => [rR]
/-- It may wait for the word's state, and so is ILLEGAL in a codelet slot and bounded by wlim (R126, R127). -/
def FeOp.waits : FeOp → Bool
  | .ld => true | .ldt => true | .st => true | .stRel => true | .clr => false | .probe => false

/-- Issue checks of a full/empty or landing instruction on `n` bytes (R124). -/
def sramChk (n x size : Nat) (rs : List Nat) (c : Cap) : Chk Nat := do
  capUse c n rs
  bound c (xOff c x) size
  rights (isSram c.o) c n
  aligned (offVal (xOff c x)) size
  pure (xOff c x).toNat

/-- A full/empty instruction on the word at c.base + x[o]; `val` is stored, x[d] receives the answer. The outstanding fractions of an
object for which a st.fe.rel still waits are looked at when it is sent. -/
def feOp (i : Instr) (op : FeOp) (la n o : Nat) (val : Word) (d : Nat) (s : State) : Out :=
  if op.waits && s.me.occ = .codelet then s.illegal i
  else match s.winFull with
  | some s' => .next s'
  | none =>
    let c := s.c n
    if s.amoBusy s.cur then .next (s.holdOn .sync)
    else if s.heldBy c op.writes then .next (s.holdOn (.object c.o op.writes))
    else match sramChk n (s.xn o) 8 op.rights c with
      | .error f => s.trap f.1 f.2
      | .ok off =>
        let f := s.check18 c s.gta s.me.lkey op.writes
        if f.isSome && !(op == .stRel && s.drains s.cur s.nextId && (f.getD (0, 0)).1 == cCAP_RIGHTS) then
          .next ((s.noteRefusal s.gta c.o (f.getD (0, 0))).openW la i (.fail (f.getD (0, 0)).1 (f.getD (0, 0)).2))
        else
          if op.stores && s.refusedWrite c.o (s.entry c.o) off 8 == some 0 then s.trap cCAP_RIGHTS (rightsVal c n)
          else
            let s := if op == .clr && !isOwn s.gta c.o then s.endRestart else s
            let w := s.me.nextWid
            .next ((s.openW la i (.wait (.fe op c off val d false false (if op == .stRel then s.nextId else 0)))
              (if op.waits then limit s.me.wlim else none)).feSend s.cur w)

/-- LD_FE. -/
def execLdFe (la c o d : Nat) (s : State) : Out := feOp (.ldFe la c o d) .ld la c o 0 d s
/-- LD_FET. -/
def execLdFet (la c o d : Nat) (s : State) : Out := feOp (.ldFet la c o d) .ldt la c o 0 d s
/-- ST_FE. -/
def execStFe (la c o r : Nat) (s : State) : Out := feOp (.stFe la c o r) .st la c o (s.x r) 0 s
/-- ST_FE_REL. -/
def execStFeRel (la c o r : Nat) (s : State) : Out := feOp (.stFeRel la c o r) .stRel la c o (s.x r) 0 s
/-- FE_CLR. -/
def execFeClr (la c o : Nat) (s : State) : Out := feOp (.feClr la c o) .clr la c o 0 0 s
/-- FE_PROBE. -/
def execFeProbe (la c o d : Nat) (s : State) : Out := feOp (.feProbe la c o d) .probe la c o 0 d s

/-! ### Landing instructions (R130) -/

/-- A landing instruction on the pair at c.base + x[o]: `k` runs after every check, with the pair's flat address and the capability. -/
def landOp (i : Instr) (la n o : Nat) (write : Bool) (k : Nat → Nat → Cap → State → Out) (s : State) : Out :=
  match s.winFull with
  | some s' => .next s'
  | none =>
    let c := s.c n
    if s.heldBy c write then .next (s.holdOn (.object c.o write))
    else match sramChk n (s.xn o) 16 [if write then rW else rR] c with
      | .error f => s.trap f.1 f.2
      | .ok off =>
        match s.check18 c s.gta s.me.lkey write with
        | some f => .next ((s.noteRefusal s.gta c.o f).openW la i (.fail f.1 f.2))
        | none =>
          let bad := s.badIn c.o (s.entry c.o) off 16
          if bad ≠ 0 then
            .next ((s.poisonObj c.o).openW la i (.fail (if bad = 2 then cINTEGRITY else cCAP_POISON) c.o))
          else k off (s.feAddr c off) c s

/-- LAND_ARM: the target set, the count and the err and ovf bits cleared, gen unchanged. -/
def execLandArm (la c o r : Nat) (s : State) : Out :=
  landOp (.landArm la c o r) la c o true (fun off a cp s =>
    match s.refusedWrite cp.o (s.entry cp.o) off 16 with
    | some 0 => s.trap cCAP_RIGHTS (rightsVal cp c)
    | some _ => .next (s.openW la (.landArm la c o r) (.fail cCAP_RIGHTS cp.o))
    | none =>
      let s := if isOwn s.gta cp.o then s else s.endRestart
      let target := bits (s.xn r) 0 56
      let w0 := setBits (s.land0 a) 0 56 target
      let w1 := if target = 0 then 0 else 2 ^ 56
      .next ((State.settle { s with mem := mwrite (mwrite s.mem a (toBytes 8 w0)) (a + 8) (toBytes 8 w1) }).openW la
        (.landArm la c o r) (.done {}))) s
/-- LAND_WAIT: waits until gen differs from x[r][7:0] or err is set; x[r] := word 0. -/
def execLandWait (la c o r : Nat) (s : State) : Out :=
  if s.me.occ = .codelet then s.illegal (.landWait la c o r)
  else landOp (.landWait la c o r) la c o false (fun off _ cp s =>
    .next (State.settle (s.openW la (.landWait la c o r) (.wait (.land cp off (s.xn r) r)) (limit s.me.wlim)))) s
/-- LAND_GET: both words as one operation; with x14 the second goes to x15. -/
def execLandGet (la c o d : Nat) (s : State) : Out :=
  landOp (.landGet la c o d) la c o false (fun _ a _ s =>
    .next (s.openW la (.landGet la c o d)
      (.done { xs := [(d, BitVec.ofNat 64 (s.land0 a)), (d + 1, BitVec.ofNat 64 (s.land1 a))] }))) s

end Sys2Proof.Machine
end

