-- ==== Sys2Proof/Machine/Amo.lean ====
section
/-! DEFINITION. The atomics (06 R153 to R166), and the residency retries of any access (05 R133). -/
namespace Sys2Proof.Machine

/-! ### Synchronising operations (R146, R154) -/

/-- The window holds a full/empty operation without its answer. -/
def Win.feWait (w : Win) : Bool := match w.st with
  | .wait (.fe ..) => true
  | _ => false
/-- The command is a send. -/
def CmdOp.isSend : CmdOp → Bool
  | .send .. => true
  | _ => false
/-- An earlier synchronising operation of strand `k` other than an atomic is not complete: a full/empty operation without its
answer, a send that has not started, a publication that its home has not recorded. -/
def State.syncBusy (s : State) (k : Nat) : Bool :=
  (s.slot k).wins.any Win.feWait || s.cmds.any (fun c => c.key == k && c.op.isSend && !c.went)
    || s.treqs.any (fun r => r.k == k && !r.decl)

/-! ### The home (R163 to R166) -/

/-- f(old, operand) of the word atomics, and the flags of amo.fadd. -/
def amoF (op rm : Nat) (old a b : Word) : Word × Nat :=
  match op with
  | 0 => (old + a, 0)
  | 1 => (old &&& a, 0)
  | 2 => (old ||| a, 0)
  | 3 => (old ^^^ a, 0)
  | 4 => (if old.sle a then old else a, 0)
  | 5 => (if old.sle a then a else old, 0)
  | 6 => (if old.ule a then old else a, 0)
  | 7 => (if old.ule a then a else old, 0)
  | 8 => (a, 0)
  | 9 => (if old = a then b else old, 0)
  | _ =>
    let lane (i : Nat) : Nat × Nat :=
      let v := vadd rm (readFmt 0 (bits old.toNat (32 * i) 32)).1 (readFmt 0 (bits a.toNat (32 * i) 32)).1
      let r := roundFmt 0 v.1 rm
      (r.1, v.2 ||| r.2)
    (BitVec.ofNat 64 ((lane 1).1 * 2 ^ 32 + (lane 0).1), (lane 0).2 ||| (lane 1).2)

/-- A doubleword of the object. -/
def State.objWord (s : State) (o : Nat) (e : Entry) (off : Nat) : Nat := ofBytes (s.objBytes o e off 8)
/-- A doubleword of the object written. -/
def State.putWord (s : State) (o : Nat) (e : Entry) (off v : Nat) : State := s.writeObj o e off (toBytes 8 v)

/-- The header of the queue at `off`: head, tail, slot count; none when it is invalid (R166). -/
def State.queue (s : State) (c : Cap) (e : Entry) (off : Nat) : Option (Nat × Nat × Nat) :=
  let h := s.objWord c.o e off
  let t := s.objWord c.o e (off + 8)
  let n := s.objWord c.o e (off + 16)
  if 2 ^ 48 ≤ h || 2 ^ 48 ≤ t || 2 ^ 32 ≤ n || n = 0 || n < (t + (2 ^ 48 - h)) % 2 ^ 48 || c.top < off + 32 + 8 * n then none
  else some (h, t, n)

/-- amo.enq and amo.deq at the home (R166). `off`, x destinations d and s, the value. -/
def State.queueOp (s : State) (deq : Bool) (c : Cap) (e : Entry) (off d r : Nat) (v : Word) : State × WinSt :=
  match s.queue c e off with
  | none => (s, .fail cENGINE 10)
  | some (h, t, n) =>
    let ones : Word := BitVec.allOnes 64
    if deq then
      if t = h then (s, .done { xs := [(d, ones), (r, 0)], acquire := true })
      else
        let x := s.objWord c.o e (off + 32 + 8 * (h % n))
        (s.putWord c.o e off ((h + 1) % 2 ^ 48), .done { xs := [(d, BitVec.ofNat 64 h), (r, BitVec.ofNat 64 x)], acquire := true })
    else if (t + (2 ^ 48 - h)) % 2 ^ 48 = n then (s, .done { xs := [(d, ones)], acquire := true })
    else ((s.putWord c.o e (off + 32 + 8 * (t % n)) v.toNat).putWord c.o e (off + 8) ((t + 1) % 2 ^ 48),
      .done { xs := [(d, BitVec.ofNat 64 t)], acquire := true })

/-- The slot of the queue at `off` that amo.deq or amo.enq accesses, by its offset in the object; none when it accesses none (R166). -/
def State.queueSlot (s : State) (deq : Bool) (c : Cap) (e : Entry) (off : Nat) : Option Nat :=
  match s.queue c e off with
  | none => none
  | some (h, t, n) =>
    if (if deq then t = h else (t + (2 ^ 48 - h)) % 2 ^ 48 = n) then none
    else some (off + 32 + 8 * ((if deq then h else t) % n))

/-- Bytes that an atomic's checks cover. -/
def amoSize (op : Nat) : Nat := if op < 11 then 8 else 32

/-- An atomic of strand `k` at its port and home (04 R87, R163). It runs on an AMO-class object only (R158; log 97). -/
def State.amoReq (s : State) (k : Nat) (c : Cap) (lkey : Word) (op off d r : Nat) (a b : Word) (rm : Nat)
    (w : Option Nat := none) : State × WinSt :=
  let g := k / 16
  let e := s.entry c.o
  match s.check18 c g lkey true with
  | some f => (s.noteRefusal g c.o f, .fail f.1 f.2)
  | none =>
    if !e.amo then (s, .fail cCAP_RIGHTS c.o)
    else if !s.rangeHere c.o e off (amoSize op) then s.notHere k c lkey (.amo op off d r a b rm) w
    else
      let bad := s.badIn c.o e off (amoSize op)
      if bad ≠ 0 then (s.poisonObj c.o, .fail (if bad = 2 then cINTEGRITY else cCAP_POISON) c.o)
      else if s.versionEnd c.o e off (amoSize op) then (s.poisonObj c.o, .fail cINTEGRITY c.o)
      else if op < 11 then
        let old := BitVec.ofNat 64 (s.objWord c.o e off)
        let r := amoF op rm old a b
        (s.putWord c.o e off r.1.toNat, .done { xs := [(d, old)], flags := r.2, acquire := true })
      else match s.queueSlot (op == 12) c e off with
        | none => s.queueOp (op == 12) c e off d r a
        | some a8 =>
          if !s.rangeHere c.o e a8 8 then s.notHere k c lkey (.amo op off d r a b rm) w
          else
            let bad := s.badIn c.o e a8 8
            if bad ≠ 0 then (s.poisonObj c.o, .fail (if bad = 2 then cINTEGRITY else cCAP_POISON) c.o)
            else if op = 11 && s.versionEnd c.o e a8 8 then (s.poisonObj c.o, .fail cINTEGRITY c.o)
            else s.queueOp (op == 12) c e off d r a

/-- Any request of strand `k` at its port, for its window `w` or the one it opens next. -/
def State.request (s : State) (k : Nat) (c : Cap) (lkey : Word) (req : Req) (w : Option Nat := none) : State × WinSt :=
  match req with
  | .amo op off d r a b rm => s.amoReq k c lkey op off d r a b rm w
  | .load ps dst => s.memReq k c lkey (.load ps dst) w
  | .store ps => s.memReq k c lkey (.store ps) w

/-! ### The instructions -/

/-- Issue checks of an atomic. -/
def amoChk (n x size align : Nat) (c : Cap) : Chk Nat := do
  capUse c n [rA]
  bound c (xOff c x) size
  aligned (offVal (xOff c x)) align
  rights (oidPort c.o == 68) c n
  pure (xOff c x).toNat

/-- An atomic: register r and, for amo.cas, r + 1 are its operands; x[d] gives the offset and receives the old value. -/
def amoOp (i : Instr) (op la n r d : Nat) (s : State) : Out :=
  match s.winFull with
  | some s' => .next s'
  | none =>
    let c := s.c n
    if s.amoBusy s.cur then .next (s.holdOn .sync)
    else if s.heldBy c true then .next (s.holdOn (.object c.o true))
    else match amoChk n (s.xn d) (amoSize op) (amoSize op) c with
      | .error f => s.trap f.1 f.2
      | .ok off =>
        let s := s.endRestart
        if s.syncBusy s.cur then
          .next (s.openW la i (.wait (.unsent c s.me.lkey (.amo op off d r (s.x r) (s.x (r + 1)) s.me.rm))))
        else
          let q := s.amoReq s.cur c s.me.lkey op off d r (s.x r) (s.x (r + 1)) s.me.rm
          .next (q.1.openW la i q.2)

/-- The atomic or the store of window `w` of strand `k`, kept back until now, is sent (R154; 05 R138). -/
def State.sendAtomic (s : State) (k w : Nat) : Option State :=
  match (s.slot k).wins.find? (fun x => x.id == w) with
  | some x => (match x.st with
    | .wait (.unsent c lkey req) =>
      if s.syncBusy k || s.lateOn k c.o then none
      else let q := s.request k c lkey req (some w); some (q.1.endWin k w q.2)
    | _ => none)
  | none => none

/-- AMO_ADD. -/
def execAmoAdd (la c r d : Nat) (s : State) : Out := amoOp (.amoAdd la c r d) 0 la c r d s
/-- AMO_AND. -/
def execAmoAnd (la c r d : Nat) (s : State) : Out := amoOp (.amoAnd la c r d) 1 la c r d s
/-- AMO_OR. -/
def execAmoOr (la c r d : Nat) (s : State) : Out := amoOp (.amoOr la c r d) 2 la c r d s
/-- AMO_XOR. -/
def execAmoXor (la c r d : Nat) (s : State) : Out := amoOp (.amoXor la c r d) 3 la c r d s
/-- AMO_MIN. -/
def execAmoMin (la c r d : Nat) (s : State) : Out := amoOp (.amoMin la c r d) 4 la c r d s
/-- AMO_MAX. -/
def execAmoMax (la c r d : Nat) (s : State) : Out := amoOp (.amoMax la c r d) 5 la c r d s
/-- AMO_MINU. -/
def execAmoMinu (la c r d : Nat) (s : State) : Out := amoOp (.amoMinu la c r d) 6 la c r d s
/-- AMO_MAXU. -/
def execAmoMaxu (la c r d : Nat) (s : State) : Out := amoOp (.amoMaxu la c r d) 7 la c r d s
/-- AMO_SWAP. -/
def execAmoSwap (la c r d : Nat) (s : State) : Out := amoOp (.amoSwap la c r d) 8 la c r d s
/-- AMO_CAS. -/
def execAmoCas (la c r d : Nat) (s : State) : Out := amoOp (.amoCas la c r d) 9 la c r d s
/-- AMO_FADD. -/
def execAmoFadd (la c r d : Nat) (s : State) : Out := amoOp (.amoFadd la c r d) 10 la c r d s
/-- AMO_ENQ. -/
def execAmoEnq (la c r d : Nat) (s : State) : Out := amoOp (.amoEnq la c r d) 11 la c r d s
/-- AMO_DEQ. -/
def execAmoDeq (la c r d : Nat) (s : State) : Out := amoOp (.amoDeq la c r d) 12 la c r d s

end Sys2Proof.Machine
end

