-- ==== Sys2Proof/Machine/Objects.lean ====
section
/-! DEFINITION. Objects and their ends: allocation units (04 R85), generations (R107), freeing (R106), returning fractions and fill
delegates (R100, R101), the placing of capabilities in the holding table (R91), and the descriptors that a freed object held
(11 R285). -/
namespace Sys2Proof.Machine

/-! ### Generations and entries -/

/-- The generation advanced: past 0xFFF the entry is retired (R107); a retired entry carries 4,096, which no capability holds. -/
def genNext (g : Nat) : Nat := if 4096 ≤ g then g else g + 1
/-- The generation after that of object `o`: a launch-record object's passes from 0xFFF to 1 (R107). -/
def genAfter (o g : Nat) : Nat := if oidPort o < 64 && oidIdx o == 1023 && g == 4095 then 1 else genNext g
/-- Entries of a port's table (R83). -/
def tableSize (p : Nat) : Nat := if p < 64 then 1023 else if p < 68 then 8192 else 32768
/-- Allocation unit of a port (R85). -/
def unitOf (p : Nat) : Nat := if p < 68 then 64 else 65536
/-- `n` rounded up to a multiple of `u`. -/
def roundTo (n u : Nat) : Nat := (n + u - 1) / u * u
/-- The lowest free entry of a port, from `i` on (R104). -/
def State.freeEntryFrom (s : State) (sp : Nat) : Nat → Nat → Option Nat
  | 0, _ => none
  | fuel + 1, i =>
    let e := s.entry (sp * 2 ^ 15 + i)
    if !e.valid && e.gen < 4096 then some i else s.freeEntryFrom sp fuel (i + 1)
/-- The lowest free entry of a port. -/
def State.freeEntry (s : State) (sp : Nat) : Option Nat := s.freeEntryFrom sp (tableSize (sp % 128) - 1) 1

/-- The object uses some byte of [b, b + n) of its port's storage. -/
def State.usesUnits (s : State) (o : Nat) (e : Entry) (b n : Nat) : Bool :=
  e.valid && (if e.ext then (s.extents o e).any fun x => decide (x * 65536 < b + n) && decide (b < x * 65536 + 65536)
    else decide (e.base < b + n) && decide (b < e.base + roundTo e.len (unitOf (oidPort o))))
/-- Granules of port 69 granted on a die (15 R374): its storage. -/
def State.granted (s : State) (die : Nat) : Nat :=
  s.worlds.foldl (fun n p => p.2.grants.foldl (fun n x => if x.1 = die then n + x.2.2.2 else n) n) 0
/-- Some unit of [b, b + n) at port `sp` is marked (R85), or lies outside the granted storage of a host port (15 R374; log 81). -/
def State.unitsMarked (s : State) (sp b n : Nat) : Bool :=
  s.entries.any (fun p => oidSp p.1 == sp && s.usesUnits p.1 p.2 b n)
    || (s.umark ++ s.dead).any (fun p => decide (p.1 < flat sp b + n) && decide (flat sp b < p.1 + p.2))
    || (sp % 128 == 69 && decide (s.granted (sp / 128) * 65536 < b + n))

/-! ### Holding table -/

/-- Entry `i` of tile `g` (R91). -/
def State.holdAt (s : State) (g i : Nat) : Cap := sget .null s.hold (g * 4096 + i)
/-- The entry written. -/
def State.putHold (s : State) (g i : Nat) (c : Cap) : State := { s with hold := sput .null s.hold (g * 4096 + i) c }
/-- The entry is claimed. -/
def State.claimed (s : State) (g i : Nat) : Bool := sget 0 s.claims (g * 4096 + i) != 0
/-- A claim set or released (0). -/
def State.setClaim (s : State) (g i v : Nat) : State := { s with claims := sput 0 s.claims (g * 4096 + i) v }

/-! ### Descriptors of a freed object (11 R283, R285) -/

/-- The same without a grant, where the descriptor is `h`. -/
def Waiter.unGrant (h : Nat) (w : Waiter) : Waiter := if w.handle = h then { w with grant := none } else w
def TagEnt.unGrant (h : Nat) (t : TagEnt) : TagEnt := { t with waiters := t.waiters.map (·.unGrant h) }
def TagReq.unGrant (h : Nat) (r : TagReq) : TagReq := if r.decl && r.handle = h then { r with grant := none } else r
def Fallback.unGrant (h : Nat) (f : Fallback) : Fallback := if f.handle = h then { f with grant := none } else f

/-- A commit buffer's declaration without its grant, where the descriptor is `h`; that grant. -/
def CbEnt.unGrant (h : Nat) : CbEnt → CbEnt
  | .decl c h' k gen gr => .decl c h' k gen (if h' = h then none else gr)
  | e => e
def CbEnt.grantOf (h : Nat) : CbEnt → Option Nat
  | .decl _ h' _ _ gr => if h' = h then gr else none
  | _ => none

/-- The holding indices of a descriptor's pending grants, by its handle (R298), those of declarations in commit buffers among them. -/
def State.grantsOf (s : State) (h : Nat) : List Nat :=
  let ofTags : List (Option Nat) := s.tags.flatMap fun (p : Nat × List TagEnt) => p.2.flatMap fun (t : TagEnt) =>
    t.waiters.map fun (w : Waiter) => if w.handle = h then w.grant else none
  let ofReqs : List (Option Nat) := s.treqs.map fun (r : TagReq) => if r.decl && r.handle = h then r.grant else none
  let ofFbs : List (Option Nat) := (s.tile (hHome h)).fbs.map fun (f : Fallback) => if f.handle = h then f.grant else none
  let ofBufs : List (Option Nat) := (s.slots ++ s.saved).flatMap fun (p : Nat × Slot) => p.2.cbuf.map (CbEnt.grantOf h)
  (ofTags ++ ofReqs ++ ofFbs ++ ofBufs).filterMap id

/-- The pending grants of a descriptor, by its handle, are cleared: their claims are released and the entries hold null. -/
def State.clearGrants (s : State) (h : Nat) : State :=
  let s : State := (s.grantsOf h).foldl (fun s i => s.setClaim (hHome h) i 0) s
  let clear (t : Slot) : Slot := if t.cbuf.isEmpty then t else { t with cbuf := t.cbuf.map (CbEnt.unGrant h) }
  let s : State := { s with tags := s.tags.map (fun p => (p.1, p.2.map (·.unGrant h))), treqs := s.treqs.map (·.unGrant h),
                            slots := s.slots.map (fun p => (p.1, clear p.2)), saved := s.saved.map fun p => (p.1, clear p.2) }
  if (s.tile (hHome h)).fbs.isEmpty then s else s.updTile (hHome h) fun t => { t with fbs := t.fbs.map (·.unGrant h) }

/-- The ready queue without one descriptor; the chain is linked again (R287). -/
def State.unready (s : State) (g a : Nat) : State :=
  let relink (s : State) (q : List (Nat × Bool)) : State :=
    (q.zip (q.drop 1)).foldl (fun s p => if p.1.2 then s else s.dput g p.1.1 0x18 8 p.2.1) s
  ((s.tile g).ready.foldl (fun s p =>
    let q := p.2.filter fun d => d.1 != a
    if q.length = p.2.length then s
    else relink (s.updTile g fun t => { t with ready := sput [] t.ready p.1 q }) q) s)

/-- The descriptor at pool address `a` of tile `g` is abandoned, whatever its state, and its live mark cleared; the codelet of a Running
one, in its slot or saved out of it, is detached (R285). -/
def State.abandon (s : State) (g a : Nat) : State :=
  let st := s.dstate g a
  let h := mkHandle (s.dget g a 6 2) g a
  let s := { s with marks := sput 0 s.marks (flat (ownSp g) a) 0 }
  if st = 1 then (s.clearGrants h).dsetState g a 0
  else if st = 2 then (s.unready g a).dsetState g a 0
  else
    let cut (t : Slot) : Slot := if t.occ = .codelet && t.desc = a then { t with desc := 0 } else t
    State.forSlots { s with saved := s.saved.map fun p => (p.1, if p.1 / 2 ^ 48 = ownSp g then cut p.2 else p.2) } g (fun _ t => cut t) 16

/-- Live descriptors in [b, b + n) of a tile's pool. -/
def State.liveIn (s : State) (g b n : Nat) : List Nat :=
  (s.marks.filter fun m => m.2 % 2 == 1 && decide (flat (ownSp g) b ≤ m.1) && decide (m.1 < flat (ownSp g) (b + n))).map
    fun m => m.1 - flat (ownSp g) 0

/-- The object at a tile port holds a live descriptor. -/
def State.holdsLive (s : State) (o : Nat) (e : Entry) : Bool :=
  decide (oidPort o < 64) && !(s.liveIn (oidDie o * 64 + oidPort o) e.base e.len).isEmpty

/-! ### Keys -/

/-- Valid entries that name a key (14 R356). -/
def State.keyCount (s : State) (k : Nat) : Nat := (s.entries.filter fun p => p.2.valid && p.2.keyid == k).length
/-- A key leaving Ended, or reset: Free with the epoch advanced, or Retired (14 R356). -/
def Key.release (k : Key) : Key := if k.epoch = 0xFFFE then { k with st := .retired } else { st := .free, epoch := k.epoch + 1, world := 0 }
/-- A key in Ended that no valid entry names any more becomes Free or Retired. -/
def State.keySettle (s : State) (k : Nat) : State :=
  if k ≠ 0 && (s.key k).st == .ended && s.keyCount k = 0 then { s with keys := sput {} s.keys k (s.key k).release } else s

/-! ### Freeing -/

/-- L2 sectors of an object dropped without write-back (R106). -/
def State.dropSectors (s : State) (o : Nat) (e : Entry) : State :=
  let sp := oidSp o
  let mine (k : Nat) : Bool :=
    k * 256 / 2 ^ 48 == sp &&
      (let a := k * 256 % 2 ^ 48
       if e.ext then (s.extents o e).contains (a / 65536) else decide (e.base ≤ a) && decide (a < e.base + roundTo e.len 65536))
  (s.l2.filter fun p => mine p.1).foldl (fun s p => s.secDrop p.1) s

/-- Words of an object that carry the poison syndrome written as zero (R111). -/
def State.scrub (s : State) (o : Nat) (e : Entry) : State :=
  if s.badw.isEmpty then s
  else
    let lo := flat (oidSp o) e.base
    let mine (w : Nat) : Bool :=
      if e.ext then w * 8 / 2 ^ 48 == oidSp o && (s.extents o e).contains (w * 8 % 2 ^ 48 / 65536)
      else decide (lo ≤ w * 8) && decide (w * 8 < lo + e.len)
    let ws := s.badw.filter fun p => mine p.1
    { s with mem := ws.foldl (fun m p => mzero m (p.1 * 8) 8) s.mem, badw := s.badw.filter fun p => !mine p.1 }

/-- Frees the entry of object `o` (R106): sectors dropped, poison rewritten, units unmarked, the generation advanced by `adv`; live
descriptors abandoned, and marks of capability bytes cleared. -/
def State.freeObj (s : State) (o : Nat) (adv : Bool := true) : State :=
  let e := s.entry o
  let s := if isSram o then s else s.dropSectors o e
  let s := if e.poison then s.scrub o e else s
  let g := oidDie o * 64 + oidPort o
  let s := if oidPort o < 64 then (s.liveIn g e.base e.len).foldl (fun s a => s.abandon g a) s else s
  let lo := flat (oidSp o) e.base
  let cleared (m : Nat × Nat) : Bool := m.2 % 2 == 0 && decide (lo ≤ m.1) && decide (m.1 < lo + e.len)
  let s := if isSram o && s.marks.any cleared then
      { s with marks := s.marks.filter fun m => !cleared m,
               mcaps := s.mcaps.filter fun m => !(decide (lo ≤ m.1) && decide (m.1 < lo + e.len)) } else s
  let s := if e.ext then { s with umark := sput 0 s.umark (flat (oidDie o * 128 + 68) e.base) 0 } else s
  ((s.putEntry o { gen := if adv then genAfter o e.gen else e.gen }).keySettle e.keyid).lateServe o

/-! ### Returning fractions and delegates (R100, R101) -/

/-- The counts of the object after fraction or delegate `c` is returned. -/
def Entry.returned (e : Entry) (c : Cap) : Entry :=
  if c.has rQ then { e with fracs := e.fracs - 1 } else { e with fills := e.fills - 1 }

/-- A fraction or delegate returned from tile `g`, without any wait: a refusal at steps 1 to 5 leaves the count (R101). -/
def State.returnCap (s : State) (g : Nat) (c : Cap) : State :=
  if c.has rQ || c.has rL then
    let s := if c.has rQ then s.l1Discard g else s
    match s.check15 c g true with
    | some _ => s
    | none => s.updEntry c.o (·.returned c)
  else s

/-- A capability discarded by a port (10 R257): a fraction or delegate is returned, an owned object is freed as in S mode. -/
def State.discardCap (s : State) (g : Nat) (c : Cap) : State :=
  if c = .null then s
  else if c.has rQ || c.has rL then s.returnCap g c
  else if c.isOwner && (s.check15 c g true).isNone && oidIdx c.o ≠ 0 then s.freeObj c.o
  else s

end Sys2Proof.Machine
end

