-- ==== Sys2Proof/Machine/Caps.lean ====
section
/-! DEFINITION. The capability instructions (04 R92 to R106). A port's answer comes in the step that issues the instruction; its
time is not kept (log 7). -/
namespace Sys2Proof.Machine

/-! ### Waits on an object (R100, R101) -/

/-- The operation that waits reaches the object. -/
def Wait.on (o : Nat) : Wait → Bool
  | .fe _ c _ _ _ _ _ _ => c.o == o
  | .land c _ _ _ => c.o == o
  | .resident c _ _ _ => c.o == o
  | .unsent c _ _ => c.o == o
  | .remote _ o' _ => o' == o
  | .pop c dst _ _ => c.o == o || dst.o == o
  | .push c src _ => c.o == o || src.o == o
  | .save _ c _ => c.o == o
  | _ => false
/-- The window's operation on the object has not completed. -/
def Win.onObj (o : Nat) (w : Win) : Bool := match w.st with
  | .wait x => x.on o
  | _ => false
/-- The window holds a store, an atomic or the record of a str.save on the object that has not been applied. -/
def Win.storeOn (o : Nat) (w : Win) : Bool := match w.st with
  | .wait (.resident c _ (.store _) _) => c.o == o
  | .wait (.resident c _ (.amo ..) _) => c.o == o
  | .wait (.unsent c _ _) => c.o == o
  | .wait (.remote _ o' (.store _)) => o' == o
  | .wait (.fe op c _ _ _ _ _ _) => c.o == o && op.stores
  | .wait (.save _ c _) => c.o == o
  | _ => false
/-- An earlier access or engine command of strand `k` reaches the object and has not completed (R100); a store in its commit buffer counts as
completed (log 61). -/
def State.objBusy (s : State) (k o : Nat) : Bool :=
  (s.slot k).wins.any (Win.onObj o) || s.lateOn k o || s.cmds.any fun c => c.key == k && (c.reads.contains o || c.writes.contains o)
/-- An earlier store of strand `k` to the object has not been applied, but for those that its commit buffer holds (05 R134). -/
def State.storesOn (s : State) (k o : Nat) : Bool := (s.slot k).wins.any (Win.storeOn o) || s.lateOn k o
/-- An earlier store of strand `k` to the object, or a write of its engine commands, is not visible at the port (R99, R106). -/
def State.storeBusy (s : State) (k o : Nat) : Bool :=
  s.storesOn k o || (s.slot k).buffers o || s.cmds.any fun c => c.key == k && c.writes.contains o
/-- The instruction waits for the drain of its strand's stores to the object; those of its commit buffer are written out. -/
def State.drainOn (s : State) (o : Nat) : State := (s.cbufDrain s.cur o).holdOn (.drain o)

/-- A capability that is dropped as cdrop drops it must wait (R101). -/
def State.dropWaits (s : State) (c : Cap) : Bool := (c.has rQ || c.has rL) && s.objBusy s.cur c.o
/-- c[d] := v, the old value dropped (R92). -/
def State.putC (s : State) (d : Nat) (v : Cap) : State := (s.returnCap s.gta (s.c d)).upd (·.setC d v)
/-- Completes an instruction that writes v into c[d], once the old value may be dropped. -/
def State.finishC (s : State) (d : Nat) (v : Cap) (f : Slot → Slot := id) : Out :=
  if s.dropWaits (s.c d) then .next (s.holdOn (.drop (s.c d).o)) else (s.putC d v).finish f

/-- Runs `k` unless a check fails. -/
def checked {α : Type} (c : Chk α) (s : State) (k : α → Out) : Out := match c with
  | .error f => s.trap f.1 f.2
  | .ok x => k x
/-- Runs `k` unless the port refuses, which is a precise trap (R94). -/
def portOk (f : Option (Nat × Nat)) (o : Nat) (s : State) (k : Out) : Out := match f with
  | some f => (s.noteRefusal s.gta o f).trap f.1 f.2
  | none => k

/-- A port's refusal taken precisely at capability register `n`, which holds `c`: CAP_RIGHTS then names the rights and the register (13
R339). -/
def preciseFault (c : Cap) (n : Nat) (f : Nat × Nat) : Nat × Nat := if f.1 = cCAP_RIGHTS then (f.1, rightsVal c n) else f

/-- Runs `k` unless bytes [off, off + n) of the object, which the port reads for the instruction, hold a word with the poison syndrome: the
object is poisoned, and the access fails (13 R345), precisely. -/
def goodBytes (c : Cap) (off n : Nat) (s : State) (k : Out) : Out :=
  let bad := s.badIn c.o (s.entry c.o) off n
  if bad = 0 then k else (s.poisonObj c.o).trap (if bad = 2 then cINTEGRITY else cCAP_POISON) c.o

/-- A capability over a tile's launch-record object (R85). -/
def Cap.launchRecord (c : Cap) : Bool := decide (oidPort c.o < 64) && oidIdx c.o == 1023
/-- Steps 1 to 5 of R87 for a capability over an object or over a window, whose entry is that of its station's table (15 R380). -/
def State.check15w (s : State) (c : Cap) (g : Nat) (anyKey : Bool := false) : Option (Nat × Nat) :=
  if isWindow c.o then (match s.winOf c with
    | .ok _ => none
    | .error f => some f)
  else s.check15 c g anyKey
/-- The length of the object, or of the window, that an object id names. -/
def State.objLen (s : State) (o : Nat) : Nat := match s.winEnt o with
  | some e => e.len
  | none => (s.entry o).len
/-- Steps 1 to 6 of R87. -/
def State.check16 (s : State) (c : Cap) (g : Nat) : Option (Nat × Nat) :=
  match s.check15 c g with
  | some f => some f
  | none => if (s.entry c.o).poison then some (cCAP_POISON, c.o) else none

/-! ### Holding table (R95) -/

/-- Checks of a holding index: below 4,096, and a supervisor entry only outside U (R91). -/
def holdIndex (i : Instr) (n : Nat) (s : State) (k : Out) : Out :=
  if 4096 ≤ n then s.trap cHOLD_INDEX n
  else if 3840 ≤ n && s.me.mode == .u then s.modeFault i
  else if sget 0 s.badh (s.gta * 4096 + n) ≠ 0 then s.trap cMCHECK (3 + n * 2 ^ 16)
  else k

/-- Visible messages of mailbox `mb` that no strand has taken are discarded with their capabilities, and the slots of its records hold
capabilities no longer (10 R257). -/
def State.mboxUnregister (s : State) (g mb : Nat) : State :=
  let rs := sget [] (s.tile g).mboxes mb
  let s := rs.foldl (fun s r => if r.complete && !r.taken then s.discardCap g r.cap else s) s
  let s : State := rs.foldl (fun (s : State) r => if r.slot = 0 then s else
    { s with marks := sput 0 s.marks r.slot 0, mcaps := sput .null s.mcaps r.slot .null }) s
  s.updTile g fun t => { t with mboxes := sput [] t.mboxes mb [] }
/-- Pool address of the buffer object and D, when mailbox `mb` of tile `g` is registered (10 R257). -/
def State.mbox (s : State) (g mb : Nat) : Option (Nat × Nat) :=
  let c := s.holdAt g (3840 + mb)
  let e := s.entry c.o
  if c ≠ .null && c.isOwner && c.has rR && c.has rW && c.b = 0 && isOwn g c.o && e.valid && e.gen = c.g && e.owner = g
      && e.len % 64 = 0 && 32768 + 64 ≤ e.len then some (e.base, e.len - 64) else none
/-- The header of the buffer of mailbox `mb` lies in live descriptor bytes or in bytes that hold capabilities: its object. -/
def State.headerMarked (s : State) (g mb : Nat) : Option Nat := match s.mbox g mb with
  | some (b, _) => if s.noWrite (flat (ownSp g) b) 64 then some (s.holdAt g (3840 + mb)).o else none
  | none => none
/-- The header of the buffer of a mailbox that has been registered set to zero (10 R257), where no mark refuses the write (11 R285). -/
def State.mboxRegister (s : State) (g mb : Nat) : State := match s.mbox g mb with
  | some (b, _) =>
    if (s.headerMarked g mb).isSome then s
    else State.settle ({ s with mem := mzero s.mem (flat (ownSp g) b) 64 }.goodWords (flat (ownSp g) b) 64)
  | none => s

/-- A holding entry written; a registration entry that becomes null unregisters its mailbox, and one that becomes non-null registers it (10
R257). -/
def State.setHold (s : State) (g i : Nat) (c : Cap) : State :=
  let s' := s.putHold g i c
  if i < 3840 || 3848 ≤ i then s'
  else if c = .null then (if s.holdAt g i = .null then s' else s'.mboxUnregister g (i - 3840))
  else if s.holdAt g i = .null then s'.mboxRegister g (i - 3840) else s'

/-- CLD: a claimed entry reads as null and keeps its claim. -/
def execCld (a d : Nat) (s : State) : Out :=
  let n := s.xn a
  holdIndex (.cld a d) n s (
    if s.claimed s.gta n then s.finishC d .null
    else if s.dropWaits (s.c d) then .next (s.holdOn (.drop (s.c d).o))
    else (s.setHold s.gta n .null).finishC d (s.holdAt s.gta n))
/-- CST: an entry that is not null, or claimed, raises HOLD_INDEX. -/
def execCst (a b : Nat) (s : State) : Out :=
  let n := s.xn b
  holdIndex (.cst a b) n s (
    let c := s.c a
    if c = .null then s.trap cCAP_NULL n
    else if c.launchRecord then s.trap cCAP_RIGHTS (rightsVal c a)
    else if s.holdAt s.gta n ≠ .null || s.claimed s.gta n then s.trap cHOLD_INDEX n
    else
      let s' := s.setHold s.gta n c
      let refused := if n < 3840 || 3848 ≤ n then none else s'.headerMarked s.gta (n - 3840)
      s'.finish fun t => match refused with
        | some o => { (t.setC a .null).endCounting with dfs := t.dfs ++ [(t.nextWid, cCAP_RIGHTS, o, t.pc.toNat)] }
        | none => t.setC a .null)
/-- CMV (R96). -/
def execCmv (a d : Nat) (s : State) : Out :=
  if a = d then s.finish id else s.finishC d (s.c a) (·.setC a .null)

/-! ### Splitting and joining (R97, R98) -/

/-- CSPLIT. -/
def execCsplit (a b d : Nat) (s : State) : Out :=
  let c := s.c a
  let o := s.xn b
  checked (do
    notNull c a
    rights (!(c.has rQ || c.has rL || c.has rA)) c a
    if o = 0 || c.l ≤ o then Except.error (cCAP_BOUNDS, o) else pure ()) s fun _ =>
      let hi := { c.clearS with base := BitVec.ofNat 40 (c.b + o), len := BitVec.ofNat 40 (c.l - o) }
      s.finishC d hi (·.setC a { c.clearS with len := BitVec.ofNat 40 o })

/-- The lower of two adjacent pieces, none when they are not adjacent. -/
def lowerPiece (x y : Cap) : Option Cap := if x.top = y.b then some x else if y.top = x.b then some y else none
/-- CJOIN: S returns when the whole is rebuilt. -/
def execCjoin (a d : Nat) (s : State) : Out :=
  let cd := s.c d
  let ca := s.c a
  checked (do
    notNull cd d
    notNull ca a
    if cd.o ≠ ca.o then Except.error (cCAP_BOUNDS, ca.b) else pure ()
    if cd.g ≠ ca.g then Except.error (cCAP_STALE, ca.o) else pure ()
    rights (cd.clearS.rights == ca.clearS.rights && !(cd.has rQ || cd.has rL)) ca a
    match lowerPiece cd ca with
    | some lo => pure lo
    | none => Except.error (cCAP_BOUNDS, ca.b)) s fun lo =>
      portOk (s.check15w cd s.gta) cd.o s (
        let j := { lo with len := BitVec.ofNat 40 (cd.l + ca.l) }
        let whole := j.isOwner && j.b == 0 && j.l == s.objLen j.o && !j.launchRecord
        s.finish fun t => (t.setC d (if whole then { j with rights := j.rights ||| 8#8 } else j)).setC a .null)

/-! ### Fractions and delegates (R99 to R102) -/

/-- The strand's refusal code set, and null in c[d] (R105). -/
def State.refuse (s : State) (d code : Nat) : Out := s.finishC d .null fun t => { t with refusal := code }

/-- CFRAC. -/
def execCfrac (a d : Nat) (s : State) : Out :=
  let c := s.c a
  checked (do
    notNull c a
    rights (c.has rR && !(c.has rQ || c.has rL || c.has rA)) c a) s fun _ =>
      if s.storeBusy s.cur c.o then .next (s.drainOn c.o)
      else portOk (s.check16 c s.gta) c.o s (
        if s.dropWaits (s.c d) then .next (s.holdOn (.drop (s.c d).o))
        else if 4095 ≤ (s.entry c.o).fracs then s.refuse d 5
        else (s.updEntry c.o fun e => { e with fracs := e.fracs + 1 }).finishC d { c with rights := 0x8C#8 }
          fun t => { t with refusal := 0 })
/-- CUNFRAC. -/
def execCunfrac (a d : Nat) (s : State) : Out :=
  let cd := s.c d
  let ca := s.c a
  checked (do
    notNull cd d
    notNull ca a
    rights (ca.has rQ || ca.has rL) ca a
    rights cd.isOwner cd d
    if cd.o ≠ ca.o then Except.error (cCAP_BOUNDS, ca.b) else pure ()
    if cd.g ≠ ca.g then Except.error (cCAP_STALE, ca.o) else pure ()) s fun _ =>
      if s.objBusy s.cur cd.o then .next (s.holdOn (.drop cd.o))
      else portOk (s.check15 cd s.gta true) cd.o s
        ((let s' := s.updEntry cd.o (·.returned ca)
          if ca.has rQ then s'.l1Discard s.gta else s'.l1DropObj s.gta ca.o).finish (·.setC a .null))
/-- CDROP. -/
def execCdrop (a : Nat) (s : State) : Out :=
  if s.dropWaits (s.c a) then .next (s.holdOn (.drop (s.c a).o)) else (s.returnCap s.gta (s.c a)).finish (·.setC a .null)
/-- CFILL. -/
def execCfill (a b d : Nat) (s : State) : Out :=
  let c := s.c a
  let o := bits (s.xn b) 0 32
  let n := bits (s.xn b) 32 32
  checked (do
    notNull c a
    rights (c.has rW && !(c.has rQ || c.has rL) && isSram c.o) c a
    if n = 0 || c.l < o + n then Except.error (cCAP_BOUNDS, s.xn b) else pure ()
    aligned (c.b + o) 8
    aligned n 8) s fun _ =>
      portOk (s.check16 c s.gta) c.o s (
        if s.dropWaits (s.c d) then .next (s.holdOn (.drop (s.c d).o))
        else if 15 ≤ (s.entry c.o).fills then s.refuse d 6
        else (s.updEntry c.o fun e => { e with fills := e.fills + 1 }).finishC d
          { c with base := BitVec.ofNat 40 (c.b + o), len := BitVec.ofNat 40 n, rights := 0x0A#8 } fun t => { t with refusal := 0 })

/-! ### cinfo (R103) -/

/-- The attribute word of an entry, in the layout of obj.new. -/
def Entry.attr (e : Entry) : Nat :=
  b2n e.restartable * 2 ^ 24 + b2n e.amo * 2 ^ 23 + e.pkey * 2 ^ 18 + e.cls * 2 ^ 16 + e.keyid
/-- The fact that a selector names; 8 to 13 read the entry. An object at a failed tile's port, or whose entry holds an error, gives all ones
there too (log 104). -/
def cinfoVal (s : State) (c : Cap) (sel : Nat) : Nat :=
  if sel = 15 then s.me.refusal
  else if sel < 8 then
    match sel with
    | 0 => c.b | 1 => c.l | 2 => c.rights.toNat | 3 => c.o | 4 => c.g
    | 5 => c.bits % 2 ^ 64 | 6 => c.bits / 2 ^ 64 | _ => b2n (c != .null)
  else if c = .null || (s.check15w c s.gta true).isSome then 2 ^ 64 - 1
  else
    let e := s.entry c.o
    match sel with
    | 8 => s.objLen c.o | 9 => e.fracs | 10 => e.fills | 11 => e.owner | 12 => e.attr
    | _ => b2n e.poison + b2n e.resident * 2 + b2n e.amo * 4 + b2n e.restartable * 8
/-- The selector names a field that the entry of a window does not have: its value is free (log 96). -/
def noFact (s : State) (c : Cap) (sel : Nat) : Bool :=
  isWindow c.o && decide (9 ≤ sel) && decide (sel ≤ 13) && (s.check15w c s.gta true).isNone
/-- CINFO. -/
def execCinfo (a imm d : Nat) (s : State) : Out :=
  if noFact s (s.c a) imm then State.finishX { s with free := s.free + 1 } d (Config.freeWord s.free)
  else s.finishX d (BitVec.ofNat 64 (cinfoVal s (s.c a) imm))

/-! ### obj.new and obj.free (R104 to R106) -/

/-- The refusal code of obj.new, in the order of R104; 0: none. -/
def State.newReason (s : State) (c : Cap) (attr : Nat) : Nat :=
  let p := oidPort c.o
  let cls := bits attr 16 2
  let keyid := bits attr 0 16
  if 2 ^ 25 ≤ attr || cls = 3 || (keyid ≠ 0 && cls = 0) then 7
  else if (tbit attr 23 && p ≠ 68) || (cls = 2 && p = 69) then 3
  else if cls ≠ 0 && !((s.key keyid).st == .live && (s.key keyid).world == (bits s.wrow (oidDie c.o / 8 * 4) 3)) then 4
  else if s.unitsMarked (oidSp c.o) c.b c.l then 2
  else if (s.freeEntry (oidSp c.o)).isNone then 1
  else 0

/-- The object carved (R104): its entry, full/empty bits set, and its root capability. -/
def State.newObj (s : State) (sp base len owner attr i : Nat) : State × Cap :=
  let o := sp * 2 ^ 15 + i
  let gen := (s.entry o).gen
  let e : Entry := { base := base, gen := gen, owner := owner, len := len, valid := true, restartable := tbit attr 24,
                     amo := tbit attr 23, resident := true, world := bits s.wrow (oidDie o / 8 * 4) 3, pkey := bits attr 18 5,
                     keyid := bits attr 0 16, cls := bits attr 16 2 }
  let s := s.putEntry o e
  let s := if isSram o then
      { s with fe := s.fe.filter fun p => !(decide (flat sp base ≤ p.1 * 8) && decide (p.1 * 8 < flat sp base + len)) } else s
  (s, Cap.mk' gen (if tbit attr 23 then 0x28 else 0xD8) o len 0)

/-- OBJ_NEW. -/
def execObjNew (a b d : Nat) (s : State) : Out :=
  let c := s.c a
  let u := unitOf (oidPort c.o)
  checked (do
    notNull c a
    rights (c.rights == 1#8) c a
    aligned c.b u
    aligned c.l u) s fun _ =>
      portOk (s.check15 c s.gta true) c.o s (
        if s.dropWaits (s.c d) then .next (s.holdOn (.drop (s.c d).o))
        else
          let r := s.newReason c (s.xn b)
          if r ≠ 0 then s.refuse d r
          else
            let n := s.newObj (oidSp c.o) c.b c.l s.gta (s.xn b) ((s.freeEntry (oidSp c.o)).getD 0)
            n.1.finishC d n.2 fun t => { t with refusal := 0 })
/-- OBJ_FREE. -/
def execObjFree (a : Nat) (s : State) : Out :=
  let c := s.c a
  checked (do
    notNull c a
    rights (c.isOwner && (c.has rW || c.has rA)) c a
    rights (oidIdx c.o != 0) c a) s fun _ =>
      if s.storeBusy s.cur c.o then .next (s.drainOn c.o)
      else portOk (s.check15 c s.gta true) c.o s (
        let e := s.entry c.o
        if c.b ≠ 0 || c.l ≠ e.len then s.trap cCAP_BOUNDS c.l
        else if s.me.mode = .u && (0 < e.fracs || 0 < e.fills || s.holdsLive c.o e) then s.trap cCAP_RIGHTS (rightsVal c a)
        else (s.freeObj c.o).finish (·.setC a .null))

end Sys2Proof.Machine
end

