-- ==== Sys2Proof/Machine/Csr.lean ====
section
/-! DEFINITION. The CSRs (02 R49), their reads and writes, the six CSR instructions (03 R72) and register writes that the
opcode table lists as steps of their own. -/
namespace Sys2Proof.Machine

/-- Rights on a CSR: of U, and of S and M. -/
inductive Acc where
  | no | ro | rw
  deriving DecidableEq, Repr

/-- The CSRs and their rights in U and S (R49); none for an address not listed. -/
def csrAccess (a : Nat) : Option (Acc × Acc) :=
  if a ∈ [0xC00, 0xC01, 0xC02, 0xCC0, 0xCC1, 0xCC2, 0xCC3, 0xCC4, 0xCC5, 0xCC8] then some (.ro, .ro)
  else if a ∈ [0xCC6, 0xCC7, 0x8C4] then some (.ro, .rw)
  else if a ∈ [0x8C0, 0x8C1, 0x8C2, 0x8C3] then some (.rw, .rw)
  else if (0x5C0 ≤ a && a ≤ 0x5C9) || a ∈ [0x7A0, 0x7A1, 0x7A2] then some (.no, .rw)
  else if a ∈ [0x7B0, 0x7B1, 0x7B2] then some (.no, .no)
  else none

/-- The right of the executing mode: M has those of S, D has every right (R49). -/
def csrRight (m : Mode) (p : Acc × Acc) : Acc :=
  match m with
  | .u => p.1
  | .s => p.2
  | .m => p.2
  | .d => .rw

/-- The world that a die's row carries, none when the row is unassigned (14 R352). -/
def State.dieWorld (s : State) (die : Nat) : Option Nat :=
  let f := bits s.wrow (die / 8 * 4) 4
  if 8 ≤ f then some (f % 8) else none

/-- A world. -/
def State.world (s : State) (w : Nat) : World := sget {} s.worlds w
/-- A world changed by `f`. -/
def State.updWorld (s : State) (w : Nat) (f : World → World) : State := { s with worlds := sput {} s.worlds w (f (s.world w)) }
/-- The world of strand `k` is in ERROR: every slot of it is halted (14 R363). It takes no trap, and nothing of it counts or expires; a
window of it that is done still closes (log 100). -/
def State.frozen (s : State) (k : Nat) : Bool := decide (k < sepKey) && (match s.dieWorld (k / 1024) with
  | some w => (s.world w).td == .error
  | none => false)

/-- tdata1 of a trigger; the type field reads 1 for triggers 0 to 3 and 2 for 4 and 5 (16 R393). -/
def Tile.tdata1Of (t : Tile) (i : Nat) : Word := sget 0 t.tdata1 i ||| BitVec.ofNat 64 ((if i < 4 then 1 else 2) * 2 ^ 60)

/-- The value of a CSR for the executing strand. -/
def csrRead (s : State) (a : Nat) : Word :=
  let t := s.me
  let g := s.tile s.gta
  match a with
  | 0xC00 => BitVec.ofNat 64 (s.cycle - g.resetAt) + g.cycleAdj
  | 0xC01 => BitVec.ofNat 64 s.tick + g.rtickAdj
  | 0xC02 => t.instret
  | 0xCC0 => BitVec.ofNat 64 (s.cur % 16)
  | 0xCC1 => BitVec.ofNat 64 s.gta
  | 0xCC2 => BitVec.ofNat 64 g.rank
  | 0xCC3 => BitVec.ofNat 64 g.runid
  | 0xCC4 => BitVec.ofNat 64 g.pword
  | 0xCC5 => BitVec.ofNat 64 ((s.dieWorld (s.gta / 64)).getD 0)
  | 0xCC6 => g.bfcnt
  | 0xCC7 => g.tagfb
  | 0xCC8 => BitVec.ofNat 64 s.pkgno
  | 0x8C0 => t.fmode
  | 0x8C1 => t.mxcfg
  | 0x8C2 => t.wlim
  | 0x8C3 => t.lkey
  | 0x8C4 => t.rptc
  | 0x5C0 => t.tvec
  | 0x5C1 => t.trpc
  | 0x5C2 => t.tcause
  | 0x5C3 => t.tval
  | 0x5C4 => t.tstat
  | 0x5C5 => t.tscratch
  | 0x5C6 => t.wdog
  | 0x5C7 => g.slotmask
  | 0x5C8 => t.tie
  | 0x5C9 => t.tip
  | 0x7A0 => BitVec.ofNat 64 g.tselect
  | 0x7A1 => g.tdata1Of g.tselect
  | 0x7A2 => sget 0 g.tdata2 g.tselect
  | 0x7B0 => t.dcsr
  | 0x7B1 => t.dpc
  | 0x7B2 => t.dscratch0
  | _ => 0

/-- The old value with the bits of `mask` taken from the new one: a read-only field keeps its value (R72). -/
def masked (mask : Nat) (old new : Word) : Word := (old &&& ~~~(BitVec.ofNat 64 mask)) ||| (new &&& BitVec.ofNat 64 mask)
/-- Writing a rounding mode 5, 6 or 7 leaves the field at `lo` at its previous value (07 R175, 09 R223). -/
def keepRm (lo : Nat) (old new : Word) : Word :=
  if 5 ≤ bits new.toNat lo 3 then masked (7 * 2 ^ lo) new old else new

/-- fmode after a write: flags and rm (07 R180). -/
def fmodeWrite (old v : Word) : Word := masked 0x3F7 old (keepRm 0 old v)
/-- mxcfg after a write (09 R222, R223). -/
def mxcfgWrite (old v : Word) : Word := masked 0x1FFFFFF old (keepRm 15 old v)
/-- rptc after a write (03 R77). -/
def rptcWrite (old v : Word) : Word := masked 0xFFFF9F1FFFFFFFFF old v
/-- tstat after a write: pmode 2 and 3 are written as 0 (13 R333). -/
def tstatWrite (old v : Word) : Word :=
  masked 0xFFFFF833 old (if 2 ≤ bits v.toNat 4 2 then masked 0x30 v 0 else v)
/-- dcsr after a write: prv 2 and 3 are written as 0 (16 R391). -/
def dcsrWrite (old v : Word) : Word := masked 0xA007 old (if 2 ≤ bits v.toNat 0 2 then masked 3 v 0 else v)
/-- tdata1 after a write: actions 3 to 15 are written as 0 (16 R393). -/
def tdata1Write (old v : Word) : Word :=
  masked 0x0000FFFFFF80F0DC old (if 3 ≤ bits v.toNat 12 4 then masked 0xF000 v 0 else v)

/-- A strand's own CSRs written; `tick` is the tick of the write, which the watchdog and tdelta do not count (12 R332). -/
def Slot.csrWrite (t : Slot) (a : Nat) (v : Word) (tick : Nat) : Slot :=
  match a with
  | 0xC02 => { t with instret := v }
  | 0x8C0 => { t with fmode := fmodeWrite t.fmode v ||| (t.fmode &&& BitVec.ofNat 64 t.flagNow &&& 0x3F0#64) }
  | 0x8C1 => { t with mxcfg := mxcfgWrite t.mxcfg v }
  | 0x8C2 => { t with wlim := v }
  | 0x8C3 => { t with lkey := v }
  | 0x8C4 => { t with rptc := rptcWrite t.rptc v, rptLive := false }
  | 0x5C0 => { t with tvec := masked 0x1FFFFF 0 v }
  | 0x5C1 => { t with trpc := v }
  | 0x5C2 => { t with tcause := v }
  | 0x5C3 => { t with tval := v }
  | 0x5C4 => { t with tstat := tstatWrite t.tstat v }
  | 0x5C5 => { t with tscratch := v }
  | 0x5C6 => { t with wdog := v, wdPost := tick }
  | 0x5C8 => { t with tie := masked 0xFF001E t.tie v }
  | 0x5C9 => { t with tip := masked 0xFFFFFFFF0000001E t.tip v ||| (t.tip &&& BitVec.ofNat 64 t.tipNow &&& 0x1E#64), tdPost := tick }
  | 0x7B0 => { t with dcsr := dcsrWrite t.dcsr v }
  | 0x7B1 => { t with dpc := masked 0xFFFF 0 v }
  | 0x7B2 => { t with dscratch0 := v }
  | _ => t

/-- The tile's CSRs written; `now` and `tick` are what its views of cycle and rtick count from (R73). -/
def Tile.csrWrite (t : Tile) (a : Nat) (v : Word) (now tick : Nat) : Tile :=
  match a with
  | 0xC00 => { t with cycleAdj := v - BitVec.ofNat 64 (now - t.resetAt) }
  | 0xC01 => { t with rtickAdj := v - BitVec.ofNat 64 tick }
  | 0xCC2 => { t with rank := bits v.toNat 0 32 }
  | 0xCC3 => { t with runid := bits v.toNat 0 32 }
  | 0xCC6 => { t with bfcnt := v }
  | 0xCC7 => { t with tagfb := v }
  | 0x5C7 => { t with slotmask := masked 0xFFFF 0 v }
  | 0x7A0 => if v.toNat % 8 < 6 then { t with tselect := v.toNat % 8 } else t
  | 0x7A1 => { t with tdata1 := sput 0 t.tdata1 t.tselect (tdata1Write (sget 0 t.tdata1 t.tselect) v) }
  | 0x7A2 => { t with tdata2 := sput 0 t.tdata2 t.tselect v }
  | _ => t

/-- True for the CSRs that belong to the tile. -/
def csrOfTile (a : Nat) : Bool := a ∈ [0xC00, 0xC01, 0xCC2, 0xCC3, 0xCC6, 0xCC7, 0x5C7, 0x7A0, 0x7A1, 0x7A2]

/-- A CSR of the executing strand or its tile written. D mode has every right (R49) and writes the counters, rank and runid too; sid, tileid,
world, pkgno, and pword, whose layout is all inputs (05 R117), keep their values (log 49). -/
def csrWrite (s : State) (a : Nat) (v : Word) : State :=
  if csrOfTile a then s.updTile s.gta (·.csrWrite a v s.cycle s.tick) else s.upd (·.csrWrite a v s.tick)

/-- A CSR instruction: `w` is the new value as a function of the old, none where nothing is written (R72). -/
def csrOp (i : Instr) (d a : Nat) (w : Option (Word → Word)) (s : State) : Out :=
  match csrAccess a with
  | none => s.illegal i
  | some p =>
    match csrRight s.me.mode p, w with
    | .no, _ => s.modeFault i
    | .ro, some _ => s.modeFault i
    | _, none => s.finishX d (csrRead s a)
    | _, some f => (csrWrite s a (f (csrRead s a))).finishX d (csrRead s a)

/-- CSRRW. -/
def execCsrrw (d csr a : Nat) (s : State) : Out := csrOp (.csrrw d csr a) d csr (some fun _ => s.x a) s
/-- CSRRS: with x0 nothing is written. -/
def execCsrrs (d csr a : Nat) (s : State) : Out :=
  csrOp (.csrrs d csr a) d csr (if a = 0 then none else some fun t => t ||| s.x a) s
/-- CSRRC. -/
def execCsrrc (d csr a : Nat) (s : State) : Out :=
  csrOp (.csrrc d csr a) d csr (if a = 0 then none else some fun t => t &&& ~~~(s.x a)) s
/-- CSRRWI. -/
def execCsrrwi (d csr uimm : Nat) (s : State) : Out :=
  csrOp (.csrrwi d csr uimm) d csr (some fun _ => BitVec.ofNat 64 uimm) s
/-- CSRRSI: with uimm 0 nothing is written. -/
def execCsrrsi (d csr uimm : Nat) (s : State) : Out :=
  csrOp (.csrrsi d csr uimm) d csr (if uimm = 0 then none else some fun t => t ||| BitVec.ofNat 64 uimm) s
/-- CSRRCI. -/
def execCsrrci (d csr uimm : Nat) (s : State) : Out :=
  csrOp (.csrrci d csr uimm) d csr (if uimm = 0 then none else some fun t => t &&& ~~~(BitVec.ofNat 64 uimm)) s

/-! ### Register writes as steps of the executing strand -/

/-- RPTC_WRITE (R77, R78). -/
def execRptcWrite (v : Nat) (s : State) : Out := .next (s.upd (·.csrWrite 0x8C4 (BitVec.ofNat 64 v) s.tick))
/-- WDOG_WRITE (12 R332). -/
def execWdogWrite (v : Nat) (s : State) : Out := .next (s.upd (·.csrWrite 0x5C6 (BitVec.ofNat 64 v) s.tick))
/-- TDELTA_WRITE: tdelta becomes v; the pending bits stay (13 R341). -/
def execTdeltaWrite (v : Nat) (s : State) : Out :=
  .next (s.upd fun t => t.csrWrite 0x5C9 (masked (0xFFFFFFFF * 2 ^ 32) t.tip (BitVec.ofNat 64 (v * 2 ^ 32))) s.tick)
/-- FMODE_WRITE (07 R175). -/
def execFmodeWrite (v : Nat) (s : State) : Out := .next (s.upd (·.csrWrite 0x8C0 (BitVec.ofNat 64 v) s.tick))
/-- MXCFG_WRITE (09 R223). -/
def execMxcfgWrite (v : Nat) (s : State) : Out := .next (s.upd (·.csrWrite 0x8C1 (BitVec.ofNat 64 v) s.tick))

end Sys2Proof.Machine
end

