-- ==== Sys2Proof/Machine/Crypto.lean ====
section
/-! DEFINITION. The cryptographic functions that the spec names: SHAKE256 and SHA3-512 (14 R366 to R371), and Ed448 with an empty
context (R371). -/
namespace Sys2Proof.Machine

/-! ### Keccak -/

/-- A 64-bit lane rotated left by `n`. -/
def rol64 (w n : Nat) : Nat := (w * 2 ^ (n % 64) + w / 2 ^ (64 - n % 64)) % 2 ^ 64
/-- Lane x, y of the state; lanes are numbered x + 5 y. -/
def lane (a : List Nat) (x y : Nat) : Nat := a.getD (x % 5 + 5 * (y % 5)) 0
/-- The lanes given by a function of x and y. -/
def lanes (f : Nat → Nat → Nat) : List Nat := (List.range 25).map fun i => f (i % 5) (i / 5)
/-- Rotation offsets of the rho step, by x + 5 y. -/
def rhoOffsets : List Nat :=
  [0, 1, 62, 28, 27, 36, 44, 6, 55, 20, 3, 10, 43, 25, 39, 41, 45, 15, 21, 8, 18, 2, 61, 56, 14]
/-- Round constants of the iota step. -/
def iotaConstants : List Nat :=
  [0x1, 0x8082, 0x800000000000808A, 0x8000000080008000, 0x808B, 0x80000001, 0x8000000080008081, 0x8000000000008009, 0x8A, 0x88,
   0x80008009, 0x8000000A] ++
  [0x8000808B, 0x800000000000008B, 0x8000000000008089, 0x8000000000008003, 0x8000000000008002, 0x8000000000000080, 0x800A,
   0x800000008000000A, 0x8000000080008081, 0x8000000000008080, 0x80000001, 0x8000000080008008]
/-- One round. -/
def keccakRound (a : List Nat) (rc : Nat) : List Nat :=
  let c (x : Nat) : Nat := (List.range 5).foldl (fun r y => r ^^^ lane a x y) 0
  let cs := (List.range 5).map c
  let d (x : Nat) : Nat := cs.getD ((x + 4) % 5) 0 ^^^ rol64 (cs.getD ((x + 1) % 5) 0) 1
  let ds := (List.range 5).map d
  let t := lanes fun x y => rol64 (lane a x y ^^^ ds.getD x 0) (rhoOffsets.getD (x + 5 * y) 0)
  -- pi: lane (x, y) comes from (x + 3 y, x)
  let b := lanes fun x y => lane t (x + 3 * y) x
  let r := lanes fun x y => lane b x y ^^^ ((2 ^ 64 - 1 - lane b (x + 1) y) &&& lane b (x + 2) y)
  r.set 0 (lane r 0 0 ^^^ rc)
/-- The permutation. -/
def keccakF (a : List Nat) : List Nat := iotaConstants.foldl keccakRound a

/-- A block of `rate` bytes absorbed. -/
def absorb1 (rate : Nat) (a : List Nat) (bs : List Byte) : List Nat :=
  keccakF ((List.range 25).map fun i => if 8 * i < rate then a.getD i 0 ^^^ ofBytes ((bs.drop (8 * i)).take 8) else a.getD i 0)
/-- Whole blocks absorbed, at most `fuel`. -/
def absorb (rate : Nat) : Nat → List Nat → List Byte → List Nat
  | 0, a, _ => a
  | fuel + 1, a, bs => if bs.isEmpty then a else absorb rate fuel (absorb1 rate a (bs.take rate)) (bs.drop rate)
/-- `n` bytes squeezed, at most `fuel` blocks. -/
def squeeze (rate : Nat) : Nat → List Nat → Nat → List Byte
  | 0, _, _ => []
  | fuel + 1, a, n => if n = 0 then [] else
    let bs := (a.flatMap (toBytes 8)).take (min rate n)
    bs ++ squeeze rate fuel (keccakF a) (n - min rate n)
/-- The message padded to whole blocks: suffix bits, zeros and the last bit. -/
def keccakPad (rate suffix : Nat) (m : List Byte) : List Byte :=
  let z := rate - m.length % rate
  if z = 1 then m ++ [BitVec.ofNat 8 (suffix + 128)]
  else m ++ [BitVec.ofNat 8 suffix] ++ List.replicate (z - 2) 0 ++ [128#8]
/-- The sponge. -/
def keccak (rate suffix : Nat) (m : List Byte) (n : Nat) : List Byte :=
  let p := keccakPad rate suffix m
  squeeze rate (n / rate + 1) (absorb rate (p.length / rate + 1) (List.replicate 25 0) p) n
/-- SHAKE256 with an output of `n` bytes. -/
def shake256 (m : List Byte) (n : Nat) : List Byte := keccak 136 0x1F m n
/-- SHA3-512. -/
def sha3512 (m : List Byte) : List Byte := keccak 72 0x06 m 64

/-! ### Ed448 -/

/-- The field prime 2^448 - 2^224 - 1. -/
def edP : Nat := 2 ^ 448 - 2 ^ 224 - 1
/-- The order of the base point. -/
def edL : Nat := 2 ^ 446 - 13818066809895115352007386748515426880336692474882178609894547503885
/-- Differences and products in the field. -/
def fsub (a b : Nat) : Nat := (a + (edP - b % edP)) % edP
def fmul (a b : Nat) : Nat := a * b % edP
/-- The curve constant d = -39081. -/
def edD : Nat := edP - 39081
/-- a^e modulo p by the bits of e from the top, `n` bits. -/
def fpow (a e : Nat) : Nat → Nat
  | 0 => 1
  | n + 1 => let r := fpow a (e / 2) n; let q := fmul r r; if e % 2 = 1 then fmul q a else q
/-- The inverse in the field. -/
def finv (a : Nat) : Nat := fpow a (edP - 2) 448
/-- A point as projective coordinates X, Y, Z. -/
structure EdPt where
  x : Nat
  y : Nat
  z : Nat
  deriving DecidableEq, Repr
/-- The neutral point and the base point. -/
def edZero : EdPt := ⟨0, 1, 1⟩
def edBase : EdPt :=
  ⟨224580040295924300187604334099896036246789641632564134246125461686950415467406032909029192869357953282578032075146446173674602635247710,
   298819210078481492676017930443930673437544040154080242095928241372331506189835876003536878655418784733982303233503462500531545062832660,
   1⟩
/-- The sum of two points; the formula has no exceptions. -/
def edAdd (p q : EdPt) : EdPt :=
  let a := fmul p.z q.z
  let b := fmul a a
  let c := fmul p.x q.x
  let d := fmul p.y q.y
  let e := fmul edD (fmul c d)
  let f := fsub b e
  let g := (b + e) % edP
  let h := fmul (p.x + p.y) (q.x + q.y)
  ⟨fmul a (fmul f (fsub (fsub h c) d)), fmul a (fmul g (fsub d c)), fmul f g⟩
/-- n times a point, by `k` bits of n. -/
def edMul (p : EdPt) (n : Nat) : Nat → EdPt
  | 0 => edZero
  | k + 1 => let r := edMul p (n / 2) k; let d := edAdd r r; if n % 2 = 1 then edAdd d p else d
/-- Equality of points. -/
def edEq (p q : EdPt) : Bool := fmul p.x q.z == fmul q.x p.z && fmul p.y q.z == fmul q.y p.z
/-- A point in 57 bytes: y, and the lowest bit of x in the top bit. -/
def edEncode (p : EdPt) : List Byte :=
  let i := finv p.z
  toBytes 57 (fmul p.y i + fmul p.x i % 2 * 2 ^ 455)
/-- The point that 57 bytes encode, none when they encode none. -/
def edDecode (bs : List Byte) : Option EdPt :=
  let w := ofBytes bs
  let y := w % 2 ^ 455
  let u := fsub (fmul y y) 1
  let v := fsub (fmul edD (fmul y y)) 1
  let x := fmul (fmul (fmul u (fmul u u)) v) (fpow (fmul (fpow u 5 3) (fpow v 3 2)) ((edP - 3) / 4) 446)
  if edP ≤ y || fmul v (fmul x x) ≠ u || (x = 0 && w / 2 ^ 455 % 2 = 1) then none
  else some ⟨if x % 2 = w / 2 ^ 455 % 2 then x else fsub 0 x, y, 1⟩
/-- The hash of Ed448 with flag 0 and an empty context. -/
def edHash (bs : List Byte) : Nat := ofBytes (shake256 (toBytes 8 0x3834346445676953 ++ [0, 0] ++ bs) 114)
/-- The secret scalar and the prefix of a 57-byte private key. -/
def edSecret (k : List Byte) : Nat × List Byte :=
  let h := shake256 k 114
  let a := ofBytes (h.take 56)
  (setBits (setBits a 0 2 0) 447 1 1, h.drop 57)
/-- The public key of a private key. -/
def edPublic (k : List Byte) : List Byte := edEncode (edMul edBase (edSecret k).1 448)
/-- The 114-byte signature of a message. -/
def edSign (k m : List Byte) : List Byte :=
  let s := edSecret k
  let pub := edEncode (edMul edBase s.1 448)
  let r := edHash (s.2 ++ m) % edL
  let rp := edEncode (edMul edBase r 446)
  rp ++ toBytes 57 ((r + edHash (rp ++ pub ++ m) % edL * s.1) % edL)
/-- The signature is valid: [4][S]B = [4]R + [4][k]A. -/
def edVerify (pub sig m : List Byte) : Bool :=
  let sv := ofBytes (sig.drop 57)
  match edDecode pub, edDecode (sig.take 57) with
  | some a, some r =>
    decide (sv < edL) &&
      (let four (p : EdPt) : EdPt := let d := edAdd p p; edAdd d d
       edEq (four (edMul edBase sv 446)) (four (edAdd r (edMul a (edHash (sig.take 57 ++ pub ++ m) % edL) 446))))
  | _, _ => false

end Sys2Proof.Machine
end

