-- ==== Sys2Proof/Machine/Matrix.lean ====
section
/-! DEFINITION. The matrix engine (09 R221 to R250, 07 R187 to R190). A command's operands are read and its results written in the
step in which it completes; R235 keeps its own strand away from them, and R145 lets others see each word old or new until then. -/
namespace Sys2Proof.Machine

/-! ### mxcfg (R222) and the pairings (R224 to R226) -/

def cfgA (v : Nat) : Nat := bits v 0 5
def cfgB (v : Nat) : Nat := bits v 5 5
def cfgO (v : Nat) : Nat := bits v 10 5
def cfgRm (v : Nat) : Nat := bits v 15 3
def cfgSat (v : Nat) : Bool := tbit v 18
/-- Number of K blocks n. -/
def cfgN (v : Nat) : Nat := bits v 19 3 + 1
/-- First weight slot w. -/
def cfgW (v : Nat) : Nat := bits v 22 3

/-- Class of an A format: 0 wide float, 1 narrow float, 2 integer, 3 none. -/
def clsA (f : Nat) : Nat := if f < 4 then 0 else if f < 10 then 1 else if f < 16 then 2 else 3
/-- Class of a B format. -/
def clsB (f : Nat) : Nat := if f < 16 then clsA f else if f = 18 then 2 else if f < 20 then 1 else 3
/-- The pair is admitted. -/
def pairOk (v : Nat) : Bool := clsA (cfgA v) == clsB (cfgB v) && decide (clsA (cfgA v) < 3)
/-- An output format of mx.st. -/
def outOk (f : Nat) : Bool := f < 16 || f == 22
/-- Slots per block q. -/
def blkSlots (f : Nat) : Nat := if f < 2 then 4 else if f < 4 then 2 else 1
/-- Body bytes of a block image. -/
def blkBody (f : Nat) : Nat :=
  if f < 2 then 32768 else if f < 4 then 16384
  else if f = 9 || f = 12 || f = 13 then 4096 else if f = 14 || f = 15 then 2048
  else if f = 16 then 4160 else if f = 17 || f = 18 then 5120 else if f = 19 then 3072 else 8192
/-- Format of a B element after decompression. -/
def blkBase (f : Nat) : Nat := if f = 16 || f = 17 then 4 else if f = 18 then 10 else if f = 19 then 9 else f
/-- Cycles per K block (R225). -/
def blkCycles (fa fb : Nat) : Nat :=
  let b := blkBase fb
  let c := if 14 ≤ fa && fa < 16 && 14 ≤ b && b < 16 then 32
    else if (fa = 9 && b = 9) || ((fa = 12 || fa = 13) && (b = 12 || b = 13)) then 64
    else if 4 ≤ fa then 128
    else if fa = 0 || b = 0 then 4096
    else if fa = 1 || b = 1 then 1024
    else 512
  if 17 ≤ fb then c / 2 else c

/-! ### Operand checks at issue (R228 to R231, R240) -/

/-- The checks of one capability, in the order of R240: null, rights, length, port, alignment of the base. -/
def opChk (c : Cap) (n : Nat) (need : List Nat) (size : Nat) (port : Bool) (align : Nat) : Chk Unit := do
  notNull c n
  rights (need.all c.has) c n
  if c.l < size then Except.error (cCAP_BOUNDS, c.top) else pure ()
  rights port c n
  aligned c.b align
/-- An accumulator tile (R230). -/
def accChk (g : Nat) (c : Cap) (n : Nat) (need : List Nat) : Chk Unit := opChk c n need 16384 (isOwn g c.o) 16384
/-- Bytes of a row of A and of the output. -/
def rowA (f n : Nat) : Nat := 16 * n * fmtBits f
def rowO (f : Nat) : Nat := 8 * fmtBits f

/-! ### Accepting a command (R15, R232) -/

/-- Commands of a tile's engine that wait in its queue. -/
def State.queued (s : State) (mx : Bool) (g : Nat) : List Cmd := s.cmds.filter fun c => c.g == g && c.mx == mx && !c.running
/-- The byte range of a capability, cut to `n` bytes. -/
def rng (c : Cap) (n : Nat) : Nat × Nat × Nat := (c.o, c.b, c.b + n)
/-- The objects of ranges. -/
def objsOf (rs : List (Nat × Nat × Nat)) : List Nat := (rs.map (·.1)).eraseDups

/-- A command joins its engine's queue and opens a window; a full queue stalls the strand, and so do a self-test of the matrix engine (17
R402) and an earlier full/empty operation of the strand on an operand (05 R128). It ends a codelet's restartability (05 R134). -/
def accept (i : Instr) (la : Nat) (mx : Bool) (rd wr : List (Nat × Nat × Nat)) (op : CmdOp) (s : State)
    (f : Slot → Slot := id) (st : Nat → WinSt := fun id => .wait (.cmd id)) (lim : Option Nat := none) : Out :=
  match (objsOf (rd ++ wr)).find? fun o => s.me.wins.any (Win.feOn o) with
  | some o => .next (s.holdOn (.fe o))
  | none =>
    if 2 ≤ (s.queued mx s.gta).length || (mx && s.mxTested s.gta) then .next (s.holdOn (if mx then .mxQueue else .mvQueue))
    else
      let s := if mx then s.endRestart else s.endRestart.count s.gta 5
      let c : Cmd := { id := s.nextId, key := s.cur, win := s.me.nextWid, g := s.gta, at_ := s.cycle, lkey := s.me.lkey, mx := mx,
                       reads := objsOf rd, writes := objsOf wr, rd := rd, wr := wr, addr := s.me.pc.toNat, op := op }
      .next (({ s with cmds := s.cmds ++ [c], nextId := s.nextId + 1 }.openW la i (st s.nextId) lim 7 true).upd f)

/-- A matrix instruction: at most four windows; then `k`. -/
def mxInstr (s : State) (k : State → Out) : Out := match s.winFull with
  | some s' => .next s'
  | none => k s

/-- ENGINE with that code, precise. -/
def State.engine (s : State) (code : Nat) : Out := s.trap cENGINE code

/-! ### The instructions (R241 to R249) -/

/-- The reason for which mx.cfg refuses a value (R241); 0: none. -/
def mxcfgReason (v : Nat) : Nat :=
  if 2 ^ 25 ≤ v then 5
  else if 5 ≤ cfgRm v then 4
  else if !pairOk v then 1
  else if !outOk (cfgO v) then 2
  else if 8 < cfgW v + cfgN v * blkSlots (cfgB v) then 3
  else 0
/-- MX_CFG. -/
def execMxCfg (a d : Nat) (s : State) : Out :=
  let r := mxcfgReason (s.xn a)
  s.finish fun t => { t with mxcfg := if r = 0 then s.x a else t.mxcfg }.setX d (BitVec.ofNat 64 r)

/-- MX_WLD (R242). -/
def execMxWld (la a imm : Nat) (s : State) : Out :=
  mxInstr s fun s =>
    let f := cfgB s.me.mxcfg.toNat
    if clsB f = 3 then s.engine 1
    else if 8 < imm + blkSlots f then s.engine 3
    else
      let c := s.c a
      let n := 64 + blkBody f
      checked (opChk c a [rR] n (oidPort c.o ≤ 68) 64) s fun _ =>
        accept (.mxWld la a imm) la true [rng c n] [] (.wld c imm f) s

/-- MX_MMA (R243). -/
def execMxMma (la a b d : Nat) (s : State) : Out :=
  mxInstr s fun s =>
    let v := s.me.mxcfg.toNat
    let cls := clsA (cfgA v)
    if !pairOk v then s.engine 1
    else if 8 < cfgW v + cfgN v * blkSlots (cfgB v) then s.engine 3
    else
      let cd := s.c d
      let ca := s.c a
      let cb := s.c b
      let na := 64 * rowA (cfgA v) (cfgN v)
      let nb := if cls = 1 then 256 * cfgN v else 256
      let useB := cls == 1 || (cls == 2 && b != 0)
      checked (do
        accChk s.gta cd d [rR, rW]
        opChk ca a [rR] na (isSram ca.o) 64
        if useB then opChk cb b [rR] nb (isSram cb.o) 4 else pure ()) s fun _ =>
          accept (.mxMma la a b d) la true ([rng cd 16384, rng ca na] ++ if useB then [rng cb nb] else []) [rng cd 16384]
            (.mma cd ca (if useB then cb else .null) v) s

/-- MX_ZERO (R244). -/
def execMxZero (la d : Nat) (s : State) : Out :=
  mxInstr s fun s =>
    checked (accChk s.gta (s.c d) d [rW]) s fun _ =>
      accept (.mxZero la d) la true [] [rng (s.c d) 16384] (.zero (s.c d)) s

/-- MX_ST (R245). -/
def execMxSt (la a d : Nat) (s : State) : Out :=
  mxInstr s fun s =>
    let v := s.me.mxcfg.toNat
    if !outOk (cfgO v) then s.engine 1
    else
      let ca := s.c a
      let cd := s.c d
      let n := 64 * rowO (cfgO v)
      checked (do
        accChk s.gta ca a [rR]
        opChk cd d [rW] n (oidPort cd.o ≤ 68) 64) s fun _ =>
          accept (.mxSt la a d) la true [rng ca 16384] [rng cd n] (.st cd ca v) s

/-- Issue checks of mx.swap (R248). -/
def swapChk (g n : Nat) (c : Cap) : Chk Unit := do
  notNull c n
  rights (c.has rR && c.has rW) c n
  if c.l = 0 || 65536 < c.l then Except.error (cCAP_BOUNDS, c.l) else pure ()
  rights (isOwn g c.o) c n
  aligned c.b 64
  aligned c.l 64
/-- MX_SWAP: its window waits for the pairing, bounded by wlim. -/
def execMxSwap (la a b : Nat) (s : State) : Out :=
  mxInstr s fun s =>
    let c := s.c a
    checked (swapChk s.gta a c) s fun _ =>
      accept (.mxSwap la a b) la true [rng c c.l] [rng c c.l] (.swap c (bits (s.xn b) 0 16) none) s id
        (fun _ => .wait .swap) (limit s.me.wlim)

/-- MX_AFL (R249): the pseudocode reads the record, then names c[d] and c[a], and so are they checked (R240). -/
def execMxAfl (la a b d : Nat) (s : State) : Out :=
  mxInstr s fun s =>
    let ca := s.c a
    let cb := s.c b
    let cd := s.c d
    checked (do
      opChk cb b [rR] 64 true 8
      opChk cd d [rW] 0 (isOwn s.gta cd.o) 1
      opChk ca a [rR] 0 (isSram ca.o) 1) s fun _ =>
        accept (.mxAfl la a b d) la true [rng ca ca.l, rng cb 64] [rng cd cd.l] (.afl cd ca cb []) s

/-- MX_WAIT (R246): the flags of the waited commands that have completed go into its window, which closes as for la = 0 when no
command is outstanding. -/
def execMxWait (la d : Nat) (s : State) : Out :=
  mxInstr s fun s =>
    let n := if s.cmds.any fun c => c.key == s.cur && c.mx then la else 0
    .next ((s.openW n (.mxWait la d) (.wait (.mxIdle s.nextId d s.me.mflags)) none 7 true).upd fun t => { t with mflags := 0 })

/-- A running command of a unit: 0 load, 1 array. -/
def CmdOp.unit : CmdOp → Nat
  | .wld .. => 0 | .afl .. => 0 | .swap .. => 0
  | _ => 1
/-- The command that runs on a unit of a tile. -/
def State.onUnit (s : State) (g u : Nat) : Option Cmd := s.cmds.find? fun c => c.g == g && c.mx && c.running && c.op.unit == u
/-- Unit `u` of tile `g` is busy: from the cycle in which a command starts on it through the cycle in which it completes (R232). -/
def State.unitOn (s : State) (g u : Nat) : Bool := (s.onUnit g u).isSome || decide (s.cycle < sget 0 (s.tile g).mxFree u)
/-- A weight slot. -/
def Tile.ws (t : Tile) (k : Nat) : WSlot := sget {} t.wslots k
/-- The fact that a selector of mx.stat names (R247). -/
def mxStatVal (s : State) (sel : Nat) : Nat :=
  let t := s.tile s.gta
  let fold (f : WSlot → Bool) : Nat := (List.range 8).foldl (fun n k => n + b2n (f (t.ws k)) * 2 ^ k) 0
  match sel with
  | 0 => b2n (s.unitOn s.gta 0) + b2n (s.unitOn s.gta 1) * 2 + (s.queued true s.gta).length * 4
  | 1 => (s.cmds.filter fun c => c.key == s.cur && c.mx).length
  | 2 => s.me.merr
  | 3 => fold (·.valid) + fold (·.busy) * 256
  | 12 => t.latchCol
  | _ => let w := t.ws (sel - 4); w.fmt + w.lead * 32 + w.scale * 2 ^ 32
/-- MX_STAT. -/
def execMxStat (imm d : Nat) (s : State) : Out := s.finishX d (BitVec.ofNat 64 (mxStatVal s imm))

/-! ### Elements of the operands -/

/-- Element `n` of format c in packed bytes held as a number; 6-bit elements take one byte (07 R168). -/
def packedAt (c blk n : Nat) : Val × Nat := readFmt c (blk / 2 ^ (fmtBits c * n) % 2 ^ fmtBits c)
/-- Element (k, j) of a B block of format f (07 R173, R174; 09 R226), and the flags of reading it. -/
def blkEl (f blk k j : Nat) : Val × Nat :=
  if f = 16 then readFmt 4 (blk / 2 ^ (8 * (4096 + blk / 2 ^ (4 * (k * 64 + j)) % 16)) % 256)
  else if 17 ≤ f then
    let b := blkBase f
    let nib := blk / 2 ^ (8 * (128 * 64 / 2 * fmtBits b / 8) + 4 * (k / 4 * 64 + j)) % 16
    let p0 := nib % 4
    let p1 := nib / 4
    if p1 ≤ p0 then (Val.zero false, fNV)
    else if k % 4 = p0 then packedAt b blk ((k / 4 * 64 + j) * 2)
    else if k % 4 = p1 then packedAt b blk ((k / 4 * 64 + j) * 2 + 1)
    else (Val.zero false, 0)
  else packedAt f blk (k * 64 + j)

/-- The value of an integer element. -/
def Val.toInt : Val → Int
  | .fin n m _ _ => Val.num n m
  | _ => 0

/-! ### The arithmetic of a block (07 R187 to R190) -/

/-- An exact sum of products: NaN and infinities by R188, whatever their order. -/
def sumProducts (rm : Nat) (ps : List (Val × Nat)) : Val × Nat :=
  let fl := ps.foldl (fun f p => f ||| p.2) 0
  let pos := ps.any fun p => p.1 == .inf false
  let neg := ps.any fun p => p.1 == .inf true
  if pos && neg then (.nan false, fl ||| fNV)
  else if ps.any (·.1.isNan) then (.nan false, fl)
  else if pos || neg then (.inf neg, fl)
  else ((match ps with
    | [] => Val.zero false
    | p :: r => r.foldl (fun v q => (vadd rm v q.1).1) p.1), fl)
/-- A zero without sign. -/
def Val.plusZero : Val → Val
  | .fin n m e st => if m = 0 && !st then Val.zero false else .fin n m e st
  | v => v

/-- C after one block of the narrow class (R187, R188). A block sum that is exactly zero enters as +0 in every rounding mode (log 101). -/
def narrowStep (rm : Nat) (sat : Bool) (as bs : List (Val × Nat)) (sA sB : Val) (c : Nat) : Nat × Nat :=
  let p := sumProducts rm (as.zipWith (fun a b => let r := vmul a.1 b.1; (r.1, r.2 ||| a.2 ||| b.2)) bs)
  let x := vmul p.1.plusZero sA
  let y := vmul x.1 sB
  let z := vadd rm (readFmt 0 c).1 y.1
  let r := roundFmt 0 z.1 rm sat
  (r.1, p.2 ||| x.2 ||| y.2 ||| z.2 ||| r.2)
/-- C after one block of the integer class (R189). -/
def intStep (as bs : List (Val × Nat)) (c : Nat) : Nat × Nat :=
  let fl := as.foldl (fun f a => f ||| a.2) 0 ||| bs.foldl (fun f b => f ||| b.2) 0
  let t := signed 32 c + (as.zipWith (fun a b => a.1.toInt * b.1.toInt) bs).foldl (· + ·) 0
  let r := roundInt (-2147483648) 2147483647 (Val.ofInt t) 0
  (wrap 32 r.1, fl ||| (r.2 &&& fSAT))
/-- C after one group of four products of the wide class (R190). -/
def wideGroup (rm : Nat) (sat : Bool) (as bs : List (Val × Nat)) (c : Nat) : Nat × Nat :=
  let p := sumProducts rm (as.zipWith (fun a b => vmul a.1 b.1) bs)
  let z := vadd rm (readFmt 0 c).1 p.1
  let r := roundFmt 0 z.1 rm sat
  (r.1, p.2 ||| z.2 ||| r.2)
/-- C after the groups of one block, `n` of them. -/
def wideStep (rm : Nat) (sat : Bool) : Nat → List (Val × Nat) → List (Val × Nat) → Nat → Nat × Nat
  | 0, _, _, c => (c, 0)
  | n + 1, as, bs, c =>
    let r := wideGroup rm sat (as.take 4) (bs.take 4) c
    let q := wideStep rm sat n (as.drop 4) (bs.drop 4) r.1
    (q.1, r.2 ||| q.2)

/-- What one mx.mma reads: C words, rows of A as numbers, blocks of B, row scales and block scales. -/
structure MmaIn where
  cs : List Nat
  rows : List Nat
  blks : List Nat
  sA : List Nat
  sB : List Nat

/-- Element (i, j) of C after blocks t to t + n − 1. -/
def mmaEl (v : Nat) (q : MmaIn) (i j : Nat) : Nat → Nat → Nat → Nat × Nat
  | 0, _, c => (c, 0)
  | n + 1, t, c =>
    let fa := cfgA v
    let as := (List.range 128).map fun k => packedAt fa (q.rows.getD i 0) (128 * t + k)
    let bs := (List.range 128).map fun k => blkEl (cfgB v) (q.blks.getD t 0) k j
    let r := if clsA fa = 1 then narrowStep (cfgRm v) (cfgSat v) as bs (readFmt 0 (q.sA.getD (t * 64 + i) 0)).1
        (readFmt 0 (q.sB.getD t 0)).1 c
      else if clsA fa = 2 then intStep as bs c
      else wideStep (cfgRm v) (cfgSat v) 32 as bs c
    let r' := mmaEl v q i j n (t + 1) r.1
    (r'.1, r.2 ||| r'.2)

/-- All 4,096 words of C, and the flags. -/
def mmaAll (v : Nat) (q : MmaIn) : List Nat × Nat :=
  let rs := (List.range 4096).map fun x => mmaEl v q (x / 64) (x % 64) (cfgN v) 0 (q.cs.getD x 0)
  (rs.map (·.1), orFlagsL rs)
where
  /-- Flags ORed. -/
  orFlagsL (rs : List (Nat × Nat)) : Nat := rs.foldl (fun a r => a ||| r.2) 0

/-! ### Reading operands and writing results -/

/-- Bytes [base, base + n) of a capability's range as an engine reads them. -/
def State.opBytes (s : State) (c : Cap) (n : Nat) : List Byte := s.readObj c.o (s.entry c.o) c.b n
/-- 32-bit words of an operand. -/
def State.opWords (s : State) (c : Cap) (n : Nat) : List Nat :=
  let x := ofBytes (s.opBytes c (4 * n))
  (List.range n).map fun i => x / 2 ^ (32 * i) % 2 ^ 32
/-- Elements of `w` bits as bytes; w is 2, 4 or a multiple of 8. -/
def elBytes (w : Nat) (xs : List Nat) : List Byte :=
  toBytes (xs.length * w / 8) (xs.foldr (fun x r => x % 2 ^ w + 2 ^ w * r) 0)

/-- The bytes and flags that a command writes on completion, with the object and offset; none for a load of weights. -/
def State.mxResult (s : State) (c : Cmd) : Option (Cap × List Byte) × Nat :=
  let t := s.tile c.g
  match c.op with
  | .mma cd ca cb v =>
    let n := cfgN v
    let q := blkSlots (cfgB v)
    let ra := rowA (cfgA v) n
    let a := s.opBytes ca (64 * ra)
    let r := mmaAll v
      { cs := s.opWords cd 4096,
        rows := (List.range 64).map fun i => ofBytes ((a.drop (i * ra)).take ra),
        blks := (List.range n).map fun k => mnat s.mem (flat (spWeight c.g) ((cfgW v + k * q) * 8192)) (blkBody (cfgB v)),
        sA := if cb = .null then [] else s.opWords cb (64 * n),
        sB := (List.range n).map fun k => (t.ws (cfgW v + k * q)).scale }
    (some (cd, elBytes 32 r.1), r.2)
  | .zero cd => (some (cd, List.replicate 16384 0), 0)
  | .st cd ca v =>
    let int := clsA (cfgA v) = 2 && clsB (cfgB v) = 2
    let rs := (s.opWords ca 4096).zipIdx.map fun p =>
      let x := if int then
          let y := vmul (Val.ofInt (signed 32 p.1)) (readFmt 0 (sget 0x3F800000 t.latchRow (p.2 / 64))).1
          let z := vmul y.1 (readFmt 0 t.latchCol).1
          (z.1, y.2 ||| z.2)
        else let y := (readFmt 0 p.1).1; (y, if y.isSig then fNV else 0)
      let r := roundFmt (cfgO v) x.1 (cfgRm v) (cfgSat v)
      (r.1, x.2 ||| r.2)
    (some (cd, elBytes (fmtBits (cfgO v)) (rs.map (·.1))), rs.foldl (fun f r => f ||| r.2) 0)
  | .swap cp _ data => (data.map fun bs => (cp, bs), 0)
  | .afl cd ca _ lay => (some (cd, (gatherAt ca lay).flatMap fun o => s.readObj ca.o (s.entry ca.o) o (lay.getD 8 1)), 0)
  | _ => (none, 0)
where
  /-- Source offsets of mx.afl in gather order: i0 innermost. -/
  gatherAt (ca : Cap) (lay : List Nat) : List Nat :=
    let str (d : Nat) : Int := signed 64 (lay.getD d 0)
    let ext (d : Nat) : Nat := lay.getD (4 + d) 0
    (List.range (ext 0 * ext 1 * ext 2 * ext 3)).map fun n =>
      ((ca.b : Int) + (n % ext 0 : Nat) * str 0 + (n / ext 0 % ext 1 : Nat) * str 1
        + (n / (ext 0 * ext 1) % ext 2 : Nat) * str 2 + (n / (ext 0 * ext 1 * ext 2) : Nat) * str 3).toNat

/-- Extra cycles of each 64-byte chunk of mx.afl: the most lines in one bank, less 1 (R250). -/
def aflExtra (base e : Nat) (offs : List Nat) : Nat → Nat
  | 0 => 0
  | n + 1 =>
    let lines := ((offs.take (64 / e)).map fun o => (base + o) / 64).eraseDups
    let b := (List.range 16).foldl (fun m k => max m (lines.filter fun l => l % 16 == k).length) 1
    (b - 1) + aflExtra base e (offs.drop (64 / e)) n
/-- Output chunks of mx.afl. -/
def aflChunks (lay : List Nat) : Nat := (lay.getD 4 0 * lay.getD 5 0 * lay.getD 6 0 * lay.getD 7 0 * lay.getD 8 1 + 63) / 64

/-! ### Start (R232, R233) -/

/-- Weight slots a command reads and writes: a load also makes overlapping blocks invalid (R227). -/
def State.wsRead (_s : State) (c : Cmd) : List Nat := match c.op with
  | .mma _ _ _ v => (List.range (cfgN v * blkSlots (cfgB v))).map (cfgW v + ·)
  | _ => []
/-- The block that slot j belongs to overlaps slots k to k + q − 1. -/
def Tile.blkHits (t : Tile) (k q j : Nat) : Bool :=
  let w := t.ws j
  (w.valid || w.busy) && decide (w.lead < k + q) && decide (k < w.lead + blkSlots w.fmt)
def State.wsWrite (s : State) (c : Cmd) : List Nat := match c.op with
  | .wld _ k f => (List.range 8).filter fun j => (k ≤ j && j < k + blkSlots f) || (s.tile c.g).blkHits k (blkSlots f) j
  | _ => []
/-- Two commands conflict (R232): over a weight slot, or over an object that one writes and the other reads or writes (log 56). Two integer
commands run on the one array, so the scale latch adds nothing. -/
def State.conflict (s : State) (x y : Cmd) : Bool :=
  (s.wsWrite x).any (fun k => (s.wsRead y).contains k || (s.wsWrite y).contains k) || (s.wsWrite y).any ((s.wsRead x).contains ·)
    || x.writes.any (fun o => y.reads.contains o || y.writes.contains o) || y.writes.any (x.reads.contains ·)

/-- The head of a tile's matrix queue. -/
def State.mxHead (s : State) (g : Nat) : Option Cmd := (s.queued true g).head?
/-- The command is a push: ring operations are not held behind it, as their port orders them (10 R271). -/
def CmdOp.isPush : CmdOp → Bool
  | .push .. => true
  | _ => false
/-- `x` is an earlier command of the strand of `c` that has not completed, and its order to `c` is not that of the matrix queue (R232). -/
def Cmd.before (x c : Cmd) : Bool := x.key == c.key && decide (x.id < c.id) && !x.fin && !(x.mx && c.mx)
/-- An earlier access of its strand to an object that the command reads or writes has not been applied (06 R148; R235, 10 R252): a store
to an object that it reads, any access to one that it writes, and the same of the strand's earlier commands. A push that has read its
source reads no more; the order of pushes on a ring is their port's. Accesses to a window go one at a time (15 R383). -/
def State.behind (s : State) (c : Cmd) : Bool :=
  c.reads.any (fun o => s.storesOn c.key o || s.cmds.any (fun x => x.before c && x.writes.contains o) || (isWindow o
      && ((s.slot c.key).wins.any (fun w => decide (w.id < c.win) && (w.heldOn o || w.remoteOn o))
        || s.cmds.any fun x => x.before c && x.reads.contains o)))
    || c.writes.any fun o => s.storesOn c.key o
      || (s.slot c.key).wins.any (fun w => decide (w.id < c.win) && (w.heldOn o || w.remoteOn o))
      || s.cmds.any fun x => x.before c && !(x.op.isPush && c.op.isPush)
        && (x.writes.contains o || (x.reads.contains o && !(x.op.isPush && x.went)))
/-- The head may start in this cycle (R232), its strand's earlier accesses to its operands and results applied (R235). -/
def State.mxReady (s : State) (c : Cmd) : Bool :=
  decide (c.at_ + 8 ≤ s.cycle) && decide (c.freeAt ≤ s.cycle) && (s.onUnit c.g c.op.unit).isNone
    && decide (sget 0 (s.tile c.g).mxFree c.op.unit ≤ s.cycle)
    && !s.cmds.any (fun x => x.g == c.g && x.mx && x.running && s.conflict x c)
    && !s.behind c
/-- The granules of its ranges are resident (R242). -/
def State.mxHere (s : State) (c : Cmd) : Bool :=
  (c.rd ++ c.wr).all fun r => isSram r.1 || !(s.entry r.1).valid || s.rangeHere r.1 (s.entry r.1) r.2.1 (r.2.2 - r.2.1)

/-- The port checks of R87 on one capability at the start. -/
def State.startChk (s : State) (c : Cmd) (cp : Cap) (write : Bool) : Chk Unit := match s.check18 cp c.g c.lkey write with
  | some f => .error f
  | none => .ok ()
/-- The capability names the tile's accumulator object (ENGINE 4): its object id is that of the accumulator object, whatever has become
of the object since the run started (log 101). -/
def State.accIs (s : State) (c : Cmd) (cp : Cap) : Chk Unit :=
  if (s.tile c.g).accObj = cp.o && cp.o ≠ 0 then .ok () else .error (cENGINE, 4)
/-- Fields of an affine layout record (R249): strides 0 to 3, extents 0 to 3, element bytes; none with a reserved bit set. -/
def layout (bs : List Byte) : Option (List Nat) :=
  let f (o n : Nat) : Nat := ofBytes ((bs.drop o).take n)
  if f 0x30 16 / 4 ≠ 0 then none
  else some [f 0 8, f 8 8, f 16 8, f 24 8, f 0x20 4, f 0x24 4, f 0x28 4, f 0x2C 4, 2 ^ f 0x30 1]

/-- The checks of mx.afl at its start (R249), and its layout. -/
def State.aflChk (s : State) (cd ca cb : Cap) : Chk (List Nat) :=
  match layout (s.opBytes cb 64) with
  | none => .error (cENGINE, 7)
  | some lay =>
    let e := lay.getD 8 1
    let ext (d : Nat) : Nat := lay.getD (4 + d) 0
    let total := ext 0 * ext 1 * ext 2 * ext 3 * e
    if cd.l < total then .error (cENGINE, 7)
    else match ([ca.b] ++ lay.take 4).find? fun x => x % e != 0 with
      | some x => .error (cMISALIGNED, x)
      | none =>
        if total = 0 then .ok lay
        else
          let st (d : Nat) : Int := signed 64 (lay.getD d 0) * (ext d - 1 : Nat)
          let lo := (ca.b : Int) + min 0 (st 0) + min 0 (st 1) + min 0 (st 2) + min 0 (st 3)
          let hi := (ca.b : Int) + max 0 (st 0) + max 0 (st 1) + max 0 (st 2) + max 0 (st 3) + e
          if lo < ca.b then .error (cCAP_BOUNDS, offVal lo)
          else if (ca.top : Int) < hi then
            let outs := (State.mxResult.gatherAt ca lay).filter fun o => ca.top < o + e
            .error (cCAP_BOUNDS, outs.foldl min (2 ^ 63))
          else .ok lay

/-- The port checks of a command at its start (R233), but for residency. -/
def State.mxPortChk (s : State) (c : Cmd) : Chk Unit := match c.op with
  | .wld cp _ _ => s.startChk c cp false
  | .mma cd ca cb _ => do
    s.startChk c cd true
    s.startChk c ca false
    if cb = .null then pure () else s.startChk c cb false
  | .zero cd => s.startChk c cd true
  | .st cd ca _ => do s.startChk c ca false; s.startChk c cd true
  | .swap cp _ _ => s.startChk c cp true
  | .afl cd ca cb _ => do
    s.startChk c ca false
    s.startChk c cd true
    s.startChk c cb false
  | _ => pure ()
/-- The engine's checks, after the ports' (R233, R239). The layout of mx.afl. -/
def State.mxEngineChk (s : State) (c : Cmd) : Chk (List Nat) := match c.op with
  | .mma cd _ _ v => do
    s.accIs c cd
    let q := blkSlots (cfgB v)
    if (List.range (cfgN v)).all fun t =>
        let w := (s.tile c.g).ws (cfgW v + t * q)
        w.valid && w.lead == cfgW v + t * q && w.fmt == cfgB v then pure [] else Except.error (cENGINE, 2)
  | .zero cd => do s.accIs c cd; pure []
  | .st _ ca _ => do s.accIs c ca; pure []
  | .afl cd ca cb _ => s.aflChk cd ca cb
  | _ => pure []

/-- Cycles from start to completion with every operand in the own pool (R238). -/
def State.mxCycles (s : State) (c : Cmd) (lay : List Nat) : Nat := match c.op with
  | .wld _ _ f => 8 + (64 + blkBody f + 127) / 128
  | .mma _ _ _ v => 16 + cfgN v * blkCycles (cfgA v) (cfgB v) + 16
  | .zero _ => 16
  | .st _ _ v => 16 + (64 * rowO (cfgO v) + 255) / 256
  | .swap cp _ _ => 16 + (cp.l + 127) / 128
  | .afl _ ca _ _ => 8 + aflChunks lay + if isOwn c.g ca.o then
      aflExtra (s.entry ca.o).base (lay.getD 8 1) (State.mxResult.gatherAt ca lay) (aflChunks lay) else 0
  | _ => 0

/-- The command with its layout record read. -/
def CmdOp.withLayout (lay : List Nat) : CmdOp → CmdOp
  | .afl cd ca cb _ => .afl cd ca cb lay
  | o => o
/-- A command replaced in the list. -/
def State.updCmd (s : State) (id : Nat) (f : Cmd → Cmd) : State :=
  { s with cmds := s.cmds.map fun c => if c.id = id then f c else c }

/-- What the engine's own state becomes at the start: slots of a load (R227), the scale latch of an integer mx.mma (R243). A slot that
becomes invalid reads as format, lead and scale 0, and a slot that is loading shows its new format and lead and scale 0 (log 101). -/
def State.mxBegin (s : State) (c : Cmd) : State := match c.op with
  | .wld _ k f =>
    let q := blkSlots f
    let hit := (List.range 8).filter fun j => (s.tile c.g).blkHits k q j
    s.updTile c.g fun t =>
      let ws := hit.foldl (fun m j => sput {} m j {}) t.wslots
      { t with wslots := (List.range q).foldl (fun m j => sput {} m (k + j) { busy := true, fmt := f, lead := k }) ws }
  | .mma _ _ cb v =>
    if clsA (cfgA v) ≠ 2 then s
    else
      let rows := if cb = .null then [] else s.opWords cb 64
      let col := ((s.tile c.g).ws (cfgW v)).scale
      s.updTile c.g fun t =>
        { t with latchRow := rows.zipIdx.foldl (fun m p => sput 0x3F800000 m p.2 p.1) [], latchCol := col }
  | _ => s

/-- A matrix command that fails at its start does nothing and leaves the queue (R233). -/
def State.mxFail (s : State) (c : Cmd) (f : Nat × Nat) : State :=
  ((s.noteRefusal c.g f.2 f).endWin c.key c.win (.fail f.1 f.2)).cmdGone c
/-- A matrix command starts: its window may close. -/
def State.mxStart (s : State) (c : Cmd) (lay : List Nat) : State :=
  let n := s.mxCycles c lay
  ((s.mxBegin c).endWin c.key c.win (.done {})).updCmd c.id fun x =>
    { x with running := true, doneAt := s.cycle + n, op := x.op.withLayout lay }

/-- The command is an mx.swap, which starts by pairing (R248). -/
def CmdOp.isSwap : CmdOp → Bool
  | .swap .. => true
  | _ => false
/-- MATRIX_COMMAND_START (R232): the head of tile g's queue starts, or fails its checks; a granule that is not resident keeps it at the
head. An mx.swap starts by pairing. -/
def execMatrixCommandStart (g : Nat) (s : State) : Out :=
  match s.mxHead g with
  | none => .fault .notDue
  | some c =>
    if !s.mxReady c || c.op.isSwap then .fault .notDue
    else match s.mxPortChk c with
      | .error f => .next (s.mxFail c f)
      | .ok _ => if !s.mxHere c then .fault .notDue
        else match s.mxEngineChk c with
          | .error f => .next (s.mxFail c f)
          | .ok lay => .next (s.mxStart c lay)

/-- The unit is idle from the next cycle, a waiting command that conflicts starts after this one (R232), and the command leaves the
engine. -/
def State.mxRelease (s : State) (c : Cmd) : State :=
  let s := { s with cmds := s.cmds.map fun (x : Cmd) =>
    if x.g = c.g && x.mx && !x.running && s.conflict c x then { x with freeAt := s.cycle + 1 } else x }
  (s.updTile c.g fun t => { t with mxFree := sput 0 t.mxFree c.op.unit (s.cycle + 1) }).cmdGone c
/-- The tile at the mirrored position (01 R12). -/
def mirror (g : Nat) : Nat := g / 64 * 64 + g % 8 * 8 + g / 8 % 8

/-- The paired swap fails the port checks that its start makes (R233), and leaves; else nothing. -/
def State.swapFail (s : State) (c : Cmd) (r : Chk Unit) : State := match r with
  | .error f => s.mxFail c f
  | .ok _ => s
/-- MX_SWAP_PAIRING (R248): the head of tile g's queue pairs with the head of the mirrored tile's, and both start. One that fails its port
checks leaves; its partner then has not paired (log 101). -/
def execMxSwapPairing (g : Nat) (s : State) : Out :=
  match s.mxHead g, s.mxHead (mirror g) with
  | some x, some y =>
    (match x.op, y.op with
    | .swap cx tx _, .swap cy ty _ =>
      if !(s.mxReady x && s.mxReady y && tx == ty) then .fault .notDue
      else if x.id = y.id then .next (if (s.mxPortChk x).isOk then (s.endWin x.key x.win (.done {})).mxRelease x
        else s.swapFail x (s.mxPortChk x))
      else if !((s.mxPortChk x).isOk && (s.mxPortChk y).isOk) then .next ((s.swapFail x (s.mxPortChk x)).swapFail y (s.mxPortChk y))
      else if cx.l ≠ cy.l then .next ((s.mxFail x (cENGINE, 6)).mxFail y (cENGINE, 6))
      else
        let bx := s.opBytes cx cx.l
        let by_ := s.opBytes cy cy.l
        .next (((s.mxStart x []).mxStart y []).updCmd x.id (fun c => { c with op := .swap cx tx (some by_) })
          |>.updCmd y.id fun c => { c with op := .swap cy ty (some bx) })
    | _, _ => .fault .notDue)
  | _, _ => .fault .notDue

/-! ### Completion and errors (R233, R234) -/

/-- Flags of a command: into fmode, and to the mx.wait that waits for it or the one to come (R246). -/
def Slot.mxFlags (t : Slot) (id fl : Nat) : Slot :=
  let t := t.raiseNow fl
  let waits (w : Win) : Bool := match w.st with
    | .wait (.mxIdle upto _ _) => id < upto
    | _ => false
  match t.wins.find? waits with
  | none => { t with mflags := t.mflags ||| fl }
  | some x => { t with wins := t.wins.map fun w =>
      if w.id ≠ x.id then w
      else match w.st with
        | .wait (.mxIdle u d f) => { w with st := .wait (.mxIdle u d (f ||| fl)) }
        | _ => w }
/-- The byte ranges that a running command reads: of mx.afl, the elements that it gathers and its record. -/
def State.mxReads (s : State) (c : Cmd) : List (Nat × Nat × Nat) :=
  if s.badw.isEmpty then []
  else match c.op with
    | .afl _ ca cb lay => rng cb 64 :: (State.mxResult.gatherAt ca lay).map fun o => (ca.o, o, o + lay.getD 8 1)
    | _ => c.rd
/-- The range holds a word with the poison syndrome. -/
def State.rngBad (s : State) (r : Nat × Nat × Nat) : Bool := s.badIn r.1 (s.entry r.1) r.2.1 (r.2.2 - r.2.1) != 0
/-- An operand of the command holds an uncorrectable error. -/
def State.mxBad (s : State) (c : Cmd) : Bool := (s.mxReads c).any s.rngBad
/-- The port refuses the result write: the object is gone or poisoned, bytes are marked (R233), or a sector has no version left (14 R354). -/
def State.mxRefused (s : State) (cp : Cap) (n : Nat) : Bool :=
  let e := s.entry cp.o
  !e.valid || e.gen != cp.g || e.poison || s.keyEnded e.keyid || (s.refusedWrite cp.o e cp.b n).isSome || s.versionEnd cp.o e cp.b n
/-- The command completes without an error. -/
def State.mxClean (s : State) (c : Cmd) : Bool :=
  !s.mxBad c && (match c.op with
    | .mma cd .. => !s.mxRefused cd 16384
    | .zero cd => !s.mxRefused cd 16384
    | .st cd _ v => !s.mxRefused cd (64 * rowO (cfgO v))
    | .swap cp _ _ => !s.mxRefused cp cp.l
    | .afl cd _ _ lay => !s.mxRefused cd (lay.getD 4 0 * lay.getD 5 0 * lay.getD 6 0 * lay.getD 7 0 * lay.getD 8 1)
    | _ => true)

/-- MATRIX_COMMAND_COMPLETE (R234): the command on unit u of tile g writes its results and its flags. -/
def execMatrixCommandComplete (g u : Nat) (s : State) : Out :=
  match s.onUnit g u with
  | none => .fault .notDue
  | some c =>
    if s.cycle < c.doneAt || !s.mxClean c then .fault .notDue
    else
      let r := s.mxResult c
      let s1 := match r.1 with
        | some w => s.writeObj w.1.o (s.entry w.1.o) w.1.b w.2
        | none => s
      let s2 := match c.op with
        | .wld cp k f =>
          let bs := s.opBytes cp (64 + blkBody f)
          let w : WSlot := { valid := true, fmt := f, lead := k, scale := ofBytes (bs.take 4) }
          let a := flat (spWeight g) (k * 8192)
          { s1 with mem := mwrite (mzero s1.mem a (blkBody f)) a (bs.drop 64) }.updTile g fun t =>
            { t with wslots := (List.range (blkSlots f)).foldl (fun m j => sput {} m (k + j) w) t.wslots }
        | .afl _ ca _ lay =>
          if isOwn g ca.o then
            s1.updTile g fun t => { t with bfcnt := t.bfcnt + BitVec.ofNat 64 (aflExtra (s.entry ca.o).base (lay.getD 8 1)
              (State.mxResult.gatherAt ca lay) (aflChunks lay)) }
          else s1
        | _ => s1
      .next ((s2.updSlot c.key (·.mxFlags c.id r.2)).mxRelease c)

/-- Old or new, for each unit of `u` bytes; a marked byte stays old. -/
def State.mixed (s : State) (cp : Cap) (u : Nat) (new : List Byte) : State :=
  let e := s.entry cp.o
  let a := flat (oidSp cp.o) (e.base + cp.b)
  let old := s.objBytes cp.o e cp.b new.length
  let bs := (List.range new.length).map fun i =>
    if (Config.freeWord (s.free + i / u)).getLsbD 0 && !s.marked 0 (a + i) && !s.marked 1 (a + i) then new.getD i 0 else old.getD i 0
  { s.writeObj cp.o e cp.b bs with free := s.free + new.length / u + 1 }

/-- MATRIX_COMMAND_ERROR (R233): a result write that the port refuses is ENGINE error 8, anything else an uncorrectable error, 5. The weight
slots of a load that fails are neither valid nor busy and show 0 (log 101). -/
def execMatrixCommandError (g u : Nat) (s : State) : Out :=
  match s.onUnit g u with
  | none => .fault .notDue
  | some c =>
    let r := s.mxResult c
    let refused := match r.1 with
      | some w => s.mxRefused w.1 w.2.length
      | none => false
    let code := if s.mxBad c || !refused then 5 else 8
    let s1 := match r.1 with
      | some w => if (s.entry w.1.o).valid && (s.entry w.1.o).gen == w.1.g then
          s.mixed w.1 (match c.op with
            | .mma .. => 4
            | .zero _ => 4
            | _ => 1) w.2 else s
      | none => s
    let s2 := match c.op with
      | .wld _ k f => s1.updTile g fun t =>
          { t with wslots := (List.range (blkSlots f)).foldl (fun m j => sput {} m (k + j) {}) t.wslots }
      | _ => s1
    let s2 : State := ((s.mxReads c).filter s.rngBad).foldl (fun s r => s.poisonObj r.1) s2
    let s3 := if (s2.slot c.key).merr = 0 then s2.updSlot c.key fun t => { t with merr := code }
      else s2.bbStrand c.key 11 code 0
    .next (s3.mxRelease c)

end Sys2Proof.Machine
end

