-- ==== Sys2Proof/Machine/Keys.lean ====
section
/-! DEFINITION. Sequence keys (14 R356 to R360) and the Separator's instructions (R370, R371). -/
namespace Sys2Proof.Machine

/-! ### Keys -/

/-- The lowest Free key id from `k` on (R359). -/
def State.freeKey (s : State) : Nat → Nat → Option Nat
  | 0, _ => none
  | fuel + 1, k => if 65536 ≤ k then none else if (s.key k).st == .free then some k else s.freeKey fuel (k + 1)
/-- A key id replaced. -/
def State.putKey (s : State) (k : Nat) (v : Key) : State := { s with keys := sput {} s.keys k v }
/-- The worlds whose interface is in CONFIG_LOCKED. -/
def State.lockedWorlds (s : State) : List Nat := (List.range 8).filter fun w => (s.world w).td == .locked
/-- The world for which the executing strand works (R352): its die's; for the Separator's core, which belongs to none, one of those whose
interface is locked for its setup, if there is any (R363; which of several is a free value, log 99). -/
def State.myWorld (s : State) : Nat :=
  if s.cur = sepKey then s.lockedWorlds.getD (Config.setupWorld s.free % s.lockedWorlds.length) 0 else (s.dieWorld (s.gta / 64)).getD 0

/-- KEY_NEW (R358, R359): all ones when no id is Free or the entropy source has failed, and for the Separator while no world is locked for
its setup, since a key of another state's world cannot be made (R363). The key material is not kept: encryption is
transparent but for the key tags (log 13). -/
def execKeyNew (d : Nat) (s : State) : Out :=
  if s.me.mode = .u then s.modeFault (.keyNew d)
  else match (if s.entropyBad || (s.cur == sepKey && s.lockedWorlds.isEmpty) then none else s.freeKey (s.keys.length + 1) 1) with
  | none => s.finishX d (BitVec.allOnes 64)
  | some k =>
    State.finishX { s.putKey k { s.key k with st := .live, world := s.myWorld } with free := s.free + b2n (s.cur == sepKey) } d
      (BitVec.ofNat 64 k)

/-- The status of key.end for x[a] in world `w` (R360). -/
def State.keyEndStatus (s : State) (x w : Nat) : Nat :=
  let k := s.key (x % 2 ^ 16)
  if x / 2 ^ 16 ≠ 0 then 3
  else if k.world ≠ w then 1
  else match k.st with
    | .live => 0
    | .ending => 2
    | .free => 1
    | .ended => 1
    | .retired => 1
/-- KEY_END (R360): step 1 at issue; the window closes at step 5. -/
def execKeyEnd (la a d : Nat) (s : State) : Out :=
  if s.me.mode = .u then s.modeFault (.keyEnd la a d)
  else mxInstr s fun s =>
    let x := s.xn a
    let k := x % 2 ^ 16
    let i : Instr := .keyEnd la a d
    match s.keyEndStatus x (if s.cur = sepKey then (s.key k).world else s.myWorld) with
    | 0 => .next ((s.putKey k { s.key k with st := .ending }).openW la i (.wait (.keyEnd k 0 d)))
    | 2 => .next (s.openW la i (.wait (.keyEnd k 2 d)))
    | st => .next (s.openW la i (.done { xs := [(d, BitVec.ofNat 64 st)] }))

/-- A request that waits at a port for a full/empty word, a landing word or a ring, by its object. -/
def Wait.atPort : Wait → Option Nat
  | .fe _ c _ _ _ listed held _ => if listed || held then some c.o else none
  | .land c _ _ _ => some c.o
  | .pop c _ _ _ => some c.o
  | .push c _ _ => some c.o
  | _ => none
/-- An admitted request on an object of the key has not been answered (step 2): an engine command that has started still reads or writes
one, a request waits at a port for a word or a ring, or a delivery has still to change an owner field. A request that meets a granule that is
not resident is sent again, and then it is refused (log 20). -/
def State.keyBusy (s : State) (key : Nat) : Bool :=
  let on (o : Nat) : Bool := (s.entry o).valid && (s.entry o).keyid == key
  s.cmds.any (fun c => c.running && !c.fin && (c.reads ++ c.writes).any on)
    || s.slots.any (fun p => p.2.wins.any fun w => match w.st with
      | .wait y => y.atPort.any on
      | _ => false)
    || s.msgs.any fun m => m.how == .owner && !m.ownDone && on m.cap.o && (match m.st with
      | .reserved _ => true
      | _ => false)
/-- Step 3 for one entry. -/
def Entry.keyGone (e : Entry) : Entry := { e with poison := true, gen := genNext e.gen, fracs := 0, fills := 0 }
/-- Steps 2 to 5 of key.end (R360): sectors of the key dropped, its SRAM objects poisoned and left to be zero-filled, Ended. -/
def State.keyFinish (s : State) (key : Nat) : State :=
  let s : State := (s.l2.filter fun p => (p.2 - 1) / 2 ^ 16 == key && p.2 != 0).foldl (fun s p => s.secDrop p.1) s
  let mine := (s.entries.filter fun p => p.2.valid && p.2.keyid == key && isSram p.1).map (·.1)
  let s : State := mine.foldl (fun s o => s.updEntry o Entry.keyGone) s
  let sps := (mine.map oidSp).eraseDups
  let s : State := { s with zfill := s.zfill ++ sps.map fun sp => (sp, key, (mine.filter fun o => oidSp o == sp).map fun o => (o, (s.entry o).gen)) }
  (s.putKey key { s.key key with st := .ended }).keySettle key

/-- A key.end whose strand has gone runs to its end as soon as it can (R360). -/
def State.keyEndsDue (s : State) : Option State := (s.keyEnds.find? fun k => !s.keyBusy k).map fun k =>
  State.keyFinish { s with keyEnds := s.keyEnds.erase k } k
/-- The keys that windows of a slot are ending. -/
def Slot.endingKeys (t : Slot) : List Nat := t.wins.filterMap fun w => match w.st with
  | .wait (.keyEnd k 0 _) => some k
  | _ => none

/-- KEY_END_ZERO_FILL_COMPLETE (R360): the storage of a port's poisoned objects reads zeros, and their entries are freed without
another advance of their generations; one that has been freed since then stays as it is. -/
def execKeyEndZeroFillComplete (port key : Nat) (s : State) : Out :=
  match s.zfill.find? fun z => z.1 == port && z.2.1 == key with
  | none => .fault .notDue
  | some z =>
    let s := { s with zfill := s.zfill.filter fun y => !(y.1 == port && y.2.1 == key) }
    .next (State.settle (z.2.2.foldl (fun (s : State) x =>
      let o := x.1
      let e := s.entry o
      if !e.valid || e.gen != x.2 then s else
      let a := flat (oidSp o) e.base
      let s := s.freeObj o false
      { s with mem := mzero s.mem a (roundTo e.len 64), badw := s.badw.filter fun p =>
          !(decide (a ≤ p.1 * 8) && decide (p.1 * 8 < a + roundTo e.len 64)) }) s))

/-- ENTROPY_HEALTH_FAILURE (R359, R371). -/
def execEntropyHealthFailure (s : State) : Out := .next { s with entropyBad := true }

/-! ### The Separator's instructions (R370, R371) -/

/-- The port number that stands for the Separator's private SRAM in a capability; no object id names a port with it (log 21). -/
def sepPort : Nat := 70
/-- Runs `k` on the Separator's core. -/
def sepOnly (i : Instr) (s : State) (k : State → Out) : Out := match s.me.mode with
  | .m => k s
  | .u => s.modeFault i
  | .s => s.modeFault i
  | .d => s.modeFault i
/-- A capability operand: not null, with the right, over the Separator's SRAM. -/
def sepChk (n r : Nat) (c : Cap) : Chk Unit := do
  notNull c n
  rights (c.has r && oidPort c.o == sepPort) c n
/-- The bytes of a capability over that SRAM. -/
def State.sepBytes (s : State) (c : Cap) : List Byte := mbytes s.mem (flat (oidSp c.o) c.b) c.l

/-- SHK. -/
def execShk (la a b d : Nat) (s : State) : Out :=
  sepOnly (.shk la a b d) s fun s => mxInstr s fun s =>
    let n := s.xn b
    checked (do sepChk a rR (s.c a); sepChk d rW (s.c d)) s fun _ =>
      if n = 0 || (s.c d).l < n then s.engine 64
      else .next (s.openW la (.shk la a b d) (.wait (.sepOut (s.c d) (shake256 (s.sepBytes (s.c a)) n))))

/-- The fused secret (R368). -/
def fusedSecret : List Byte := (List.range 32).map Config.identity
/-- The private key with index 0 or 1: derived by SHAKE256 from the fused secret; the boot alias from key 0 and M0 (log 16). -/
def State.sepKeyOf (s : State) (j : Nat) : List Byte :=
  let k0 := shake256 fusedSecret 57
  if j = 0 then k0 else shake256 (k0 ++ sget (List.replicate 64 0) s.meas 0) 57
/-- EDSIG. -/
def execEdsig (la a b d : Nat) (s : State) : Out :=
  sepOnly (.edsig la a b d) s fun s => mxInstr s fun s =>
    let j := s.xn b
    checked (do sepChk a rR (s.c a); sepChk d rW (s.c d)) s fun _ =>
      if 2 ≤ j then s.engine 65
      else if (s.c d).l < 114 then s.trap cCAP_BOUNDS (s.c d).top
      else .next (s.openW la (.edsig la a b d) (.wait (.sepOut (s.c d) (edSign (s.sepKeyOf j) (s.sepBytes (s.c a))))))
/-- EDVER. -/
def execEdver (la a b d : Nat) (s : State) : Out :=
  sepOnly (.edver la a b d) s fun s => mxInstr s fun s =>
    checked (do sepChk a rR (s.c a); sepChk b rR (s.c b)) s fun _ =>
      if (s.c a).l ≠ 171 then s.engine 66
      else
        let p := s.sepBytes (s.c a)
        .next (s.openW la (.edver la a b d)
          (.done { xs := [(d, if edVerify (p.take 57) (p.drop 57) (s.sepBytes (s.c b)) then 0 else 1)] }))
/-- DRBG: the output is a free value (log 15). -/
def execDrbg (d : Nat) (s : State) : Out :=
  sepOnly (.drbg d) s fun s =>
    if s.entropyBad then s.engine 68
    else { s with free := s.free + 1 }.finishX d (Config.drbg s.free)

end Sys2Proof.Machine
end

