-- ==== Sys2Proof/Machine/Move.lean ====
section
/-! DEFINITION. The move engine (10 R251, R252): mb.send, mv.copy and ifetch, messages and mailboxes (R254 to R268). -/
namespace Sys2Proof.Machine

/-! ### The instructions -/

/-- Fields of a destination descriptor (R256). -/
def dUser (x : Nat) : Nat := bits x 32 32
def dPri (x : Nat) : Nat := bits x 24 2
def dBox (x : Nat) : Nat := bits x 20 3
def dPkg (x : Nat) : Nat := bits x 12 8
def dTile (x : Nat) : Nat := bits x 0 12
/-- The first station that leads to a package from a die's world, plus 1; 0 for none (15 R379). -/
def State.route (s : State) (die pkg : Nat) : Nat :=
  match sget [] s.routes (bits s.wrow (die / 8 * 4) 3 * 256 + pkg) with
  | st :: _ => st + 1
  | [] => 0
/-- The descriptor is refused (ENGINE 16). -/
def State.badDesc (s : State) (x : Nat) : Bool :=
  bits x 26 6 != 0 || tbit x 23 || (dPkg x != s.pkgno && s.route (s.gta / 64) (dPkg x) == 0)

/-- MB_SEND (R266): the capability register is cleared at issue. One over a launch record cannot be carried (04 R85). -/
def execMbSend (la a b d : Nat) (s : State) : Out :=
  mxInstr s fun s =>
    let x := s.xn b
    let pay := s.c a
    let k := s.c d
    if s.badDesc x then s.engine 16
    else if s.amoBusy s.cur then .next (s.holdOn .sync)
    else checked (do
      if pay = .null then pure () else do
        rights (pay.has rR) pay a
        if 16384 < pay.l then Except.error (cMSG_TOO_LARGE, pay.l) else pure ()
      if k = .null then pure () else rights (k.has rS && !k.launchRecord) k d) s fun _ =>
        match accept (.mbSend la a b d) la false (if pay = .null then [] else [rng pay pay.l]) [] (.send k pay x) s (·.setC d .null) with
        | .next s' => .next (if s'.me.hold.isNone && k ≠ .null then s'.l1Discard s.gta else s')
        | o => o

/-- MV_COPY (R269). -/
def execMvCopy (la a b d : Nat) (s : State) : Out :=
  mxInstr s fun s =>
    let ca := s.c a
    let cb := s.c b
    let cd := s.c d
    checked (do
      notNull ca a
      notNull cd d
      rights (ca.has rR) ca a
      rights (cd.has rW) cd d
      if cd.l < ca.l then Except.error (cCAP_BOUNDS, ca.l) else pure ()
      if ca.o = cd.o && ca.b < cd.top && cd.b < ca.top then Except.error (cENGINE, 18) else pure ()
      if cb ≠ .null && (!cb.has rW || cb.l < 16 || cb.b % 16 != 0 || 64 ≤ oidPort cb.o) then Except.error (cENGINE, 20)
      else pure ()) s fun _ =>
        accept (.mvCopy la a b d) la false [rng ca ca.l] [rng cd ca.l]
          (.copy cd ca cb (List.range ((ca.l + 255) / 256)) [] []) s

/-- The landing word and record of an overlay slot at an ifetch's issue (05 R132). -/
def Tile.ovArm (t : Tile) (k seg id n : Nat) : Tile :=
  { t with ov := sput {} t.ov k { seg := seg, valid := false, busy := true, last := id, landed := false, target := n, count := 0 } }
/-- IFETCH (05 R132). -/
def execIfetch (la a b : Nat) (s : State) : Out :=
  mxInstr s fun s =>
    let c := s.c a
    let seg := bits (s.xn b) 0 8
    let k := bits (s.xn b) 8 3
    checked (do
      notNull c a
      rights (c.has rX) c a
      if c.l ≤ seg * 8192 then Except.error (cCAP_BOUNDS, seg * 8192) else pure ()) s fun _ =>
        match accept (.ifetch la a b) la false [(c.o, c.b + seg * 8192, c.b + min c.l (seg * 8192 + 8192))] [] (.ifetch c k seg) s with
        | .next s' => .next (if s'.me.hold.isNone then
            s'.updTile s.gta (·.ovArm k seg s.nextId (min 8192 (c.l - seg * 8192))) else s')
        | o => o

/-! ### Mailboxes (R257 to R263) -/

/-- Cluster of a tile, as its SRAM port (01 R11). -/
def clusterPort (g : Nat) : Nat := 64 + g % 64 / 8 / 4 * 2 + g % 8 / 4
/-- Flat address of the landing word of mailbox `mb`, when there is one (R257). -/
def State.mboxLand (s : State) (g mb : Nat) : Option Nat :=
  let c := s.holdAt g (3856 + mb)
  let e := s.entry c.o
  if sget 0 s.badh (g * 4096 + (3856 + mb)) = 0 && c ≠ .null && c.has rW && 16 ≤ c.l && c.b % 16 = 0 && isOwn g c.o && e.valid
      && e.gen = c.g then
    some (flat (ownSp g) (e.base + c.b)) else none
/-- The receive arena of mailbox `mb`, when its port is admitted (R257). -/
def State.mboxArena (s : State) (g mb : Nat) : Option Cap :=
  let c := s.holdAt g (3848 + mb)
  if sget 0 s.badh (g * 4096 + (3848 + mb)) = 0 && c.has rN && oidIdx c.o = 0 && (isOwn g c.o || oidSp c.o = g / 64 * 128 + clusterPort g || oidSp c.o = g / 64 * 128 + 68)
    then some c else none

/-- An engine's write into a mailbox buffer: one that reaches live descriptor bytes, or bytes that hold capabilities, is refused (11 R285,
12 R328). -/
def State.engPut (s : State) (a : Nat) (bs : List Byte) : State :=
  if s.noWrite a bs.length then s else State.settle ({ s with mem := mwrite s.mem a bs }.goodWords a bs.length)
/-- A doubleword or word of the header of the buffer at pool address `b`. -/
def State.mbGet (s : State) (g b o n : Nat) : Nat := mnat s.mem (flat (ownSp g) (b + o)) n
def State.mbPut (s : State) (g b o n v : Nat) : State := s.engPut (flat (ownSp g) (b + o)) (toBytes n v)
/-- The registration entry of the mailbox holds an uncorrectable error (05 R137). -/
def State.mbEntryBad (s : State) (g mb : Nat) : Bool := sget 0 s.badh (g * 4096 + (3840 + mb)) != 0
/-- The buffer object of mailbox `mb`, when its header holds a word with the poison syndrome (13 R345). -/
def State.mbHurt (s : State) (g mb : Nat) : Option Nat := match s.mbox g mb with
  | some (b, _) => if s.badWords (flat (ownSp g) b) 32 then some (s.holdAt g (3840 + mb)).o else none
  | none => none
/-- Records of a mailbox. -/
def State.recs (s : State) (g mb : Nat) : List MRec := sget [] (s.tile g).mboxes mb
def State.putRecs (s : State) (g mb : Nat) (r : List MRec) : State :=
  s.updTile g fun t => { t with mboxes := sput [] t.mboxes mb r }

/-- Counters after vis has passed every complete record at the front (R262). -/
def visAfter (v : Nat) : List MRec → Nat
  | [] => v
  | r :: rs => if r.pos < v then visAfter v rs else if r.complete then visAfter (r.pos + r.size) rs else v
/-- head after released and pad records at the front; the records that remain (R263). -/
def headAfter (h vis : Nat) : List MRec → Nat × List MRec
  | [] => (h, [])
  | r :: rs => if r.released && r.pos < vis then headAfter (r.pos + r.size) vis rs else (h, r :: rs)

/-- The capability slot of a record written and marked, or cleared (R259). -/
def State.capSlot (s : State) (g b d pos : Nat) (c : Option Cap) : State :=
  let a := flat (ownSp g) (b + 64 + pos % d + 16)
  match c with
  | some c => State.settle { s with marks := sput 0 s.marks a 32, mcaps := sput .null s.mcaps a c, mem := mzero s.mem a 16 }
  | none => { s with marks := sput 0 s.marks a 0, mcaps := sput .null s.mcaps a .null }

/-- head advances over released records; messages held for lack of space may retry (R261, R263). -/
def State.mbFree (s : State) (g mb : Nat) : State :=
  match s.mbox g mb with
  | none => s
  | some (b, d) =>
    match s.mbHurt g mb with
    | some o => s.poisonObj o
    | none =>
    let rs := s.recs g mb
    let r := headAfter (s.mbGet g b 0 8) (s.mbGet g b 16 8) rs
    let gone := rs.take (rs.length - r.2.length)
    let s := gone.foldl (fun s x => if x.id = 0 then s else s.capSlot g b d x.pos none) s
    (s.mbPut g b 0 8 r.1).putRecs g mb r.2

/-- The message that mb.recv would take next (R263): lowest priority value, then earliest. -/
def nextMsg (vis : Nat) (rs : List MRec) : Option MRec :=
  let ok := rs.filter fun r => r.id != 0 && r.complete && decide (r.pos < vis) && !r.taken
  (List.range 4).findSome? fun p => ok.find? fun r => r.pri == p

/-- Strand `k` takes the message that is due: the results of its mb.recv (R267). -/
def State.mbTake (s : State) (k mb d x : Nat) : Option (State × Res) :=
  let g := k / 16
  match s.mbox g mb with
  | none => none
  | some (b, D) =>
    match nextMsg (s.mbGet g b 16 8) (s.recs g mb) with
    | none => none
    | some r =>
      let s := s.putRecs g mb ((s.recs g mb).map fun y => if y.id = r.id then { y with taken := true, cap := .null } else y)
      let s := s.mbPut g b 24 4 (s.mbGet g b 24 4 + 1)
      let s := s.updSlot k fun t => { t with taken := sput 0 t.taken mb (r.id + 1) }
      let s := if d = 0 then s.returnCap g r.cap else s
      some (s, { xs := [(x, BitVec.ofNat 64 (64 + r.pos % D))], cs := [(d, r.cap)], acquire := true })

/-- Parked strands of a mailbox, in the order in which they posted, take the messages that are visible (R267). -/
def State.mbServe (s : State) (g mb : Nat) : List (Nat × Nat) → State
  | [] => s
  | (k, w) :: rest =>
    match (s.slot k).wins.find? (fun x => x.id == w) with
    | some x => (match x.st with
      | .wait (.recv m d c) =>
        if m ≠ mb then s.mbServe g mb rest
        else if (s.mbHurt g mb).isSome then
          let o := (s.mbHurt g mb).getD 0
          (((s.poisonObj o).endWin k w (.fail cCAP_POISON o)).updTile g fun t =>
            { t with mbWaits := sput [] t.mbWaits mb ((sget [] t.mbWaits mb).filter fun p => p != (k, w)) }).mbServe g mb rest
        else (match s.mbTake k mb c d with
          | some r =>
            let s := r.1.endWin k w (.done r.2)
            (s.updTile g fun t => { t with mbWaits := sput [] t.mbWaits mb ((sget [] t.mbWaits mb).filter fun p => p != (k, w)) }).mbServe
              g mb rest
          | none => s)
      | _ => s.mbServe g mb rest)
    | none => s.mbServe g mb rest

/-- The slot's taken message on a mailbox is released (R263). -/
def State.mbRelease (s : State) (k mb : Nat) : State :=
  let t := sget 0 (s.slot k).taken mb
  if t = 0 then s
  else
    let g := k / 16
    let s := s.updSlot k fun u => { u with taken := sput 0 u.taken mb 0 }
    (s.putRecs g mb ((s.recs g mb).map fun r => if r.id + 1 = t then { r with released := true } else r)).mbFree g mb
/-- Every taken message of a slot is released. -/
def State.mbReleaseAll (s : State) (k : Nat) : Nat → State
  | 0 => s
  | n + 1 => (s.mbReleaseAll k n).mbRelease k n

/-- MB_RECV (R267). A registration entry with an uncorrectable error is an MCHECK (05 R137), and a header with a poisoned word a deferred
CAP_POISON (13 R345). -/
def execMbRecv (la a imm d : Nat) (s : State) : Out :=
  if s.me.occ = .codelet then s.illegal (.mbRecv la a imm d)
  else mxInstr s fun s =>
    if s.dropWaits (s.c d) then .next (s.holdOn (.drop (s.c d).o))
    else if s.mbEntryBad s.gta imm then s.trap cMCHECK (3 + (3840 + imm) * 2 ^ 16)
    else if (s.mbox s.gta imm).isNone then s.engine 17
    else match s.mbHurt s.gta imm with
    | some o => .next ((s.poisonObj o).openW la (.mbRecv la a imm d) (.fail cCAP_POISON o))
    | none =>
      let s := s.mbRelease s.cur imm
      match (if (sget [] (s.tile s.gta).mbWaits imm).isEmpty then s.mbTake s.cur imm d a else none) with
      | some r => .next (r.1.openW la (.mbRecv la a imm d) (.done r.2))
      | none =>
        let w := s.me.nextWid
        .next ((s.openW la (.mbRecv la a imm d) (.wait (.recv imm a d)) (limit s.me.wlim)).updTile s.gta fun t =>
          { t with mbWaits := sput [] t.mbWaits imm (sget [] t.mbWaits imm ++ [(s.cur, w)]) })

/-- MB_PEEK (R268). What it reads of the buffer may hold a poisoned word (13 R345). -/
def execMbPeek (imm d : Nat) (s : State) : Out :=
  let hurt (s : State) : Out := (s.poisonObj (s.holdAt s.gta (3840 + imm)).o).trap cCAP_POISON (s.holdAt s.gta (3840 + imm)).o
  if s.mbEntryBad s.gta imm then s.trap cMCHECK (3 + (3840 + imm) * 2 ^ 16)
  else match s.mbox s.gta imm with
  | none => s.engine 17
  | some (b, D) =>
    if (s.mbHurt s.gta imm).isSome then hurt s
    else match nextMsg (s.mbGet s.gta b 16 8) (s.recs s.gta imm) with
    | some r =>
      if s.badWords (flat (ownSp s.gta) (b + (64 + r.pos % D))) 8 then hurt s
      else s.finishX d (BitVec.ofNat 64 (s.mbGet s.gta b (64 + r.pos % D) 8))
    | none => s.finishX d (BitVec.allOnes 64)

/-! ### Start of a move command (R251, R252) -/

/-- The head of a tile's move queue. -/
def State.mvHead (s : State) (g : Nat) : Option Cmd := (s.queued false g).head?
/-- Places of a tile's work list in use: started commands, returned messages it holds (R251, R264), migrated contexts. -/
def State.mvBusy (s : State) (g : Nat) : Nat :=
  (s.cmds.filter fun c => c.g == g && !c.mx && c.running).length + (s.msgs.filter fun m => m.holder == g && m.ret).length
    + (s.migs.filter fun c => c.origin == g).length
/-- A byte range of a window, as the range of the object that an export of this package gives (15 R383). -/
def State.realRange (s : State) (r : Nat × Nat × Nat) : Nat × Nat × Nat := match s.winEnt r.1 with
  | some e => if e.valid && e.exported then (e.oid, e.base + r.2.1, e.base + r.2.2) else r
  | none => r
/-- Every granule of the command's ranges is resident (05 R133), and of an object that a send copies to another package. -/
def State.cmdHere (s : State) (c : Cmd) : Bool :=
  let sent : List (Nat × Nat × Nat) := match c.op with
    | .send k _ x => if dPkg x ≠ s.pkgno && k.isOwner && k ≠ .null then [(k.o, 0, (s.entry k.o).len)] else []
    | _ => []
  ((c.rd ++ c.wr ++ sent).map s.realRange).all fun r =>
    isSram r.1 || isWindow r.1 || !(s.entry r.1).valid || s.rangeHere r.1 (s.entry r.1) r.2.1 (r.2.2 - r.2.1)
/-- Strand `k` has issued a store to the object that has not been applied; it may lie in its commit buffer (06 R149). -/
def State.tileStores (s : State) (k o : Nat) : Bool := s.storesOn k o || (s.slot k).buffers o
/-- The command need wait no longer for its strand: earlier accesses to its objects applied (06 R148, R252), and for a send every earlier
command complete and every store of the tile to what it carries applied (06 R149). -/
def State.cmdDrained (s : State) (c : Cmd) : Bool :=
  !s.behind c
    && (match c.op with
    | .send k _ _ => !s.drains c.key c.id && !(k != .null && (List.range 16).any fun i => s.tileStores (c.g * 16 + i) k.o)
    | _ => true)

/-- A transfer of an engine that has started meets the object at its port: the tile has failed (04 R111), the entry has gone, holds an
error (05 R137), or is poisoned. -/
def State.lost (s : State) (c : Cap) : Bool :=
  let e := s.entry c.o
  s.fencedAt c.o || !e.valid || e.gen != c.g || e.bad || e.poison
/-- The window needs no answer of another package: it is not a window, or it is an export of this one. -/
def State.isLocal (s : State) (c : Cap) : Bool := match s.winOf c with
  | .ok e => e.exported
  | .error _ => true
/-- Bytes of packet `p` of a copy. -/
def packetLen (src : Cap) (p : Nat) : Nat := min 256 (src.l - 256 * p)
/-- The fault that a refusal at a window's exporter brings the strand of a copy, beside the landing word's err bit: the cause of R87 with
the window's object id (15 R383, R384). A poisoned word is no more than err (13 R345), and so is a granule that has gone. -/
def copyFault (o : Nat) (f : Nat × Nat) : Option (Nat × Nat) :=
  if f.1 = cCAP_POISON || f.1 = cINTEGRITY || f.1 = cNOT_RESIDENT then none else some (f.1, o)
/-- Packet `p` of a copy as its source in this package gives it, or what its failure brings the strand. -/
def State.copySrc (s : State) (src : Cap) (p : Nat) : Except (Option (Nat × Nat)) (List Byte) :=
  let n := packetLen src p
  if isWindow src.o then
    (match s.exportAccess src.o src.g (src.b + 256 * p) n none with
    | .ok r => .ok r.2
    | .error f => .error (copyFault src.o f))
  else if s.lost src || s.badIn src.o (s.entry src.o) (src.b + 256 * p) n != 0 then .error none
  else .ok (s.readObj src.o (s.entry src.o) (src.b + 256 * p) n)
/-- The source of a copy is poisoned when packet `p` meets a word with the poison syndrome (13 R345). -/
def State.copyPoison (s : State) (src : Cap) (p : Nat) : State :=
  let e := s.entry src.o
  let n := min 256 (src.l - 256 * p)
  if isWindow src.o then
    (match s.exportAccess src.o src.g (src.b + 256 * p) n none with
    | .ok _ => s
    | .error f => s.exportHurt src.o (src.b + 256 * p) n f)
  else if e.valid && e.gen == src.g && s.badIn src.o e (src.b + 256 * p) n != 0 then s.poisonObj src.o else s
/-- The flat address of a landing capability's word, none for c0. -/
def State.landAddr (s : State) (c : Cap) : Option Nat :=
  if c = .null then none else some (flat (oidSp c.o) ((s.entry c.o).base + c.b))
/-- A fault that a command of the move engine meets after its window has closed: the strand takes it as a deferred fault, once for a
command, while it holds its slot (log 98). -/
def State.lateFault (s : State) (c : Cmd) (cause tval : Nat) : State :=
  match s.cmds.find? fun x => x.id == c.id with
  | some x =>
    if x.hurt || !((s.slot c.key).occ == .persistent || (s.slot c.key).occ == .codelet) then s
    else (s.updCmd c.id fun y => { y with hurt := true }).updSlot c.key fun t =>
      { t.endCounting with dfs := t.dfs ++ [(c.win, cause, tval, c.addr)] }
  | none => s
/-- A packet of `id` counted, where a landing word is named; a count that marked bytes refuse is a deferred CAP_RIGHTS of the strand that
issued the command (11 R285; log 98), and one that meets a poisoned word a deferred CAP_POISON (13 R345). -/
def State.landMaybe (s : State) (a : Option Nat) (n : Option Nat) (id : Nat) : State := match a with
  | some a =>
    let hurt := !s.noWrite a 16 && s.badWords a 16
    (match (if s.noWrite a 16 || hurt then s.cmds.find? fun c => c.id == id else none) with
    | some c => (if hurt then s.poisonWord a else s).lateFault c (if hurt then cCAP_POISON else cCAP_RIGHTS) (s.objAt a)
    | none => s.landCount a n id)
  | none => s
/-- A packet of copy `id` ends without being counted: the landing word's err bit is set, and the strand takes the fault `f`, if any. -/
def State.packetLost (s : State) (id p : Nat) (f : Option (Nat × Nat)) : State :=
  match s.cmds.find? fun c => c.id == id with
  | some c => (match c.op with
    | .copy dst src land todo got acked =>
      let rest := todo.erase p
      let s := s.updCmd id fun x => { x with op := .copy dst src land rest got acked, fin := rest.isEmpty }
      let s := s.landMaybe (s.landAddr land) none id
      (match f with
      | some f => s.lateFault c f.1 f.2
      | none => s)
    | _ => s)
  | none => s
/-- Packet `p` of copy `id` leaves for the window `dst` of another package with its bytes. -/
def State.copyOut (s : State) (id : Nat) (dst : Cap) (p : Nat) (bs : List Byte) : State :=
  match s.winOf dst with
  | .ok e => (s.uaSend { id := 0, st := stationOf dst.o, op := .copyWrite id p, pidx := e.pidx, pgen := e.pgen,
                         off := dst.b + 256 * p, len := bs.length, data := some bs, sentAt := s.cycle }).1
  | .error f => s.packetLost id p (some f)
/-- Packets of a copy that a window's station must answer: each is read first, where the source is such a window, and then written. -/
def State.copyRemote (s : State) (c : Cmd) (dst src : Cap) (todo : List Nat) : State :=
  match (if s.isLocal src then none else (s.winOf src).toOption) with
  | some e =>
    todo.foldl (fun s p => (s.uaSend { id := 0, st := stationOf src.o, op := .copyRead c.id p, pidx := e.pidx, pgen := e.pgen,
                                       off := src.b + 256 * p, len := packetLen src p, sentAt := s.cycle }).1) s
  | none =>
    if s.isLocal dst then s
    else todo.foldl (fun (s : State) p => match s.copySrc src p with
      | .ok bs => s.copyOut c.id dst p bs
      | .error f => (s.copyPoison src p).packetLost c.id p f) s

/-- How a carried capability travels (R254). -/
def State.deliverHow (s : State) (k : Cap) (pkg dest : Nat) : Deliver :=
  if k = .null then .none
  else if k.has rQ || k.has rL then .rights
  else if isWindow k.o then .rights
  else if pkg = s.pkgno && (oidPort k.o = 68 || oidPort k.o = 69 || oidSp k.o = dest / 64 * 128 + clusterPort dest
      || (oidPort k.o < 64 && oidDie k.o = dest / 64 && clusterPort (oidPort k.o) = clusterPort dest)) then .owner
  else .copy

/-- The checks of a send at its start (R266, R255, R388). -/
def State.sendChk (s : State) (c : Cmd) (k pay : Cap) (pkg : Nat) : Chk Unit := do
  if pay = .null then pure () else s.startChk c pay false
  if k = .null then pure ()
  else if k.has rQ || k.has rL then (if pkg ≠ s.pkgno then Except.error (cCAP_RIGHTS, k.o) else pure ())
  else if isWindow k.o then
    match s.winOf k with
    | .error f => Except.error f
    | .ok _ => pure ()
  else do
    s.startChk c k false
    let e := s.entry k.o
    if 0 < e.fracs || 0 < e.fills then Except.error (cCAP_RIGHTS, k.o) else pure ()
    if pkg ≠ s.pkgno && e.cls ≠ 0 then Except.error (cCAP_RIGHTS, k.o) else pure ()

/-- The port checks of a move command that reads or writes objects would fail: it need not wait for their granules (04 R87). -/
def State.cmdBad (s : State) (c : Cmd) : Bool :=
  let bad (cp : Cap) (w : Bool) : Bool := !isWindow cp.o && !(s.startChk c cp w).isOk
  match c.op with
  | .send k pay x => !(s.sendChk c k pay (dPkg x)).isOk
  | .copy dst src _ _ _ _ => bad src false || bad dst true
  | .push _ src _ _ _ _ => bad src false
  | .ifetch src _ _ => bad src false
  | _ => false
/-- No granule keeps the command waiting. -/
def State.cmdMay (s : State) (c : Cmd) : Bool := s.cmdHere c || s.cmdBad c

/-- The message goes to another package. -/
def Msg.far (m : Msg) : Bool := 4096 ≤ m.dest
/-- Package, tile and mailbox of a descriptor. -/
def boxOf (desc : Nat) : Nat := desc % 2 ^ 23
/-- The message may leave for another package (R260): it has not left, and no earlier one of its sender to that mailbox is without the
answer to its reservation. -/
def State.mayLeave (s : State) (m : Msg) : Bool :=
  m.far && m.st == .sent && !s.uareqs.any (fun r => r.op == .message m.id)
    && !(s.msgs.any fun x => x.far && x.holder == m.holder && boxOf x.odesc == boxOf m.odesc && decide (x.id < m.id))
    && !(s.cmds.any fun c => c.g == m.holder && c.running && !c.went && decide (c.id < m.id) && (match c.op with
      | .send _ _ x => boxOf x == boxOf m.odesc
      | _ => false))
/-- The message leaves: its payload, and behind it the bytes of an object that travels by copy, which is poisoned when they meet a word
with the poison syndrome (R255, R388). -/
def State.msgLeave (s : State) (m : Msg) : State :=
  let e := s.entry m.cap.o
  let copy := m.how == .copy
  let bad := copy && (e.poison || s.badIn m.cap.o e 0 e.len != 0)
  let all := if copy then m.pay ++ s.readObj m.cap.o e 0 e.len else m.pay
  let s := if bad then s.poisonObj m.cap.o else s
  let r := s.uaSend { id := 0, st := s.route (m.holder / 64) (dPkg m.odesc) - 1, op := .message m.id, len := all.length,
                      data := some all, sentAt := s.cycle }
  { r.1 with msgs := r.1.msgs.map fun x => if x.id = m.id then { x with hurt := bad } else x }
/-- Messages that may leave now do. -/
def State.farServe (s : State) : State := s.msgs.foldl (fun (s : State) m => if s.mayLeave m then s.msgLeave m else s) s

/-- A move command that has drained reads its operands and makes its port checks (R266, R269, R272; 05 R132). -/
def State.moveGo (s : State) (c : Cmd) : State :=
  let failed (f : Nat × Nat) : State := ((s.noteRefusal c.g f.2 f).endWin c.key c.win (.fail f.1 f.2)).cmdGone c
  let poisoned (o : Nat) (bad : Nat) : State :=
    (((s.poisonObj o).endWin c.key c.win (.fail (if bad = 2 then cINTEGRITY else cCAP_POISON) o)).cmdGone c)
  let going (s : State) : State := s.updCmd c.id fun x => { x with running := true, went := true }
  match c.op with
  | .send k pay x =>
    (match s.sendChk c k pay (dPkg x) with
    | .error f => failed f
    | .ok _ =>
      let bad := if pay = .null then 0 else s.badIn pay.o (s.entry pay.o) pay.b pay.l
      if bad ≠ 0 then poisoned pay.o bad
      else
      let bs := if pay = .null then [] else s.readObj pay.o (s.entry pay.o) pay.b pay.l
      let how := s.deliverHow k (dPkg x) (dTile x)
      let m : Msg := { id := c.id, holder := c.g, dest := dTile x, mbox := dBox x, spkg := s.pkgno, stile := c.g, pri := dPri x,
                       user := dUser x, odesc := x % 2 ^ 32, pay := bs, cap := k, how := how, payDone := bs.isEmpty }
      let s := (going (s.endWin c.key c.win (.done {}))).updCmd c.id fun x => { x with reads := [], rd := [] }
      if dPkg x = s.pkgno then { s with msgs := s.msgs ++ [m] }
      else State.farServe { s with msgs := s.msgs ++ [{ m with dest := 4096 + dPkg x }] })
  | .copy dst src land todo _ _ =>
    (match (do
      (if isWindow src.o then (match s.winOf src with
        | .error f => Except.error f
        | .ok _ => pure ()) else s.startChk c src false)
      (if isWindow dst.o then (match s.winOf dst with
        | .error f => Except.error f
        | .ok _ => pure ()) else s.startChk c dst true)
      if land = .null then pure () else s.startChk c land true : Chk Unit) with
    | .error f => failed f
    | .ok _ =>
      let s := (going (s.endWin c.key c.win (.done {}))).updCmd c.id fun x => { x with fin := todo.isEmpty }
      s.copyRemote c dst src todo)
  | .push ring src d wl _ seq =>
    (match s.startChk c src false with
    | .error f => failed f
    | .ok _ =>
      let bad := s.badIn src.o (s.entry src.o) src.b src.l
      if bad ≠ 0 then poisoned src.o bad
      else (going s).updCmd c.id fun x =>
        { x with op := .push ring src d wl (s.readObj src.o (s.entry src.o) src.b src.l) seq })
  | .ifetch src k _ =>
    (match s.startChk c src false with
    | .error f => (failed f).updTile c.g fun t =>
        let o := sget {} t.ov k
        if o.last = c.id then { t with ov := sput {} t.ov k { o with valid := false, busy := false } } else t
    | .ok _ => going s)
  | _ => going s

/-- MOVE_COMMAND_START (R251): the head of tile g's queue starts when a place is free; it goes on at once if its strand's earlier
accesses are done. A granule that is not resident, or an earlier load of the same overlay slot, keeps it at the head. -/
def execMoveCommandStart (g : Nat) (s : State) : Out :=
  match s.mvHead g with
  | none => .fault .notDue
  | some c =>
    let behind := match c.op with
      | .ifetch _ k _ => s.cmds.any fun x => x.g == g && x.running && (match x.op with
          | .ifetch _ k' _ => k' == k
          | _ => false)
      | _ => false
    if s.cycle < c.at_ + 8 || 16 ≤ s.mvBusy g || behind || !s.cmdMay c then .fault .notDue
    else
      let s := s.updCmd c.id fun x => { x with running := true }
      .next (if s.cmdDrained c then s.moveGo c else s)
/-- A started command that was draining goes on. -/
def State.moveDrained (s : State) (id : Nat) : Option State :=
  match s.cmds.find? fun c => c.id == id with
  | some c => if !c.mx && c.running && !c.went && !c.fin && s.cmdDrained c && s.cmdMay c then some (s.moveGo c) else none
  | none => none

/-! ### Copies (R269) and overlay loads (05 R132) -/

/-- One packet of a copy written; or what its failure brings the strand: CAP_RIGHTS for one of the engine's writes that a mark refuses (11
R285, 12 R328), INTEGRITY for a sector without a version left (14 R354), and the refusal of a window. -/
def State.copyPacket (s : State) (dst src : Cap) (got : List (Nat × List Byte)) (p : Nat) : Except (Option (Nat × Nat)) State :=
  let bs : Except (Option (Nat × Nat)) (List Byte) := match got.find? fun x => x.1 == p with
    | some x => .ok x.2
    | none => s.copySrc src p
  match bs with
  | .error f => .error f
  | .ok bs =>
    if isWindow dst.o then
      (match s.exportAccess dst.o dst.g (dst.b + 256 * p) bs.length (some bs) with
      | .ok r => .ok r.1
      | .error f => .error (if f.1 = cINTEGRITY then some (f.1, dst.o) else copyFault dst.o f))
    else if s.lost dst then .error none
    else if (s.refusedWrite dst.o (s.entry dst.o) (dst.b + 256 * p) bs.length).isSome then .error (some (cCAP_RIGHTS, dst.o))
    else if s.versionEnd dst.o (s.entry dst.o) (dst.b + 256 * p) bs.length then .error (some (cINTEGRITY, dst.o))
    else .ok (s.writeObj dst.o (s.entry dst.o) (dst.b + 256 * p) bs)

/-- Packet `p` of copy `c` delivered and counted. -/
def State.copyCount (s : State) (c : Cmd) (dst src land : Cap) (todo : List Nat) (got : List (Nat × List Byte)) (acked : List Nat)
    (p : Nat) : Out :=
  let ready := if !s.isLocal dst then acked.contains p else s.isLocal src || got.any fun x => x.1 == p
  if !todo.contains p || !ready then .fault .notDue
  else
    let rest := todo.erase p
    let s := s.updCmd c.id fun x => { x with op := .copy dst src land rest got acked, fin := rest.isEmpty }
    let n := packetLen src p
    let a := s.landAddr land
    if !s.isLocal dst then .next (s.landMaybe a (some n) c.id)
    else match s.copyPacket dst src got p with
      | .ok s' => .next (s'.landMaybe a (some n) c.id)
      | .error none => .next ((s.copyPoison src p).landMaybe a none c.id)
      | .error (some f) =>
        let s := if f.1 ≠ cINTEGRITY then s else if isWindow dst.o then s.exportHurt dst.o (dst.b + 256 * p) n f else s.poisonObj dst.o
        .next ((s.landMaybe a none c.id).lateFault c f.1 f.2)

/-- The record of overlay slot `k` when load `id` ends: it changes only for the last load issued to the slot (05 R132). -/
def State.ovEnd (s : State) (g k id : Nat) (valid : Bool) : State :=
  s.updTile g fun t =>
    let o := sget {} t.ov k
    if o.last ≠ id then t
    else { t with ov := sput {} t.ov k (if valid then { o with valid := true, busy := false, landed := true, count := o.target }
        else { o with valid := false, busy := false }) }
/-- IFETCH_LOAD_COMPLETE (05 R132): the bytes reach the overlay; the port of a stopped tile holds their count (16 R390). -/
def execIfetchLoadComplete (id : Nat) (s : State) : Out :=
  match s.cmds.find? fun c => c.id == id with
  | none => .fault .notDue
  | some c =>
    match c.op with
    | .ifetch src k seg =>
      if !c.went || c.fin then .fault .notDue
      else
        let n := min 8192 (src.l - seg * 8192)
        let e := s.entry src.o
        let off := src.b + seg * 8192
        let bad := s.badIn src.o e off n
        let f : Option (Nat × Nat) :=
          if s.fencedAt src.o then some (cCAP_POISON, src.o)
          else if !e.valid || e.gen != src.g then some (cCAP_STALE, src.o)
          else if e.bad then some (cMCHECK, src.o)
          else if e.poison then some (cCAP_POISON, src.o)
          else if bad ≠ 0 then some (if bad = 2 then cINTEGRITY else cCAP_POISON, src.o) else none
        let s := s.updCmd id fun x => { x with fin := true }
        if f.isSome then
          let s := if bad ≠ 0 then s.poisonObj src.o else s
          .next ((s.endWin c.key c.win (.fail (f.getD (0, 0)).1 (if (f.getD (0, 0)).1 = cMCHECK then 4 else src.o))).ovEnd c.g k id false)
        else
          let a := flat (spOverlay c.g) (k * 8192)
          let s := { s with mem := mwrite (mzero s.mem a n) a (s.readObj src.o e off n) }.endWin c.key c.win (.done {})
          .next (if (s.tile c.g).tstop then s.holdOp c.g (.ifetch k id) else s.ovEnd c.g k id true)
    | _ => .fault .notDue

/-- MOVE_COMMAND_COMPLETE (R252): a command whose work is done leaves the engine, once no full hold queue keeps its last operation (16
R390). -/
def execMoveCommandComplete (id : Nat) (s : State) : Out :=
  match s.cmds.find? fun c => c.id == id with
  | some c => if !c.mx && c.fin && !s.queueFull id then .next (s.cmdGone c) else .fault .notDue
  | none => .fault .notDue

/-! ### Reservations (R255, R260, R261, R264) -/

/-- A message replaced. -/
def State.updMsg (s : State) (id : Nat) (f : Msg → Msg) : State :=
  { s with msgs := s.msgs.map fun m => if m.id = id then f m else m }
/-- Bytes of a message's record (R259). -/
def Msg.size (m : Msg) : Nat := roundTo (16 + (if m.cap = .null then 0 else 16) + m.pay.length) 64
/-- Doublewords 0 and 1 of a message's header. -/
def Msg.head0 (m : Msg) : Nat :=
  m.spkg * 2 ^ 52 + m.stile * 2 ^ 40 + m.size / 64 * 2 ^ 24 + m.err * 2 ^ 20 + b2n m.ret * 2 ^ 18 + m.pri * 2 ^ 16
    + b2n (m.cap != .null) * 2 ^ 15 + m.pay.length
def Msg.head1 (m : Msg) : Nat := (if m.ret then m.odesc else 0) * 2 ^ 32 + m.user

/-- The outcome of R260 for a record of `z` bytes: new head, resv, vis, the pad's start, and the record's start; none: refused. -/
def reserve (head resv vis D z : Nat) : Option (Nat × Nat × Nat × Option Nat × Nat) :=
  let p := resv % D
  if head = resv && D < p + z then
    let r := resv + (D - p)
    if z ≤ D then some (r, r + z, r, none, r) else none
  else if p + z ≤ D then (if D - (resv - head) < z then none else some (head, resv + z, vis, none, resv))
  else if D - (resv - head) < D - p + z then none
  else some (head, resv + (D - p) + z, vis, some resv, resv + (D - p))

/-- The lowest free range of `n` bytes in [lo, hi) of a port: it begins at `lo` or where a marked range ends (R255). -/
def State.freeRange (s : State) (sp lo hi n : Nat) : Option Nat :=
  let u := unitOf (sp % 128)
  let ends := (s.entries.filterMap fun p =>
      if oidSp p.1 = sp && p.2.valid && !p.2.ext then some (p.2.base + roundTo p.2.len u) else none)
    ++ (s.entries.flatMap fun p => if oidSp p.1 = sp && p.2.valid && p.2.ext then
        (s.extents p.1 p.2).map fun x => x * 65536 + 65536 else [])
    ++ ((s.umark ++ s.dead).filterMap fun p => if p.1 / 2 ^ 48 = sp then some (roundTo (p.1 % 2 ^ 48 + p.2) u) else none)
  let ok := (roundTo lo u :: ends).filter fun b => decide (roundTo lo u ≤ b) && decide (b + n ≤ hi) && !s.unitsMarked sp b (max n u)
  ok.foldl (fun m b => match m with
    | none => some b
    | some x => some (min x b)) none
/-- The lowest `k` free granules from number `x` on, at most `fuel` looked at. -/
def State.freeGranules (s : State) (sp : Nat) : Nat → Nat → Nat → List Nat
  | 0, _, _ => []
  | fuel + 1, x, k =>
    if k = 0 then []
    else if s.unitsMarked sp (x * 65536) 65536 then s.freeGranules sp fuel (x + 1) k
    else x :: s.freeGranules sp fuel (x + 1) (k - 1)

/-- The place of an extent map of `k` entries in HBM storage `hbm`: the lowest free run of granules outside those taken (log 26). -/
def State.mapPlace (s : State) (hbm : Nat) (taken : List Nat) (k : Nat) : Option Nat :=
  State.freeRange { s with umark := taken.foldl (fun m a => sput 0 m a 65536) s.umark } hbm 0 (2 ^ 35) (roundTo (4 * k) 65536)
/-- The extent map of object `o` written at byte `m` of HBM storage `hbm`, its granules marked. -/
def State.putMap (s : State) (o hbm m : Nat) (gs : List Nat) : State :=
  let s := s.updEntry o fun e => { e with ext := true, base := m }
  { s with umark := sput 0 s.umark (flat hbm m) (roundTo (4 * gs.length) 65536),
           mem := mwrite s.mem (flat hbm m) (gs.flatMap fun x => toBytes 4 x) }

/-- The new object of a byte copy carved from an arena (R255): the state and its object id. -/
def State.carve (s : State) (arena : Cap) (e : Entry) (owner : Nat) : Option (State × Nat) :=
  let sp := oidSp arena.o
  let n := roundTo e.len (unitOf (sp % 128))
  match s.freeEntry sp with
  | none => none
  | some i =>
    match s.freeRange sp arena.b arena.top n with
    | some b =>
      let r := s.newObj sp b e.len owner e.attr i
      some (r.1, sp * 2 ^ 15 + i)
    | none =>
      if sp % 128 < 68 then none
      else
        let k := n / 65536
        let x := (arena.b + 65535) / 65536
        let gs := s.freeGranules sp (arena.top / 65536 - x) x k
        let hbm := sp / 128 * 128 + 68
        if gs.length < k then none
        else match s.mapPlace hbm (gs.map fun x => flat sp (x * 65536)) k with
        | none => none
        | some m =>
          let r := s.newObj sp 0 e.len owner e.attr i
          let o := sp * 2 ^ 15 + i
          some ((r.1.putEntry o { r.1.entry o with ext := true }).putMap o hbm m gs, o)

/-- An ENGINE code for which a message cannot be delivered (R253, R255, R264); 23 too where the mailbox's header holds a poisoned word (13
R345; log 116). -/
def State.bounceCode (s : State) (m : Msg) : Option Nat :=
  let e := s.entry m.cap.o
  if (s.tile m.dest).fenced || (m.spkg = s.pkgno && bits s.wrow (m.stile / 64 / 8 * 4) 4 ≠ bits s.wrow (m.dest / 64 / 8 * 4) 4) then some 23
  else if s.mbEntryBad m.dest m.mbox || (s.mbox m.dest m.mbox).isNone then some 17
  else if (s.mbHurt m.dest m.mbox).isSome then some 23
  else if m.how = .copy then
    match s.mboxArena m.dest m.mbox with
    | none => some 22
    | some a =>
      if (e.amo && oidPort a.o ≠ 68) || (e.cls = 2 && oidPort a.o = 69)
        || (e.cls ≠ 0 && !((s.key e.keyid).st == .live && (s.key e.keyid).world == bits s.wrow (m.dest / 64 / 8 * 4) 3)) then some 22
      else none
  else none

/-- A message that cannot be delivered returns to mailbox 0 of its sender (R264); when that fails too, its capability is lost and the
black box records it. The sender's command is done. The returned message is a new one of the tile that bounced it: it waits behind those
that the tile holds (R260, R261). -/
def State.bounce (s : State) (m : Msg) (code : Nat) : State :=
  let s := s.updCmd m.id fun c => { c with fin := true }
  if m.spkg ≠ s.pkgno then
    { s with msgs := s.msgs.filter (fun x => x.id != m.id), answers := sput (0, []) s.answers (256 + m.id) (code, []) }
  else if m.ret || (s.tile m.stile).fenced || (s.mbox m.stile 0).isNone then
    let s := { s with msgs := s.msgs.filter fun x => x.id != m.id }
    (s.discardCap m.stile m.cap).bb (m.stile / 64) ⟨s.tick, 9, 0xFF, m.stile, 0, 0, code, m.cap.o⟩
  else State.updMsg { s with nextId := s.nextId + 1 } m.id fun x =>
    { x with id := s.nextId, holder := m.dest, dest := m.stile, mbox := 0, pri := 0, ret := true, err := code - 16, st := .sent,
             how := if m.cap = .null then .none else .rights, payDone := x.pay.isEmpty, todo := [] }

/-- No earlier message of the same holder to the same mailbox is still without its reservation (R260). -/
def State.inOrder (s : State) (m : Msg) : Bool :=
  !(s.msgs.any fun x => x.holder == m.holder && x.dest == m.dest && x.mbox == m.mbox && decide (x.id < m.id) && (match x.st with
    | .reserved _ => false
    | _ => true))
  && !(s.cmds.any fun c => c.g == m.holder && c.running && !c.went && decide (c.id < m.id) && (match c.op with
    | .send _ _ x => dTile x == m.dest && dBox x == m.mbox
    | _ => false))

/-- A pad record's header (R259). -/
def padHead (size : Nat) : Nat := size / 64 * 2 ^ 24 + 2 ^ 19
/-- What a message that bounces with `code` leaves: the mailbox unregistered (17); for 23, the refusal of the port between worlds (14 R353),
or the buffer poisoned (13 R345). -/
def State.bounced (s : State) (m : Msg) (code : Nat) : State :=
  if code = 17 then s.mboxUnregister m.dest m.mbox
  else if code = 23 then
    (if m.spkg = s.pkgno && s.foreignDie (m.stile / 64) (m.dest / 64) then
      s.noteRefusal m.stile (mkOid (m.dest / 64) (m.dest % 64) 0) (cWORLD, 0)
    else if (s.tile m.dest).fenced then s
    else match s.mbHurt m.dest m.mbox with
    | some o => s.poisonObj o
    | none => s)
  else s
/-- A message's first packet reaches its mailbox (R260): a bounce, a refusal, or a reservation. -/
def State.reserveMsg (s : State) (m : Msg) : State :=
  match s.bounceCode m with
  | some code => (s.bounced m code).bounce m code
  | none =>
    let g := m.dest
    match s.mbox g m.mbox with
    | none => s
    | some (b, D) =>
      let head := s.mbGet g b 0 8
      match reserve head (s.mbGet g b 8 8) (s.mbGet g b 16 8) D m.size with
      | none => (s.mbPut g b 28 4 (s.mbGet g b 28 4 + 1)).updMsg m.id fun x => { x with st := .held s.cycle head }
      | some (h, r, v, pad, pos) =>
        let carved : Option (State × Nat) := if m.how = Deliver.copy then
            (s.mboxArena g m.mbox).bind fun a => s.carve a (s.entry m.cap.o) g
          else some (s, 0)
        match carved with
        | none => s.updMsg m.id fun x => { x with st := .held s.cycle head }
        | some (s, newO) =>
          let s := ((s.mbPut g b 0 8 h).mbPut g b 8 8 r).mbPut g b 16 8 v
          let rs := s.recs g m.mbox
          let rec_ : MRec := { id := m.id, pos := pos, size := m.size, complete := false, pri := m.pri, cap := m.cap }
          let s := match pad with
            | some p =>
              let z := D - p % D
              let padRec : MRec := { id := 0, pos := p, size := z, complete := true, released := true }
              ((s.mbPut g b (64 + p % D) 8 (padHead z)).mbPut g b (64 + p % D + 8) 8 0).putRecs g m.mbox (rs ++ [padRec, rec_])
            | none => s.putRecs g m.mbox (rs ++ [rec_])
          let len := (s.entry m.cap.o).len
          s.updMsg m.id fun x =>
            { x with st := .reserved pos, land := s.mboxLand g m.mbox, newO := newO, newG := (s.entry newO).gen,
                     todo := if m.how = Deliver.copy then List.range ((len + 255) / 256) else [] }

/-- MAILBOX_RESERVATION (R260). -/
def execMailboxReservation (id : Nat) (s : State) : Out :=
  match s.msgs.find? fun m => m.id == id with
  | some m =>
    if m.st = .sent && m.dest < 4096 && s.inOrder m then .next (s.reserveMsg m) else .fault .notDue
  | none => .fault .notDue
/-- A message that another package has held goes out again (R261). -/
def State.farAgain (s : State) (m : Msg) : State := State.msgLeave (s.updMsg m.id fun x => { x with st := .sent }) m
/-- Another package signals that the mailbox to which message `id` is held has advanced its head (R261). -/
def State.headMoved (s : State) (id : Nat) : Out :=
  match s.msgs.find? fun m => m.id == id with
  | some m => (match m.st with
    | .held _ _ => if m.far then .next (s.farAgain m) else .fault .notDue
    | _ => .fault .notDue)
  | none => .fault .notDue
/-- MAILBOX_RESERVATION_RETRY (R261): when head has advanced, otherwise every 4,096 cycles. -/
def execMailboxReservationRetry (id : Nat) (s : State) : Out :=
  match s.msgs.find? fun m => m.id == id with
  | some m =>
    (match m.st with
    | .held at_ head =>
      let now := match s.mbox m.dest m.mbox with
        | some (b, _) => s.mbGet m.dest b 0 8
        | none => head + 1
      if m.far then (if at_ + 4096 ≤ s.cycle then .next (s.farAgain m) else .fault .notDue)
      else if s.inOrder m && (now ≠ head || at_ + 4096 ≤ s.cycle) then .next (s.reserveMsg m) else .fault .notDue
    | _ => .fault .notDue)
  | none => .fault .notDue

/-! ### Delivery (R255, R262) -/

/-- A packet of a message counted at the landing word registered at the reservation. -/
def Msg.count (m : Msg) (n : Option Nat) (s : State) : State := s.landMaybe m.land n m.id

/-- A write of the message that live descriptor bytes or capability bytes refuse is a deferred CAP_RIGHTS of its sender (11 R285, 12 R328;
log 98). -/
def State.msgRefused (s : State) (m : Msg) : State := match s.cmds.find? fun c => c.id == m.id with
  | some c => s.lateFault c cCAP_RIGHTS (s.holdAt m.dest (3840 + m.mbox)).o
  | none => s
/-- Packet `p` of a reserved message (R262): 0 is the payload; for a rights-only owner delivery 1 is the change of the owner; for a
byte copy 1 + q is packet q. -/
def State.msgPacket (s : State) (m : Msg) (pos p : Nat) : Out :=
  let g := m.dest
  match s.mbox g m.mbox with
  | none => .fault .notDue
  | some (b, D) =>
    if p = 0 then
      if m.payDone then .fault .notDue
      else
        let a := flat (ownSp g) (b + 64 + pos % D + 16 + if m.cap = .null then 0 else 16)
        let s' := (s.engPut a m.pay).updMsg m.id fun x => { x with payDone := true }
        if s.noWrite a m.pay.length then .next ((m.count none s').msgRefused m) else .next (m.count (some m.pay.length) s')
    else if m.how = .owner then
      if m.ownDone || p ≠ 1 then .fault .notDue
      else
        let e := s.entry m.cap.o
        let s := s.updMsg m.id fun x => { x with ownDone := true }
        .next (if s.keyEnded e.keyid then m.count none s
          else m.count (some e.len) (s.updEntry m.cap.o fun e => { e with owner := g }))
    else if m.how = .copy && m.todo.contains (p - 1) then
      let q := p - 1
      let e := s.entry m.cap.o
      let n := min 256 (e.len - 256 * q)
      let gone := s.fencedAt m.newO || !(s.entry m.newO).valid || (s.entry m.newO).gen != m.newG || (s.entry m.newO).bad
      let bad := s.lost m.cap || s.badIn m.cap.o e (256 * q) n != 0
      let s := s.updMsg m.id fun x => { x with todo := x.todo.erase q }
      let s := if e.valid && e.gen == m.cap.g && s.badIn m.cap.o e (256 * q) n != 0 then s.poisonObj m.cap.o else s
      let ended := !gone && s.versionEnd m.newO (s.entry m.newO) (256 * q) n
      if gone then .next (m.count none s)
      else if bad || ended then .next (m.count none (s.poisonObj m.newO))
      else .next (m.count (some n) (s.writeObj m.newO (s.entry m.newO) (256 * q) (s.readObj m.cap.o e (256 * q) n)))
    else .fault .notDue

/-- LANDING_PACKET_COUNT (05 R129): packet p of copy or message `id` is written and counted. -/
def execLandingPacketCount (id p : Nat) (s : State) : Out :=
  match s.cmds.find? (fun c => c.id == id), s.msgs.find? (fun m => m.id == id) with
  | _, some m =>
    (match m.st with
    | .reserved pos => s.msgPacket m pos p
    | _ => .fault .notDue)
  | some c, none =>
    (match c.op with
    | .copy dst src land todo got acked => if c.went then s.copyCount c dst src land todo got acked p else .fault .notDue
    | _ => .fault .notDue)
  | none, none => .fault .notDue

/-- BYTE_COPY_COMPLETE (R255 step 3): the old object is freed, and the message carries the new one. -/
def execByteCopyComplete (id : Nat) (s : State) : Out :=
  match s.msgs.find? fun m => m.id == id with
  | some m =>
    (match m.st with
    | .reserved _ =>
      if m.how ≠ .copy || !m.todo.isEmpty || m.copyDone then .fault .notDue
      else
        let e := s.entry m.newO
        let c := Cap.mk' m.newG m.cap.rights.toNat m.newO e.len 0
        let s := if (s.entry m.cap.o).gen = m.cap.g then s.freeObj m.cap.o else s
        let s := s.updMsg id fun x => { x with cap := c, copyDone := true }
        .next (s.putRecs m.dest m.mbox ((s.recs m.dest m.mbox).map fun r => if r.id = id then { r with cap := c } else r))
    | _ => .fault .notDue)
  | none => .fault .notDue

/-- Slots of tile `g` whose mbmask holds mailbox `mb` get tip.mb (13 R342). -/
def State.mbInterrupt (s : State) (g mb : Nat) : State :=
  s.forSlots g (fun _ t => if t.occ ≠ .empty && tbit t.tie.toNat (16 + mb) then t.setTip 2 else t) 16
/-- vis advances over complete records; what becomes visible raises the interrupt and is taken by waiting strands (R262, R267). The
port of a stopped tile holds the advance (16 R390). -/
def State.visAdvance (s : State) (g mb : Nat) : State :=
  match s.mbox g mb with
  | none => s
  | some (b, _) =>
    match s.mbHurt g mb with
    | some o => s.poisonObj o
    | none =>
    let v := s.mbGet g b 16 8
    let v' := visAfter v (s.recs g mb)
    if v' = v then s
    else
      let new := ((s.recs g mb).filter fun r => r.id != 0 && decide (v ≤ r.pos) && decide (r.pos < v')).length
      let s := (s.mbPut g b 16 8 v').mbFree g mb
      let s := if 0 < new then (s.count g 10 new).mbInterrupt g mb else s
      s.mbServe g mb (sget [] (s.tile g).mbWaits mb)

/-- MESSAGE_COMPLETE (R262): the capability slot and header are written, and vis advances. A message whose record was dropped with its
mailbox's registration leaves no capability: it is discarded (R257; log 82). -/
def execMessageComplete (id : Nat) (s : State) : Out :=
  match s.msgs.find? fun m => m.id == id with
  | some m =>
    (match m.st, s.mbox m.dest m.mbox with
    | .reserved pos, some (b, D) =>
      if !m.payDone || (m.how = .owner && !m.ownDone) || (m.how = .copy && !m.copyDone) || s.countHeld id then .fault .notDue
      else
        let g := m.dest
        let a := flat (ownSp g) (b + 64 + pos % D)
        let s := if s.noWrite a (if m.cap = .null then 16 else 32) then s.msgRefused m else s
        let noSlot := m.cap = .null || s.noWrite (a + 16) 16
        let known := (s.recs g m.mbox).any fun r => r.id == id
        let s := if m.cap = .null then s else if !known then s.discardCap g m.cap
          else if s.noWrite (a + 16) 16 then s else s.capSlot g b D pos (some m.cap)
        let s := (s.mbPut g b (64 + pos % D) 8 m.head0).mbPut g b (64 + pos % D + 8) 8 m.head1
        let s := s.putRecs g m.mbox ((s.recs g m.mbox).map fun r => if r.id = id then
          { r with complete := true, slot := if noSlot then 0 else flat (ownSp g) (b + 64 + pos % D + 16) } else r)
        let s := { s with msgs := s.msgs.filter fun x => x.id != id }
        let s := s.updCmd id fun c => { c with fin := true }
        .next (if (s.tile g).tstop then s.holdOp g (.vis m.mbox id) else s.visAdvance g m.mbox)
    | _, _ => .fault .notDue)
  | none => .fault .notDue

end Sys2Proof.Machine
end

