-- ==== Sys2Proof/Machine/Ring.lean ====
section
/-! DEFINITION. Rings (10 R270 to R274) and churn (R275 to R278). -/
namespace Sys2Proof.Machine

/-! ### Ring headers -/

/-- A ring header (R270) and the flat address of the ring. -/
structure Ring where
  a : Nat
  lslot : Nat
  ncons : Nat
  chain : Nat
  n : Nat
  pseq : Nat
  deriving DecidableEq, Repr

/-- The flat address of a ring capability's base. -/
def State.ringAddr (s : State) (c : Cap) : Nat := flat (oidSp c.o) ((s.entry c.o).base + c.b)
/-- The header at a ring capability's base; none when it is invalid. -/
def State.ring (s : State) (c : Cap) : Option Ring :=
  let a := s.ringAddr c
  let f (o n : Nat) : Nat := mnat s.mem (a + o) n
  if f 0 1 < 5 || 15 < f 0 1 || f 1 1 = 0 || 8 < f 1 1 || f 2 1 % 2 = 1 || f 3 1 ≠ 0 || f 4 4 = 0 || f 14 2 ≠ 0
    || c.l < 64 + f 4 4 * 2 ^ f 0 1 then none
  else some ⟨a, f 0 1, f 1 1, f 2 1, f 4 4, f 8 6⟩
/-- Cursor i. -/
def State.cursor (s : State) (r : Ring) (i : Nat) : Nat := mnat s.mem (r.a + 16 + 6 * i) 6
/-- Flat address of the slot of sequence number `q`. -/
def Ring.slotAt (r : Ring) (q : Nat) : Nat := r.a + 64 + q % r.n * 2 ^ r.lslot
/-- Sequence numbers run modulo 2^48; the signed distance from `b` to `a`. -/
def seqDiff (a b : Nat) : Int := signed 48 (a + (2 ^ 48 - b % 2 ^ 48))
/-- Sequence number `q` may be written: every cursor in use has passed q − n (R272). -/
def State.pushRoom (s : State) (r : Ring) (q : Nat) : Bool :=
  (List.range r.ncons).all fun i => decide (seqDiff q (s.cursor r i) < r.n)
/-- The slot at cursor i is there to be popped (R273). -/
def State.popReady (s : State) (r : Ring) (i : Nat) : Bool :=
  let q := s.cursor r i
  mnat s.mem (r.slotAt q) 6 == q && (!tbit r.chain i || decide (0 < seqDiff (s.cursor r (i - 1)) q))
/-- Data and header of a slot written: the data first (R272). -/
def State.slotWrite (s : State) (r : Ring) (q : Nat) (data : List Byte) : State :=
  State.settle { s with mem := mwrite (mwrite s.mem (r.slotAt q + 8) data) (r.slotAt q) (toBytes 6 q ++ toBytes 2 data.length)
                        badw := s.badw.filter fun p => !(decide (r.slotAt q ≤ p.1 * 8) && decide (p.1 * 8 + 8 ≤ r.slotAt q + 8 + data.length)) }
/-- A doubleword of the header written. -/
def State.ringPut (s : State) (r : Ring) (o n v : Nat) : State :=
  State.settle { s with mem := mwrite s.mem (r.a + o) (toBytes n v) }

/-- A word with the poison syndrome among the first `n` bytes of the slot of `q` (13 R345). -/
def State.slotBad (s : State) (c : Cap) (r : Ring) (q n : Nat) : Nat :=
  s.badIn c.o (s.entry c.o) (c.b + 64 + q % r.n * 2 ^ r.lslot) n
/-- The first `n` bytes of the slot of `q` cannot be written: they hold live descriptor bytes, or capabilities (11 R285, 12 R328). -/
def State.slotRefused (s : State) (c : Cap) (r : Ring) (q n : Nat) : Bool :=
  (s.refusedWrite c.o (s.entry c.o) (c.b + 64 + q % r.n * 2 ^ r.lslot) n).isSome

/-- The capability is suitable as a ring (R271): ENGINE 20 where it is not. -/
def ringChk (n : Nat) (need : List Nat) (c : Cap) : Chk Unit := do
  capUse c n need
  if oidPort c.o < 68 && c.b % 64 = 0 then pure () else Except.error (cENGINE, 20)

/-- Checks of the port and of the header, and of cursor i where one is named (R270, R273). -/
def State.ringAtPort (s : State) (c : Cap) (g : Nat) (lkey : Word) (write : Bool) (i : Nat) : Except (Nat × Nat) Ring :=
  match s.check18 c g lkey write with
  | some f => .error f
  | none =>
    if s.badIn c.o (s.entry c.o) c.b 64 ≠ 0 then
      .error (if s.badIn c.o (s.entry c.o) c.b 64 = 2 then cINTEGRITY else cCAP_POISON, c.o)
    else match s.ring c with
    | none => .error (cENGINE, 19)
    | some r => if i < r.ncons then .ok r else .error (cENGINE, 19)

/-- What a refusal at the ring's port leaves: a header with the poison syndrome poisons the object. -/
def State.ringRefused (s : State) (g : Nat) (c : Cap) (f : Nat × Nat) : State :=
  let s := s.noteRefusal g c.o f
  if (f.1 = cCAP_POISON || f.1 = cINTEGRITY) && s.badIn c.o (s.entry c.o) c.b 64 ≠ 0 then s.poisonObj c.o else s

/-! ### Pops (R273) -/

/-- The pop of window `w` of strand `k` performed on a slot that is ready: the bytes of the slot go to the destination. A destination that
is not resident parks it, without a bound from then on (05 R133, 12 R321); the L1 is discarded when its window closes. -/
def State.popNow (s : State) (k : Nat) (w : Option Nat) (lkey : Word) (c : Cap) (r : Ring) (dst : Cap) (i : Nat) : State × WinSt :=
  if dst = .null then (s, .done { acquire := true })
  else
    let q := s.cursor r i
    let len := bits (mnat s.mem (r.slotAt q) 8) 48 15
    let bad := s.slotBad c r q (min (8 + len) (2 ^ r.lslot))
    if bad ≠ 0 then (s.poisonObj c.o, .fail (if bad = 2 then cINTEGRITY else cCAP_POISON) c.o)
    else
    let bs := (mbytes s.mem (r.slotAt q) (min (8 + len) (2 ^ r.lslot))).take dst.l
    let x := s.memReq k dst lkey (.store [(dst.b, bs)]) w
    match x.2 with
    | .done _ => (x.1, .done { acquire := true })
    | .wait (.resident ..) => (match w with
      | some w => (x.1.updWin k w fun y => { y with lim := none }, x.2)
      | none => x)
    | _ => x

/-- The parked pops of a ring that are ready are performed. -/
def State.popServe (s : State) (a : Nat) : List (Nat × Nat × Cap × Cap × Nat × Word) → State
  | [] => s
  | (k, w, c, dst, i, lkey) :: rest =>
    if s.ringAddr c ≠ a || !s.sameObj c then s.popServe a rest
    else match s.ring c with
    | some r =>
      if s.popReady r i then
        let x := s.popNow k (some w) lkey c r dst i
        (x.1.endWin k w x.2).popServe a rest
      else s.popServe a rest
    | none => s.popServe a rest
/-- Parked pops of the package: strand, window, capabilities, cursor and lkey. -/
def State.parkedPops (s : State) : List (Nat × Nat × Cap × Cap × Nat × Word) :=
  s.slots.flatMap fun p => p.2.wins.filterMap fun w => match w.st with
    | .wait (.pop c dst i lkey) => some (p.1, w.id, c, dst, i, lkey)
    | _ => none

/-! ### Pushes (R272) -/

/-- The push with command `c` and sequence number `q` written, its window done; a slot that cannot be written fails it. -/
def State.pushNow (s : State) (c : Cmd) (ring : Cap) (r : Ring) (d q : Nat) (data : List Byte) : State :=
  if s.slotRefused ring r q (8 + data.length) then
    (s.updCmd c.id fun x => { x with fin := true }).endWin c.key c.win (.fail cCAP_RIGHTS ring.o)
  else (((s.slotWrite r q data).updCmd c.id fun x => { x with fin := true }).endWin c.key c.win (.done { xs := [(d, BitVec.ofNat 64 q)] }))
/-- A loader's chunk on the ring at `a` waits with a sequence number below `q` (R272, R277). -/
def State.loaderBefore (s : State) (a q : Nat) : Bool := s.subs.any fun p => match p.2 with
  | some u => s.ringAddr u.ring == a && u.resv.any fun x => decide (seqDiff x.1 q < 0)
  | none => false
/-- A push on the ring at `a` waits with a sequence number below `q`. -/
def State.pushBefore (s : State) (a q : Nat) : Bool := s.cmds.any fun c => match c.op with
  | .push ring _ _ _ _ (some x) => !c.fin && s.ringAddr ring == a && decide (seqDiff x q < 0)
  | _ => false
/-- Parked pushes of a ring in the order of their reservations, those of loaders among them. -/
def State.pushServe (s : State) (a : Nat) : Nat → State
  | 0 => s
  | fuel + 1 =>
    let ps := s.cmds.filterMap fun c => match c.op with
      | .push ring _ d _ data (some q) => if !c.fin && s.sameObj ring && s.ringAddr ring = a then some (c, ring, d, data, q) else none
      | _ => none
    let first := ps.foldl (fun (m : Option (Cmd × Cap × Nat × List Byte × Nat)) x => match m with
      | none => some x
      | some y => if seqDiff x.2.2.2.2 y.2.2.2.2 < 0 then some x else some y) none
    match first with
    | some (c, ring, d, data, q) =>
      (match s.ring ring with
      | some r => if s.pushRoom r q && !s.loaderBefore a q then (s.pushNow c ring r d q data).pushServe a fuel else s
      | none => s)
    | none => s
/-- What waits at a ring is served after a change of its header or slots. -/
def State.ringServe (s : State) (a : Nat) : State :=
  let s := s.pushServe a (s.cmds.length + 1)
  s.popServe a s.parkedPops

/-! ### The instructions -/

/-- RG_PUSH. -/
def execRgPush (la a b d : Nat) (s : State) : Out :=
  if s.me.occ = .codelet then s.illegal (.rgPush la a b d)
  else mxInstr s fun s =>
    let ca := s.c a
    let cb := s.c b
    checked (do
      ringChk a [rW, rL] ca
      capUse cb b [rR]) s fun _ =>
        accept (.rgPush la a b d) la false [rng cb cb.l] [rng ca ca.l] (.push ca cb d s.me.wlim [] none) s id
          (fun id => .wait (.cmd id)) (limit s.me.wlim)

/-- RING_SLOT_WRITE: the data of push `id` arrives at the ring's port; the push is written, parks, or fails. -/
def execRingSlotWrite (id : Nat) (s : State) : Out :=
  match s.cmds.find? fun c => c.id == id with
  | none => .fault .notDue
  | some c =>
    match c.op with
    | .push ring src d wl data none =>
      if !c.went || c.fin then .fault .notDue
      else
        (match s.ringAtPort ring c.g c.lkey true 0 with
        | .error f => .next (((s.ringRefused c.g ring f).endWin c.key c.win (.fail f.1 f.2)).cmdGone c)
        | .ok r =>
          if s.noWrite (r.a + 8) 6 then .next ((s.endWin c.key c.win (.fail cCAP_RIGHTS ring.o)).cmdGone c)
          else if 2 ^ r.lslot - 8 < data.length then .next ((s.endWin c.key c.win (.fail cENGINE 20)).cmdGone c)
          else
            let q := r.pseq
            let s := s.ringPut r 8 6 ((q + 1) % 2 ^ 48)
            let s := s.updCmd id fun x => { x with op := .push ring src d wl data (some q) }
            let s := s.endWin c.key c.win (.wait (.push ring src d))
            .next (s.ringServe r.a))
    | _ => .fault .notDue

/-- A parked push whose wait is withdrawn gives back its sequence number, and those reserved after it move down (R61). A header that live
descriptor bytes or capabilities cover keeps it, and the strand takes a deferred CAP_RIGHTS (11 R285). -/
def State.pushWithdraw (s : State) (k w : Nat) : State :=
  match s.cmds.find? fun c => c.key == k && c.win == w with
  | some c => (match c.op with
    | .push ring _ _ _ _ (some q) =>
      let a := s.ringAddr ring
      if s.noWrite (a + 8) 6 then ((s.lateFault c cCAP_RIGHTS ring.o).cmdGone c).ringServe a
      else
      let s := State.settle { s with mem := mwrite s.mem (a + 8) (toBytes 6 ((mnat s.mem (a + 8) 6 + (2 ^ 48 - 1)) % 2 ^ 48)) }
      let s := { s with cmds := s.cmds.map fun (x : Cmd) => match x.op with
        | .push ring' src d wl data (some q') =>
          if !x.fin && s.ringAddr ring' = a && 0 < seqDiff q' q then
            { x with op := .push ring' src d wl data (some ((q' + (2 ^ 48 - 1)) % 2 ^ 48)) } else x
        | _ => x }
      let s := { s with subs := s.subs.map fun (p : Nat × Option Sub) => (p.1, p.2.map fun (u : Sub) =>
        { u with resv := u.resv.map fun (x : Nat × List Byte) =>
          if s.ringAddr u.ring = a && 0 < seqDiff x.1 q then ((x.1 + (2 ^ 48 - 1)) % 2 ^ 48, x.2) else x }) }
      (s.cmdGone c).ringServe a
    | _ => s)
  | none => s

/-- A pop from the ring object is held behind earlier operations of strand `k` (05 R128, R252). -/
def State.ringHeld (s : State) (k o : Nat) : Bool :=
  (s.slot k).wins.any (fun w => w.feOn o || w.heldOn o) || s.cmds.any fun c => c.holds k o false && !c.op.isPush
/-- Stores of strand `k` to the ring object have not been applied (R274); they may lie in its commit buffer. -/
def State.ringStores (s : State) (k o : Nat) : Bool :=
  s.storesOn k o || (s.slot k).buffers o || s.cmds.any fun c => c.key == k && c.writes.contains o && !c.op.isPush

/-- RG_POP. -/
def execRgPop (la a imm d : Nat) (s : State) : Out :=
  if s.me.occ = .codelet || 8 ≤ imm then s.illegal (.rgPop la a imm d)
  else mxInstr s fun s =>
    let c := s.c a
    let dst := s.c d
    checked (do
      ringChk a [rR, rL] c
      if dst = .null then pure () else rights (dst.has rW) dst d) s fun _ =>
        if s.ringHeld s.cur c.o then .next (s.holdOn (.ring c.o))
        else if s.heldBy dst true then .next (s.holdOn (.object dst.o true))
        else
          let i : Instr := .rgPop la a imm d
          match s.ringAtPort c s.gta s.me.lkey false imm with
          | .error f => .next ((s.ringRefused s.gta c f).openW la i (.fail f.1 f.2))
          | .ok r =>
            if s.popReady r imm then
              let x := s.popNow s.cur none s.me.lkey c r dst imm
              .next (x.1.openW la i x.2)
            else .next (s.openW la i (.wait (.pop c dst imm s.me.lkey)) (limit s.me.wlim))

/-- RG_DONE. -/
def execRgDone (a imm : Nat) (s : State) : Out :=
  if 16 ≤ imm then s.illegal (.rgDone a imm)
  else
    let c := s.c a
    let i := imm % 8
    let wb := tbit imm 3
    checked (ringChk a (if wb then [rW, rL] else [rR, rL]) c) s fun _ =>
      if s.ringStores s.cur c.o then .next ((s.cbufDrain s.cur c.o).holdOn (.ringDone c.o))
      else match s.ringAtPort c s.gta s.me.lkey wb i with
      | .error f => (s.ringRefused s.gta c f).trap (preciseFault c a f).1 (preciseFault c a f).2
      | .ok r =>
        let q := s.cursor r i
        if mnat s.mem (r.slotAt q) 6 ≠ q then s.engine 19
        else if s.noWrite (r.a + 16 + 6 * i) 6 || (wb && s.noWrite (r.slotAt q + 6) 2) then s.trap cCAP_RIGHTS (rightsVal c a)
        else
          let top := mnat s.mem (r.slotAt q + 6) 2
          let s := if wb then State.settle { s with mem := mwrite s.mem (r.slotAt q + 6) (toBytes 2 (top % 2 ^ 15 + 2 ^ 15)) } else s
          ((s.ringPut r (16 + 6 * i) 6 ((q + 1) % 2 ^ 48)).ringServe r.a).finish id

/-! ### Churn (R275 to R278) -/

/-- The stack that holds the first granule of an object of a die's HBM (01 R17). -/
def stackOf (o : Nat) : Nat := oidDie o / 8 * 4 + oidDie o % 8 / 2
/-- Subscription `id`. -/
def State.sub (s : State) (id : Nat) : Option Sub := sget none s.subs id
/-- The subscription replaced. -/
def State.putSub (s : State) (id : Nat) (u : Option Sub) : State := { s with subs := sput none s.subs id u }
/-- The lowest free subscription of a stack. -/
def State.freeSub (s : State) (st : Nat) : Option Nat :=
  ((List.range 256).find? fun i => (s.sub (st * 256 + i)).isNone).map fun i => st * 256 + i

/-- A parameter word is invalid (R275), or its holding index odd (R276). -/
def badSubParam (p : Nat) : Bool :=
  let role := bits p 62 2
  role == 0 || role == 3 || (role == 1 && bits p 59 3 != 0) || bits p 48 11 != 0 || bits p 32 16 == 0 || 4095 < bits p 32 16
    || bits p 20 12 % 2 == 1

/-- The capabilities of a subscription returned to its holding entries, whose claim is released (R278). -/
def State.subReturn (s : State) (g h : Nat) (ring obj : Cap) : State :=
  ((((s.setHold g h ring).setClaim g h 0).setHold g (h + 1) obj).setClaim g (h + 1) 0)

/-- CH_SUB. -/
def execChSub (la a b d : Nat) (s : State) : Out :=
  mxInstr s fun s =>
    let p := s.xn d
    let h := bits p 20 12
    let ca := s.c a
    let cb := s.c b
    let loader := bits p 62 2 == 1
    if badSubParam p then s.engine 21
    else if 3840 ≤ h && s.me.mode == .u then s.modeFault (.chSub la a b d)
    else holdIndex (.chSub la a b d) h s (holdIndex (.chSub la a b d) (h + 1) s (
      if s.holdAt s.gta h ≠ .null || s.holdAt s.gta (h + 1) ≠ .null || s.claimed s.gta h || s.claimed s.gta (h + 1) then
        s.trap cHOLD_INDEX h
      else checked (do
        notNull ca a
        rights (ca.has rL) ca a
        if oidPort ca.o < 68 && ca.b % 64 = 0 then pure () else Except.error (cENGINE, 20)
        notNull cb b
        rights (oidPort cb.o == 68 && (if loader then cb.has rR && cb.has rQ else cb.isOwner && cb.has rW)) cb b) s fun _ =>
          let g := s.gta
          let i : Instr := .chSub la a b d
          let gone (s : State) : State := s.upd fun t => (t.setC a .null).setC b .null
          let back (s : State) : State := s.subReturn g h ca cb
          match (s.check18 ca g s.me.lkey loader).or (s.check18 cb g s.me.lkey (!loader)) with
          | some f => .next (back (gone ((s.noteRefusal g f.2 f).openW la i (.fail f.1 f.2))))
          | none =>
            match s.freeSub (stackOf cb.o) with
            | none => .next (back (gone (s.openW la i (.done { xs := [(d, BitVec.allOnes 64)] }))))
            | some id =>
              let u : Sub := { tile := g, lkey := s.me.lkey, loader := loader, ring := ca, obj := cb, cur := bits p 59 3,
                               chunk := 8 * bits p 32 16, h := h, count := bits p 0 20,
                               s0 := mnat s.mem (s.ringAddr ca + 16 + 6 * bits p 59 3) 6 }
              .next (((gone (s.openW la i (.done { xs := [(d, BitVec.ofNat 64 id)] }))).putSub id (some u)).setClaim g h 3
                |>.setClaim g (h + 1) 3)))

/-- x[d] of a ch.unsub (R278). -/
def Sub.status (u : Sub) : Word := BitVec.ofNat 64 (match u.err with
  | some e => 2 ^ 63 + e % 128 * 2 ^ 56 + u.moved % 2 ^ 32
  | none => u.moved % 2 ^ 32)

/-- CH_UNSUB. -/
def execChUnsub (la a d : Nat) (s : State) : Out :=
  mxInstr s fun s =>
    let id := s.xn a
    let i : Instr := .chUnsub la a d
    match s.sub id with
    | none => .next (s.openW la i (.done { xs := [(d, BitVec.allOnes 64)] }))
    | some u =>
      if u.tile ≠ s.gta then .next (s.openW la i (.done { xs := [(d, BitVec.allOnes 64)] }))
      else if u.returned then .next ((s.openW la i (.done { xs := [(d, u.status)] })).putSub id none)
      else .next ((s.openW la i (.wait (.cmd 0))).putSub id (some { u with stopReq := u.stopReq ++ [(s.cur, s.me.nextWid, d)] }))

/-- The subscription ends with an error: its code minus 16. -/
def State.subErr (s : State) (id : Nat) (u : Sub) (code : Nat) : State := s.putSub id (some { u with resv := none, ended := true, err := some code })
/-- The ring or the object is refused at its port: the ENGINE code when it has one, otherwise a free value (log 27). -/
def State.subFault (s : State) (id : Nat) (u : Sub) (f : Nat × Nat) : State :=
  if f.1 = cENGINE then s.subErr id u (f.2 - 16)
  else State.subErr { s with free := s.free + 1 } id u (Config.churnError s.free).toNat

/-- Chunks that a loader pushes before its end mark: `count`, or the whole range; never more than the range has (log 44). -/
def Sub.total (u : Sub) : Nat :=
  let all := (u.obj.l + u.chunk - 1) / u.chunk
  if u.count = 0 then all else min u.count all

/-- Chunk `data` of a loader, which has the sequence number `q`, is written when its slot is free and nothing waits before it; until then
it waits (R272). -/
def State.loaderWrite (s : State) (sub : Nat) (u : Sub) (r : Ring) (q : Nat) (data : List Byte) : State :=
  if !s.pushRoom r q || s.pushBefore r.a q || s.loaderBefore r.a q then s.putSub sub (some { u with resv := some (q, data) })
  else if s.slotRefused u.ring r q (8 + data.length) then s.subFault sub u (cCAP_RIGHTS, u.ring.o)
  else
    let s := s.slotWrite r q data
    (s.putSub sub (some (if data.isEmpty then { u with resv := none, ended := true } else { u with resv := none, moved := u.moved + 1 })))
      |>.ringServe r.a
/-- CHURN_LOADER_PUSH (R277): the next chunk, or the end mark, is read and gets its sequence number; it is written at once or when its
slot is free. -/
def execChurnLoaderPush (sub : Nat) (s : State) : Out :=
  match s.sub sub with
  | none => .fault .notDue
  | some u =>
    if !u.loader || u.ended || (u.resv.isNone && !u.stopReq.isEmpty) then .fault .notDue
    else match s.ringAtPort u.ring u.tile u.lkey true 0 with
    | .error f => .next ((s.ringRefused u.tile u.ring f).subFault sub u f)
    | .ok r => match u.resv with
      | some (q, data) =>
        if !s.pushRoom r q || s.pushBefore r.a q || s.loaderBefore r.a q then .fault .notDue else .next (s.loaderWrite sub u r q data)
      | none =>
        let off := u.obj.b + u.moved * u.chunk
        let n := if u.total ≤ u.moved then 0 else min u.chunk (u.obj.l - u.moved * u.chunk)
        let e := s.entry u.obj.o
        match s.check18 u.obj u.tile u.lkey false with
        | some f => .next ((s.noteRefusal u.tile u.obj.o f).subFault sub u f)
        | none =>
          if s.noWrite (r.a + 8) 6 then .next (s.subFault sub u (cCAP_RIGHTS, u.ring.o))
          else if 2 ^ r.lslot - 8 < n then .next (s.subErr sub u 4)
          else if !s.rangeHere u.obj.o e off n then .fault .notDue
          else if s.badIn u.obj.o e off n ≠ 0 then .next ((s.poisonObj u.obj.o).subFault sub u (cCAP_POISON, u.obj.o))
          else .next ((s.ringPut r 8 6 ((r.pseq + 1) % 2 ^ 48)).loaderWrite sub u r r.pseq (s.readObj u.obj.o e off n))

/-- CHURN_STORER_WRITE (R277): the slot at the storer's cursor, once it is there. Only a slot that is written counts as a chunk moved
(log 102). -/
def execChurnStorerWrite (sub : Nat) (s : State) : Out :=
  match s.sub sub with
  | none => .fault .notDue
  | some u =>
    if u.loader || u.ended || !u.stopReq.isEmpty then .fault .notDue
    else match s.ringAtPort u.ring u.tile u.lkey false u.cur, s.check18 u.obj u.tile u.lkey true with
    | .error f, _ => .next ((s.ringRefused u.tile u.ring f).subFault sub u f)
    | _, some f => .next ((s.noteRefusal u.tile u.obj.o f).subFault sub u f)
    | .ok r, none =>
      if !s.popReady r u.cur then .fault .notDue
      else if s.noWrite (r.a + 16 + 6 * u.cur) 6 then .next (s.subFault sub u (cCAP_RIGHTS, u.ring.o))
      else
        let q := s.cursor r u.cur
        let h := mnat s.mem (r.slotAt q) 8
        let len := min (bits h 48 15) (2 ^ r.lslot - 8)
        let e := s.entry u.obj.o
        let off := (seqDiff q u.s0).toNat * u.chunk
        let write := tbit h 63 && len ≠ 0
        if write && s.slotBad u.ring r q (8 + len) ≠ 0 then .next ((s.poisonObj u.ring.o).subFault sub u (cCAP_POISON, u.ring.o))
        else if write && u.obj.l < off + len then .next (s.subErr sub u 9)
        else if write && !s.rangeHere u.obj.o e (u.obj.b + off) len then .fault .notDue
        else if write && s.versionEnd u.obj.o e (u.obj.b + off) len then .next ((s.poisonObj u.obj.o).subFault sub u (cINTEGRITY, u.obj.o))
        else
          let s := if write then s.writeObj u.obj.o e (u.obj.b + off) (mbytes s.mem (r.slotAt q + 8) len) else s
          let u := { u with moved := u.moved + b2n write, done := u.done + 1 }
          let u := { u with ended := len = 0 || (u.count ≠ 0 && u.count ≤ u.done) }
          .next (((s.ringPut r (16 + 6 * u.cur) 6 ((q + 1) % 2 ^ 48)).putSub sub (some u)).ringServe r.a)

/-- SUBSCRIPTION_END (R278): the chunk in progress is done, the capabilities are returned; a waiting ch.unsub is answered and frees the
entry. When several wait, the first gets the status and the others all ones (log 102). -/
def execSubscriptionEnd (sub : Nat) (s : State) : Out :=
  match s.sub sub with
  | none => .fault .notDue
  | some u =>
    if u.returned || u.resv.isSome || (!u.ended && u.stopReq.isEmpty) then .fault .notDue
    else
      let s := s.subReturn u.tile u.h u.ring u.obj
      match u.stopReq with
      | [] => .next (s.putSub sub (some { u with ended := true, returned := true }))
      | (k, w, d) :: rest =>
        let s : State := rest.foldl (fun s p => s.endWin p.1 p.2.1 (.done { xs := [(p.2.2, BitVec.allOnes 64)] })) s
        .next ((s.endWin k w (.done { xs := [(d, u.status)] })).putSub sub none)

end Sys2Proof.Machine
end

