-- ==== Sys2Proof/Machine/System.lean ====
section
/-! DEFINITION. The system instructions (03 R74, R75), rpt (R76 to R78) and jseg (R79). -/
namespace Sys2Proof.Machine

/-- ECALL: trap with cause ECALL at the instruction itself (R74); legal in U and S. -/
def execEcall (s : State) : Out :=
  match s.me.mode with
  | .u => s.trap cECALL 0
  | .s => s.trap cECALL 0
  | .m => s.modeFault .ecall
  | .d => s.modeFault .ecall

/-- EBREAK enters D in this mode (16 R391: ebreaku, ebreaks). -/
def ebreakHalts (t : Slot) : Bool :=
  match t.mode with
  | .u => tbit t.dcsr.toNat 13
  | .s => tbit t.dcsr.toNat 15
  | .m => false
  | .d => false

/-- EBREAK: trap with cause BREAK, or a debug halt with cause 1 at the instruction (R74, 16 R391); legal in U and S. -/
def execEbreak (s : State) : Out :=
  match s.me.mode with
  | .m => s.modeFault .ebreak
  | .d => s.modeFault .ebreak
  | _ =>
    if ebreakHalts s.me then .next (s.upd fun t => { t.endCounting with haltReq := 1, hold := none })
    else s.trap cBREAK s.me.pc.toNat

/-- WFI's condition: an interrupt enabled in tie is pending in tip, or WATCHDOG is due (R74, 12 R332). -/
def wfiOver (t : Slot) : Bool := (t.tie &&& t.tip &&& 0x1E) != 0 || (t.wdDue && !t.held)

/-- WFI: parks until its condition holds (R74); legal in U and S of a persistent strand. -/
def execWfi (s : State) : Out :=
  if s.me.occ = .codelet then s.illegal .wfi
  else match s.me.mode with
    | .m => s.modeFault .wfi
    | .d => s.modeFault .wfi
    | _ => if wfiOver s.me then s.finish id else .next (s.parkOn .wfi)

/-- Instructions that wait for every window of the strand (R55): the counting of each ends. -/
def State.drainWindows (s : State) (k : State → Out) : Out :=
  if s.me.wins.isEmpty then k s else .next ((s.upd (·.endCounting)).holdOn .windows)

/-- TRET: return from a trap (R75); legal in S. -/
def execTret (s : State) : Out :=
  match s.me.mode with
  | .s => s.drainWindows fun s => .next (s.upd fun t =>
      let t := if t.rptLive then { t with rptc := 0, rptLive := false } else t
      { ({ t with instret := t.instret + 1 }.issued 8 s.cycle).trapReturn with noTrig := true })
  | .u => s.modeFault .tret
  | .m => s.modeFault .tret
  | .d => s.modeFault .tret

/-- Entering D (R62, 16 R389, R391): dpc receives the pc, dcsr the iterations left, the cause (`why` modulo 8; the trigger in
`why` ÷ 8), the tile bit and the mode. A repeat or skip that drives the pc goes on after the resume. -/
def Slot.enterD (t : Slot) (why : Nat) (tile : Bool) : Slot :=
  let d := t.dcsr.toNat
  { t with mode := .d, halted := true, haltReq := 0, stepping := false, dFromS := t.mode == .s, hold := none,
           dHold := if t.parkedAt then t.hold.map fun h => (h, BitVec.ofNat 64 (t.pc.toNat % 2 ^ 16)) else none,
           dRpt := t.rptLive, dSkip := t.skip, rptLive := false, skip := 0, pbPos := none, dErr := none,
           dpc := BitVec.ofNat 64 (t.pc.toNat % 2 ^ 16),
           dcsr := BitVec.ofNat 64 (t.rptc.toNat % 2 ^ 32 * 2 ^ 32 + bits d 28 4 * 2 ^ 28 + bits d 13 3 * 2 ^ 13 + b2n tile * 2 ^ 12
             + why % 8 * 2 ^ 6 + why / 8 % 8 * 2 ^ 3 + bits d 2 1 * 2 ^ 2 + b2n (t.mode == .s)) }
/-- Leaving D mode (R74, 16 R392): pc := dpc, mode := prv; a single step may follow. A repeat goes on from the values in rptc, and the
park of the instruction at dpc, when the debugger has not moved it. -/
def Slot.leaveD (t : Slot) : Slot :=
  { t with pc := t.dpc, hold := (t.dHold.filter fun h => h.2 == t.dpc).map (·.1), dHold := none,
           mode := if t.dcsr.toNat % 4 = 1 then .s else .u, halted := false, noTrig := true, pbPos := none,
           rptLive := t.dRpt && tbit t.rptc.toNat 47, skip := t.dSkip, dRpt := false, dSkip := 0,
           stepping := tbit t.dcsr.toNat 2 }

/-- rptc of a repeat that starts (R77): body from `start`, `n` instructions, `count` iterations. -/
def rptStart (start n count : Nat) : Word :=
  BitVec.ofNat 64 (start % 2 ^ 16 * 2 ^ 48 + 2 ^ 47 + (n - 1) * 2 ^ 40 + (count - 1))

/-- rpt n, xb: repeats or skips the next n instructions (R76); ILLEGAL inside a body (R78). A count of 0 overwrites the rptc of a
suspended repeat with 0, as an ended repeat leaves it (log 91). -/
def execRpt (n b : Nat) (s : State) : Out :=
  if s.me.rptLive then s.illegal (.rpt n b)
  else
    let count := min (s.xn b) 0xFFFFFFFF
    if count = 0 then s.finish fun t => { t with skip := n, rptc := if tbit t.rptc.toNat 47 then 0 else t.rptc }
    else .next (s.upd fun t =>
      let t' := t.retire 4 8 s.cycle
      { t' with rptc := rptStart t'.pc.toNat n count, rptLive := true })

/-- The link of jseg: segment of the slot that holds the pc, and the offset of the next instruction in it (R79). -/
def segLink (t : Tile) (pc : Nat) : Nat := (sget {} t.ov (pc / 0x2000)).seg * 0x2000 + (pc + 4 - pc / 0x2000 * 0x2000)

/-- jseg xd, xa: the checked transfer between segments (R79). -/
def execJseg (a d : Nat) (s : State) : Out :=
  let t := s.xn a
  if 2 ^ 21 ≤ t then s.trap cPC_RANGE t
  else match (s.tile s.gta).resolve t with
    | none => s.trap cSEG_ABSENT t
    | some pc => .next (s.upd fun u =>
        (u.setX d (BitVec.ofNat 64 (segLink (s.tile s.gta) u.pc.toNat))).jump (BitVec.ofNat 64 pc) s.cycle)

end Sys2Proof.Machine
end

