-- ==== Sys2Proof/Machine/Sched.lean ====
section
/-! DEFINITION. Barriers (12 R315 to R319), the entry of a strand into a slot and its departure (03 R64, R66), and the choice of the
slot that issues (03 R51 to R53). -/
namespace Sys2Proof.Machine

/-! ### Barriers -/

/-- Quad and cluster of a tile within its die (01 R11). -/
def quadOf (g : Nat) : Nat := g % 64 / 8 / 2 * 4 + g % 8 / 2
def clusterOf (g : Nat) : Nat := g % 64 / 8 / 4 * 2 + g % 8 / 4
/-- The unit of a tile at a barrier level below 4, numbered within the package. -/
def barUnit (level g : Nat) : Nat :=
  match level with
  | 0 => g
  | 1 => g / 64 * 16 + quadOf g
  | 2 => g / 64 * 4 + clusterOf g
  | _ => g / 64
/-- Barriers of a unit of each level (R315). -/
def barCount (level : Nat) : Nat := [16, 32, 64, 256, 1024].getD level 0
/-- Package row and column of a tile (05 R120). -/
def pkgRow (g : Nat) : Nat := g / 512 * 8 + g % 64 / 8
def pkgCol (g : Nat) : Nat := g / 64 % 8 * 8 + g % 8
/-- Width and height of a tile set. -/
def setW (tlo thi : Nat) : Nat := pkgCol thi + 1 - pkgCol tlo
def setH (tlo thi : Nat) : Nat := pkgRow thi + 1 - pkgRow tlo
/-- The tile at package row and column. -/
def tileAt (r c : Nat) : Nat := (r / 8 * 8 + c / 8) * 64 + r % 8 * 8 + c % 8
/-- The tiles of a set by rank (05 R120). -/
def setTiles (tlo thi : Nat) : List Nat :=
  (List.range (setW tlo thi * setH tlo thi)).map fun i =>
    tileAt (pkgRow tlo + i / setW tlo thi) (pkgCol tlo + i % setW tlo thi)
/-- Tiles of the unit of level 1, 2 or 3 that contains `g`. -/
def unitTiles (level g : Nat) : List Nat :=
  ((List.range 64).map fun t => g / 64 * 64 + t).filter fun h => barUnit level h == barUnit level g
/-- The tile set of the run of tile `g` contains every tile of its unit. -/
def State.unitWhole (s : State) (level g : Nat) : Bool :=
  (s.tile g).run && (unitTiles level g).all fun h => (s.tile h).run && (s.tile h).runid == (s.tile g).runid

/-- The key of the barrier that an id names from tile `g`, and its default member count; none for an invalid id (R315). -/
def State.barOf (s : State) (g id : Nat) : Option (Nat × Nat) :=
  let level := id / 2 ^ 13 % 8
  let i := id % 2 ^ 13
  let t := s.tile g
  if barCount level ≤ i then none
  else if level = 0 then some (g * 2 ^ 13 + i, t.pers)
  else if level = 4 then
    if t.run then some (4 * 2 ^ 32 + t.oslot * 2 ^ 13 + i, t.pers * (setW t.tlo t.thi * setH t.tlo t.thi)) else none
  else if s.unitWhole level g then some (level * 2 ^ 32 + barUnit level g * 2 ^ 13 + i, t.pers * (unitTiles level g).length)
  else none
/-- The barrier with that key. -/
def State.bar (s : State) (b : Nat) : Bar := sget {} s.bars b
/-- How far phase `p` lies ahead of the first incomplete phase. -/
def Bar.ahead (b : Bar) (p : Nat) : Nat := (p + (2 ^ 32 - b.k)) % 2 ^ 32
/-- Phases that are full complete, from the first on (R316). -/
def barDone : Nat → Nat → List (Nat × Nat) → Nat × List (Nat × Nat)
  | 0, k, ph => (k, ph)
  | fuel + 1, k, ph => match ph with
    | (n, c) :: r => if c ≠ 0 && c = n then barDone fuel ((k + 1) % 2 ^ 32) r else (k, ph)
    | [] => (k, ph)
/-- An arrival for the phase `d` ahead, with member count `n` (R316, R317): none when it is refused. -/
def Bar.arrive (b : Bar) (d n : Nat) : Option Bar :=
  let ph := b.ph ++ List.replicate (4 - b.ph.length) (0, 0)
  let x := ph.getD d (0, 0)
  if x.2 ≠ 0 && (x.1 ≠ n || x.2 = x.1) then none
  else
    let r := barDone 4 b.k (ph.set d (n, x.2 + 1))
    some { k := r.1, ph := if r.2.all (fun y => y.2 == 0) then [] else r.2 }

/-- The operand of bar.arr and bar.wait: its barrier id and its phase, and the member count that it gives, `dflt` for 0 (R317). -/
def barId (x : Nat) : Nat := bits x 48 16
def barPhase (x : Nat) : Nat := bits x 0 32
def barMembers (x dflt : Nat) : Nat := if bits x 32 14 = 0 then dflt else bits x 32 14
/-- A bar.wait whose phase has been left is done (R319). -/
def Win.barOver (s : State) (g key : Nat) (w : Win) : Win :=
  match w.st with
  | .wait (.bar x d) =>
    if (s.barOf g (barId x)).any (·.1 == key) && 2 ^ 31 ≤ (s.bar key).ahead (barPhase x) then
      { w with st := .done { xs := [(d, 0)], acquire := true } } else w
  | _ => w
/-- The token of an arrival (R318). -/
def barToken (x lead : Nat) : Word := BitVec.ofNat 64 (setBits x 46 2 lead)
/-- The slot holds a bar.arr parked on barrier `key` that the barrier can answer now (R317); a slot in D mode holds one of its program
buffer. -/
def State.barTurn (s : State) (key k : Nat) (t : Slot) : Bool := match t.hold with
  | some ⟨.barLead x _, _, _⟩ =>
    (t.pbPos.isSome || (!t.stopped && !t.halted)) && (s.barOf (k / 16) (barId x)).any (·.1 == key)
      && ((s.bar key).ahead (barPhase x) < 4 || 2 ^ 31 ≤ (s.bar key).ahead (barPhase x))
  | _ => false
/-- The bar.arr parked in slot `k` is recorded, or refused (R317); one of the program buffer executes again. -/
def State.barRecord (s : State) (key k : Nat) : State :=
  let t := s.slot k
  match t.hold with
  | some ⟨.barLead x d, _, _⟩ =>
    let lead := (s.bar key).ahead (barPhase x)
    let n := barMembers x (((s.barOf (k / 16) (barId x)).map (·.2)).getD 0)
    if t.mode = .d then s.updSlot k fun t => { t with hold := none }
    else match if 2 ^ 31 ≤ lead then none else (s.bar key).arrive lead n with
    | none => { ({ s with cur := k }.raise cENGINE 49) with cur := s.cur }
    | some b => { s with bars := sput {} s.bars key b }.updSlot k fun t => (t.setX d (barToken x lead)).unpark s.cycle
  | _ => s
/-- What waits on a barrier is looked at again: parked bar.waits, and parked arrivals, which are recorded as soon as the lead allows
it, in the order of their slots (log 92). -/
def State.barServeN (s : State) (key : Nat) : Nat → State
  | 0 => s
  | n + 1 =>
    let s := { s with slots := s.slots.map fun (p : Nat × Slot) => (p.1, { p.2 with wins := p.2.wins.map (Win.barOver s (p.1 / 16) key) }) }
    match s.slots.find? fun (p : Nat × Slot) => s.barTurn key p.1 p.2 with
    | some p => (s.barRecord key p.1).barServeN key n
    | none => s
/-- What waits on a barrier after a change of it. -/
def State.barServe (s : State) (key : Nat) : State := s.barServeN key (s.slots.length + 1)

/-- An earlier synchronising operation or accepted engine command of strand `k` has not completed (R317, 06 R157): a send completes
when it has started (06 R146). -/
def State.cmdsLive (s : State) (k : Nat) : Bool := s.cmds.any fun c => c.key == k && !(c.op.isSend && c.went)

/-- BAR_ARR (R317). -/
def execBarArr (a d : Nat) (s : State) : Out :=
  if s.me.occ = .codelet then s.illegal (.barArr a d)
  else
    let x := s.xn a
    match s.barOf s.gta (barId x) with
    | none => s.engine 48
    | some (key, dflt) =>
      if s.amoBusy s.cur || s.syncBusy s.cur || s.cmdsLive s.cur then .next (s.holdOn .release)
      else
        let b := s.bar key
        let lead := b.ahead (barPhase x)
        if 2 ^ 31 ≤ lead then s.engine 49
        else if 4 ≤ lead then .next (s.parkOn (.barLead x d) (limit s.me.wlim))
        else match b.arrive lead (barMembers x dflt) with
        | none => s.engine 49
        | some b' => (State.barServe { s with bars := sput {} s.bars key b' } key).finishX d (barToken x lead)

/-- BAR_WAIT (R319). -/
def execBarWait (la a b d : Nat) (s : State) : Out :=
  if s.me.occ = .codelet then s.illegal (.barWait la a b d)
  else mxInstr s fun s =>
    let i : Instr := .barWait la a b d
    let x := s.xn a
    let p := bits x 0 32
    match s.barOf s.gta (bits x 48 16) with
    | none => .next (s.openW la i (.done { xs := [(d, 2)] }))
    | some (key, _) =>
      let br := s.bar key
      let lead := br.ahead p
      if 2 ^ 31 ≤ lead then .next (s.openW la i (.done { xs := [(d, 0)], acquire := true }))
      else if 4 ≤ lead || (br.ph.getD lead (0, 0)).2 = 0 then .next (s.openW la i (.done { xs := [(d, 2)] }))
      else .next (s.openW la i (.wait (.bar x d)) (limit (if s.x b = 0 then s.me.wlim else s.x b)))

/-! ### Entering and leaving a slot -/

/-- The capability over a tile's launch-record object that a strand receives in c1 (04 R85). -/
def State.launchCap (s : State) (g : Nat) : Cap :=
  let o := mkOid (g / 64) (g % 64) 1023
  Cap.mk' (s.entry o).gen 0x80 o 4096 0
/-- The pc of segment address `sa`; a segment that is absent leaves it unresolved: SEG_ABSENT at the first fetch (11 R290). -/
def Slot.enterAt (t : Slot) (T : Tile) (sa : Nat) : Slot :=
  match T.resolve sa with
  | some pc => { t with pc := BitVec.ofNat 64 pc }
  | none => { t with pc := BitVec.ofNat 64 (sa % 0x2000), startFault := some (cSEG_ABSENT, sa) }
/-- A slot without a strand: its capability registers are null, and its other registers keep what the strand left in them (03 R67; 18
R415). -/
def Slot.vacated (t : Slot) (now : Nat) : Slot :=
  { v := t.v, badv := t.badv, x := t.x, m := t.m, fmode := t.fmode, mxcfg := t.mxcfg, wlim := t.wlim, lkey := t.lkey, rptc := t.rptc,
    instret := t.instret, tvec := t.tvec, trpc := t.trpc, tcause := t.tcause, tval := t.tval, tstat := t.tstat,
    tscratch := t.tscratch, wasFree := t.wasFree, nextWid := t.nextWid, dcsr := t.dcsr, dpc := t.dpc, dscratch0 := t.dscratch0, nextAt := now }
/-- A strand begins in slot `k` (03 R66): registers clear, x10 and x11, c1, the S copy of c15 from the save-area entry (R64), budget
and limit of the launch, tvec at offset 0 of segment `seg` (13 R335); it issues no sooner than cycle `at_`. A save-area entry with an
uncorrectable error gives a null S copy, and the strand takes MCHECK before its first instruction (05 R137; log 106). -/
def State.startSlot (s : State) (k : Nat) (occ : Occ) (seg at_ : Nat) : State :=
  let g := k / 16
  let T := s.tile g
  let old := s.slot k
  let i := 3872 + k % 16
  let bad := sget 0 s.badh (g * 4096 + i) ≠ 0
  let t : Slot :=
    { occ := occ, cls := T.cls, x := sput 0 (sput 0 [] 10 (BitVec.ofNat 64 T.rank)) 11 (BitVec.ofNat 64 (k % 16)),
      c := sput .null [] 1 (s.launchCap g), c15s := if bad then .null else s.holdAt g i, wlim := BitVec.ofNat 64 T.runWlim,
      wdog := BitVec.ofNat 64 T.runWdog, wdPost := s.tick, tdPost := s.tick, tvec := BitVec.ofNat 64 (seg % 256 * 0x2000),
      wasFree := old.wasFree, nextWid := old.nextWid, nextAt := at_, dcsr := old.dcsr, dpc := old.dpc, dscratch0 := old.dscratch0,
      haltReq := if T.tstop then 5 else 0, startFault := if bad then some (cMCHECK, 3 + i * 2 ^ 16) else none }
  (s.putHold g i .null).putSlot k t

/-- A slot that strand `k` has borrowed returns to Empty or spare. -/
def Slot.unlend (k : Nat) (t : Slot) : Slot := if t.occ = .lent k then { t with occ := .empty } else t
/-- Every loan of strand `k` ends (11 R313). -/
def State.endLoans (s : State) (k : Nat) : State := s.forSlots (k / 16) (fun _ t => t.unlend k) 16
/-- Capability registers of strand `k` dropped as cdrop drops them: the numbers listed, U copy for 15. -/
def State.dropRegs (s : State) (k : Nat) (ns : List Nat) : State :=
  ns.foldl (fun s n => s.returnCap (k / 16) (sget .null (s.slot k).c n)) s
/-- The S copy of c15 goes back to the save-area entry, or is dropped when the entry is in use (03 R64). -/
def State.backC15 (s : State) (k : Nat) : State :=
  let g := k / 16
  let i := 3872 + k % 16
  let c := (s.slot k).c15s
  if c = .null then s else if s.holdAt g i = .null then s.putHold g i c else s.returnCap g c
/-- The slot becomes Empty; a matrix error that nobody collected goes to the black box (09 R237). -/
def State.vacate (s : State) (k : Nat) : State :=
  let m := (s.slot k).merr
  let s := if m = 0 then s else s.bbStrand k 11 m 0
  s.updSlot k fun t => t.vacated s.cycle

/-- A strand that ends waits for its windows and its engine commands (11 R305). -/
def State.ended (s : State) (f : State → Out) : Out :=
  s.drainWindows fun s => if s.cmdsLive s.cur then .next (s.holdOn .commands) else f s

/-! ### Fetch -/

/-- What a fetch gives. -/
inductive Fetch where
  /-- The instruction's bits and length. -/
  | got (w len : Nat)
  /-- The overlay slot is being loaded: the strand stays in Waiting. -/
  | busy (j : Nat)
  | fault (cause tval : Nat)
  deriving DecidableEq, Repr

/-- The overlay slot that holds address `a` can be fetched from (R131): none, or what happens instead. -/
def Tile.ovFetch (t : Tile) (a : Nat) : Option Fetch :=
  let o := sget {} t.ov (a / 0x2000)
  if o.busy then some (.busy (a / 0x2000)) else if !o.valid then some (.fault cSEG_ABSENT a) else none
/-- The instruction at the pc (R25, R27): an odd pc, or one outside the overlay, raises PC_RANGE (03 R71, R75). A prefix of 48 bits or
more raises ILLEGAL with the 32 bits at the pc (R26), which are fetched as those of a 32-bit instruction are. -/
def State.fetch (s : State) (g pc : Nat) : Fetch :=
  let T := s.tile g
  let word (a : Nat) : Nat := mnat s.mem (flat (spOverlay g) a) 2
  if 0x10000 ≤ pc || pc % 2 = 1 then .fault cPC_RANGE pc
  else match T.ovFetch pc with
  | some f => f
  | none =>
    let p := word pc
    if ilen p = 2 then .got p 2
    else if 0x10000 ≤ pc + 2 then .fault cPC_RANGE pc
    else match T.ovFetch (pc + 2) with
    | some f => f
    | none => .got (p + 65536 * word (pc + 2)) 4

/-! ### Issue -/

/-- tip has an enabled interrupt that may be taken now (13 R338). -/
def irqDue (t : Slot) : Bool :=
  (t.tie &&& t.tip &&& 0x1E) != 0 && !t.held && (t.mode == .u || (t.mode == .s && tbit t.tstat.toNat 0)) && !t.stepping
    && !t.parkedAt
/-- WATCHDOG is due and may be taken. -/
def wdogDue (t : Slot) : Bool := t.wdDue && !t.held && !t.stepping && t.mode != .d

/-- A vector instruction: custom-1, custom-2 or a 16-bit form (08 R195, 16 R399). -/
def vectorBits (w : Nat) : Bool := w % 4 != 3 || w % 128 = 0x2B || w % 128 = 0x5B
/-- The self-test of another slot, or of the board controller, holds the vector unit of slot `k`'s tile (17 R402). -/
def State.vecTested (s : State) (k : Nat) : Bool := (s.testing (k / 16) 5).any (· != k)
/-- The reason for which the instruction at the pc was held is over. -/
def State.holdOver (s : State) (k : Nat) (h : HoldWhy) : Bool :=
  let t := s.slot k
  let g := k / 16
  match h with
  | .window id => !t.wins.any fun w => w.id == id
  | .windows => t.wins.isEmpty
  | .object o write => !s.objHold k o write
  | .fe o => !t.wins.any (Win.feOn o)
  | .sync => !s.amoBusy k
  | .commands => !s.cmdsLive k
  | .release => !s.amoBusy k && !s.syncBusy k && !s.cmdsLive k
  | .mxQueue => (s.queued true g).length < 2 && !s.mxTested g
  | .mvQueue => (s.queued false g).length < 2
  | .lacc => (s.tile g).laccFree ≤ s.cycle
  | .wfi => false
  | .barLead _ _ => false
  | .fetch j => !(sget {} (s.tile g).ov j).busy
  | .drop o => !s.objBusy k o
  | .drain o => !s.storeBusy k o
  | .late => !s.late.any (·.1 == k)
  | .remote o => !t.wins.any (Win.remoteOn o)
  | .ring o => !s.ringHeld k o
  | .ringDone o => !s.ringStores k o
  | .args ws bs => !bs.any (fun p => (s.slot p.1).buffers p.2 || s.lateOn p.1 p.2) && !ws.any fun p => (s.slot p.1).wins.any fun w =>
      w.id == p.2 && (match w.st with
        | .wait _ => true
        | _ => false)
  | .selfTest h target => !(s.unitBusy h target || (testUnit target).any (s.boardTest h))
  | .vecTest => !s.vecTested k

/-- The world of tile `g` is in a state in which every slot is stopped or halted (14 R363). -/
def State.worldStopped (s : State) (g : Nat) : Bool := match s.dieWorld (g / 64) with
  | some w => (s.world w).td == .quiesced || (s.world w).td == .error
  | none => false
/-- The world of tile `g` lets new strands begin: it is not being quiesced, nor stopped (14 R362, R363). -/
def State.worldOpen (s : State) (g : Nat) : Bool := match s.dieWorld (g / 64) with
  | some w => (s.world w).td == .run && !(s.world w).quiesce
  | none => false

/-- Slot `k` is eligible (03 R51, R52): it holds a strand that is not stopped, its next instruction is not held by a window, a hold or
str.yield, no trap is due, and the re-issue rule allows it. A slot in D mode issues only the program buffer. What would hold the next
instruction is looked for before anything issues or a cycle passes (State.tryHold). -/
def State.eligible (s : State) (k : Nat) : Bool :=
  let t := s.slot k
  (t.occ == .persistent || t.occ == .codelet) && decide (t.nextAt ≤ s.cycle)
    && !t.wins.any (fun w => w.left == 0 || !w.counting)
    && (match t.hold with
      | none => true
      | some h => s.holdOver k h.why)
    && t.sync.isNone && t.dfs.isEmpty
    && (if t.mode == .d then t.pbPos.isSome
        else !(s.tile (k / 16)).tstop && !t.stopped && !t.halted && !t.stopReq && t.haltReq == 0 && !wdogDue t
          && !(t.wins.isEmpty && irqDue t) && !(!t.yieldFor.isEmpty && decide (s.cycle < t.yieldUntil)))
    && !s.worldStopped (k / 16)

/-- The oldest of the slots `ks`, the first of them among equal ages (03 R53). -/
def State.oldest (s : State) : List Nat → Option Nat
  | [] => none
  | k :: ks => match s.oldest ks with
    | none => some k
    | some j => if (s.slot k).age < (s.slot j).age then some j else some k
/-- The issue of tile `g` is held idle by power throttling (01 R24). -/
def State.throttled (s : State) (g : Nat) : Bool := sget false s.throttle (g / 64)
/-- The slot is of the low issue class: launch priority classes 2 and 3 (03 R53). -/
def Slot.low (t : Slot) : Bool := 2 ≤ t.cls
/-- The slot that the core of tile `g` picks (03 R53): a low-class slot of age 48 or more, else a high-class slot, else a low-class
one; the oldest, and the lower number among equal ages. A throttled core picks none. -/
def State.pick (s : State) (g : Nat) : Option Nat :=
  if s.throttled g then none
  else
    let ks := ((List.range 16).map (g * 16 + ·)).filter s.eligible
    (s.oldest (ks.filter fun k => (s.slot k).low && 48 ≤ (s.slot k).age)).or
      ((s.oldest (ks.filter fun k => !(s.slot k).low)).or (s.oldest ks))

end Sys2Proof.Machine
end

