-- ==== Sys2Proof/Machine/Work.lean ====
section
/-! DEFINITION. Codelets, their descriptors and dispatch (11 R284 to R292, R303 to R305), strands made, ended and moved (R306 to
R310), borrowed slots (R313, R314), and the tag tables (R293 to R298, R311, R312). -/
namespace Sys2Proof.Machine

/-! ### Descriptors -/

/-- Checks of a descriptor capability (R303, R311): the pool address of the descriptor. -/
def descChk (g n : Nat) (c : Cap) : Chk Unit := do
  notNull c n
  rights (c.has rW && isOwn g c.o) c n
  if c.l < 64 then Except.error (cCAP_BOUNDS, c.top) else pure ()
  aligned c.b 64
/-- Argument k of a descriptor. -/
def State.darg (s : State) (g a k : Nat) : Nat := s.dget g a (16 + 2 * k) 2
/-- A reserved field of the descriptor is set, or a field lies outside its range (R303). -/
def State.badDescriptor (s : State) (g a : Nat) : Bool :=
  s.dget g a 4 1 / 16 != 0 || s.dget g a 5 1 / 4 != 0 || s.dget g a 9 1 != 0 || s.dget g a 0x22 6 != 0 || s.dget g a 10 2 % 2 == 1
    || 0x2000 ≤ s.dget g a 10 2 || (List.range 4).any fun k => 4096 ≤ s.darg g a k && s.darg g a k != 0xFFFF

/-- CDL_NEW (R303). -/
def execCdlNew (a b d : Nat) (s : State) : Out :=
  let c := s.c a
  let g := s.gta
  checked (descChk g a c) s fun _ =>
    portOk ((s.check18 c g s.me.lkey true).map (preciseFault c a)) c.o s (goodBytes c c.b 64 s (
      let p := (s.entry c.o).base + c.b
      if bits (s.xn b) 32 32 ≠ 0 || s.badDescriptor g p then s.engine 34
      else if s.me.mode == .u && (List.range 4).any (fun k => 3840 ≤ s.darg g p k && s.darg g p k != 0xFFFF) then
        s.modeFault (.cdlNew a b d)
      else if s.dstate g p ≠ 0 then s.engine 36
      else
        let stamp := (s.dget g p 6 2 + 1) % 2 ^ 16
        let count := bits (s.xn b) 0 32
        let s := (((((s.dput g p 6 2 stamp).dput g p 12 4 (s.tile g).runid).dput g p 0 4 count).dput g p 0x20 2 0).dput g p 0x18 8 0).dput
          g p 4 1 1
        let s := { s with marks := sput 0 s.marks (flat (ownSp g) p) 97 }
        (if count = 0 then s.makeReady g p else s).finishX d (BitVec.ofNat 64 (mkHandle stamp g p))))

/-- A decrement by handle sent to its home: the state after it, and a deferred fault (R304). A request to a home in another world is
refused on its way (14 R353). -/
def State.decSend (s : State) (g h n : Nat) : State × Option (Nat × Nat) :=
  let o := mkOid (hHome h / 64) (hHome h % 64) 0
  if s.foreign g o then (s.noteRefusal g o (cWORLD, hHome h), some (cWORLD, hHome h)) else s.decrement h n

/-- CDL_DEC (R304): a handle that does not match is refused precisely on the own tile, otherwise deferred (R302). -/
def execCdlDec (la a b : Nat) (s : State) : Out :=
  mxInstr s fun s =>
    let h := s.xn a
    let n := bits (s.xn b) 0 32
    let i : Instr := .cdlDec la a b
    let send (s : State) : Out :=
      if hHome h = s.gta && !s.descBad h && !s.matches_ h then s.engine 32
      else match s.decSend s.gta h n with
      | (s', none) => .next (s'.openW la i (.done {}))
      | (s', some f) => .next (s'.openW la i (.fail f.1 f.2))
    if badHandle h || bits (s.xn b) 32 32 ≠ 0 then s.engine 34
    else if s.me.restartable then
      (match s.cbufHold (.dec h n) 24 with
      | some s' => .next (s'.openW la i (.done {}))
      | none => send s.endRestart)
    else send s

/-! ### The end of a strand -/

/-- The argument registers of a codelet written back into the entries that its dispatch claimed (R305 step 4). -/
def State.backArgs (s : State) (k : Nat) : State :=
  (s.slot k).args.foldl (fun s p =>
    let c := sget .null (s.slot k).c (2 + p.1)
    ((s.setHold (k / 16) p.2 c).setClaim (k / 16) p.2 0).updSlot k fun t => { t with c := sput .null t.c (2 + p.1) .null }) s
/-- The descriptor of a codelet that ends becomes Free (R305 step 6). -/
def State.freeDesc (s : State) (g a : Nat) : State :=
  if a = 0 || a = initialDesc then s
  else { s.dsetState g a 0 with marks := sput 0 s.marks (flat (ownSp g) a) 0 }

/-- CDL_DONE (R305). -/
def execCdlDone (s : State) : Out :=
  if s.me.occ ≠ .codelet then s.illegal .cdlDone
  else s.ended fun s =>
    let k := s.cur
    let s := s.cbufFlush k
    if s.late.any (·.1 == k) then .next (s.holdOn .late)
    else
    let s := ((s.mbReleaseAll k 8).endLoans k).backArgs k
    let s := (s.backC15 k).dropRegs k (List.range' 1 15)
    let a := (s.slot k).desc
    .next ((s.freeDesc s.gta a).vacate k)

/-- STR_EXIT (R307). -/
def execStrExit (s : State) : Out :=
  if s.me.occ = .codelet then s.illegal .strExit
  else s.ended fun s =>
    let k := s.cur
    let s := ((s.mbReleaseAll k 8).endLoans k).dropRegs k (List.range' 1 15)
    .next ((s.backC15 k).vacate k)

/-- STR_YIELD (R308). -/
def execStrYield (s : State) : Out :=
  let others := (List.range 16).filter fun i => s.gta * 16 + i != s.cur && s.eligible (s.gta * 16 + i)
  s.finish fun t => { t with yieldFor := others, yieldUntil := s.cycle + 64 }
/-- YIELD_EXPIRY (R308): 64 cycles have passed. -/
def execYieldExpiry (k : Nat) (s : State) : Out :=
  let t := s.slot k
  if t.yieldFor.isEmpty || s.cycle < t.yieldUntil then .fault .notDue
  else .next (s.updSlot k fun t => { t with yieldFor := [], age := 0 })

/-! ### New and migrated strands -/

/-- STR_NEW (R306). -/
def execStrNew (a b d : Nat) (s : State) : Out :=
  if s.me.occ = .codelet then s.illegal (.strNew a b d)
  else
    let sa := s.xn a
    let g := s.gta
    if 2 ^ 21 ≤ sa then s.trap cPC_RANGE sa
    else match (List.range (min 16 (s.tile g).pers)).find? fun i => (s.slot (g * 16 + i)).occ == .empty with
    | none => s.finishX d (BitVec.allOnes 64)
    | some i =>
      let c := s.c b
      if c ≠ .null && s.storeBusy s.cur c.o then .next (s.drainOn c.o)
      else
        let k := g * 16 + i
        let lkey := s.me.lkey
        let wlim := s.me.wlim
        let s' := (s.startSlot k .persistent (s.tile g).entryseg (s.cycle + 8)).updSlot k fun t =>
          ({ t with c := sput .null t.c 2 c, lkey := lkey, wlim := wlim }).enterAt (s.tile g) sa
        s'.finish fun t => (t.setC b .null).setX d (BitVec.ofNat 64 i)

/-- A capability that mig cannot carry (R309): an arena capability, one over a launch record, a part of an owner capability, or
one that would travel as a byte copy. -/
def State.migRefuses (s : State) (c : Cap) (dest : Nat) : Bool :=
  c != .null && (c.has rN || c.launchRecord || (c.isOwner && !c.has rS) || (c.isOwner && s.deliverHow c s.pkgno dest == .copy))

/-- A context reaches its destination's strand-entry queue (R310): it joins, waits at the sender, behind an earlier one that
waits there (10 R261), or goes back to its origin. -/
def State.ctxArrive (s : State) (c : Ctx) : State :=
  let c : Ctx := if (s.tile c.dest).fenced && !c.back then { c with back := true } else c
  let g := if c.back then c.origin else c.dest
  let behind := s.migs.any fun x => x.origin == c.origin && x.dest == c.dest && x.back == c.back && decide (x.id < c.id)
  if (s.tile g).entryQ.length < 4 && !behind then s.updTile g fun t => { t with entryQ := t.entryQ ++ [c] }
  else { s with migs := s.migs ++ [{ c with at_ := s.cycle }] }

/-- Stores of the tile's strands to an object that have not been applied: strand keys and windows. -/
def State.pendingStores (s : State) (g o : Nat) : List (Nat × Nat) :=
  (List.range 16).flatMap fun i => ((s.slot (g * 16 + i)).wins.filter (Win.storeOn o)).map fun w => (g * 16 + i, w.id)

/-- Strands of the tile whose commit buffers hold stores to an object, or whose buffered stores to it wait: keys and the object. -/
def State.pendingBufs (s : State) (g o : Nat) : List (Nat × Nat) :=
  ((List.range 16).filter fun i => (s.slot (g * 16 + i)).buffers o || s.lateOn (g * 16 + i) o).map fun i => (g * 16 + i, o)

/-- MIG (R309). -/
def execMig (a : Nat) (s : State) : Out :=
  if s.me.occ = .codelet then s.illegal (.mig a)
  else
    let dest := s.xn a
    let g := s.gta
    let T := s.tile g
    if 4096 ≤ dest then s.engine 34
    else if !T.run || !(s.tile dest).run || (s.tile dest).runid ≠ T.runid then s.engine 38
    else match (List.range' 2 13).find? fun n => s.migRefuses (sget .null s.me.c n) dest with
    | some n => s.trap cCAP_RIGHTS (rightsVal (sget .null s.me.c n) n)
    | none => s.ended fun s =>
      let k := s.cur
      let carried := (List.range' 2 13).filter fun n => sget .null s.me.c n != .null && (sget .null s.me.c n).isOwner
      let ws := carried.flatMap fun n => s.pendingStores g (sget .null s.me.c n).o
      let bs := carried.flatMap fun n => s.pendingBufs g (sget .null s.me.c n).o
      let owners := carried.filter fun n => !isWindow (sget .null s.me.c n).o
      if !ws.isEmpty || !bs.isEmpty then .next (s.holdOn (.args ws bs))
      else
        let s := ((s.mbReleaseAll k 8).endLoans k).backC15 k
        let s := s.dropRegs k [1, 15]
        let t := s.slot k
        let s : State := owners.foldl (fun s n =>
          let c := sget .null t.c n
          if (s.check15 c g).isNone then s.updEntry c.o fun e => { e with owner := dest } else s) s
        let ctx : Ctx :=
          { id := s.nextId, origin := g, dest := dest, seg := segLink T t.pc.toNat, x := t.x,
            c := t.c.filter (fun p => p.1 != 1 && p.1 != 15), fmode := t.fmode, mxcfg := t.mxcfg, wlim := t.wlim, lkey := t.lkey,
            instret := t.instret + 1, wdog := t.wdog, tie := t.tie, tip := t.tip &&& 0xFFFFFFFF00000002 }
        .next (State.ctxArrive { s.vacate k with nextId := s.nextId + 1 } ctx)

/-- STRAND_ENTRY_RETRY (R310, 10 R261): a context that found the queue full tries again, when there is room or after 4,096 cycles. -/
def execStrandEntryRetry (id : Nat) (s : State) : Out :=
  match s.migs.find? fun c => c.id == id with
  | none => .fault .notDue
  | some c =>
    let g := if c.back then c.origin else c.dest
    let first := !s.migs.any fun x => x.origin == c.origin && x.dest == c.dest && x.back == c.back && decide (x.id < id)
    if first && ((s.tile g).entryQ.length < 4 || c.at_ + 4096 ≤ s.cycle || (s.tile g).fenced) then
      .next (State.ctxArrive { s with migs := s.migs.filter fun x => x.id != id } c)
    else .fault .notDue

/-- MIGRATED_STRAND_ENTRY (R310): the first context of tile g's queue enters the lowest Empty persistent slot, and the tile acquires what
its capabilities carry (06 R147, R149; log 107). A context that comes back takes ENGINE 39 with its destination in tval (log 88). -/
def execMigratedStrandEntry (g : Nat) (s : State) : Out :=
  match (s.tile g).entryQ, (List.range (min 16 (s.tile g).pers)).find? (fun i => (s.slot (g * 16 + i)).occ == .empty) with
  | c :: rest, some i =>
    if (s.tile g).fenced || !s.worldOpen g then .fault .notDue
    else
      let k := g * 16 + i
      let s := s.updTile g fun t => { t with entryQ := rest }
      .next (((s.l1Discard g).startSlot k .persistent (s.tile g).entryseg (s.cycle + 1)).updSlot k fun t =>
        let u := ({ t with x := c.x, c := sput .null c.c 1 (s.launchCap g), fmode := c.fmode, mxcfg := c.mxcfg, wlim := c.wlim,
                           lkey := c.lkey, instret := c.instret, wdog := c.wdog, tie := c.tie, tip := c.tip }).enterAt (s.tile g) c.seg
        if c.back then { u with startFault := some (cENGINE, c.dest) } else u)
  | _, _ => .fault .notDue

/-! ### Dispatch (R288, R290) -/

/-- The head of the lowest-numbered non-empty ready queue. -/
def Tile.readyHead (t : Tile) : Option (Nat × Nat × Bool) :=
  (List.range 4).findSome? fun p => match sget [] t.ready p with
    | (a, r) :: _ => some (p, a, r)
    | [] => none
/-- The slot that a dispatch would fill: the lowest codelet slot open in slotmask that was Empty at the start of the cycle. -/
def State.dispatchSlot (s : State) (g : Nat) : Option Nat :=
  let t := s.tile g
  (List.range 16).find? fun i => decide (t.pers ≤ i) && decide (i < t.pers + t.cdl) && (s.slot (g * 16 + i)).wasFree
    && tbit t.slotmask.toNat i

/-- Argument k of a dispatch: its holding entry is claimed and its capability placed; an entry that is already claimed places
null (R290). One that holds an uncorrectable error places null, and the strand takes MCHECK before its first instruction, where no other
fault of the dispatch is due (05 R137; log 106). -/
def State.placeArg (s : State) (k a n : Nat) : State :=
  let g := k / 16
  let i := s.darg g a n
  if a = initialDesc || 4096 ≤ i || s.claimed g i then s
  else
    let bad := sget 0 s.badh (g * 4096 + i) ≠ 0
    let c := if bad then .null else s.holdAt g i
    (s.setClaim g i 1).updSlot k fun t => { t with args := t.args ++ [(n, i)], c := sput .null t.c (2 + n) c
                                                   startFault := if bad then some (cMCHECK, 3 + i * 2 ^ 16) else t.startFault }

/-- CODELET_DISPATCH (R288, R290). A descriptor that holds a word with the poison syndrome poisons its object, and the codelet takes
CAP_POISON before its first instruction (13 R345; log 116). -/
def execCodeletDispatch (g : Nat) (s : State) : Out :=
  let T := s.tile g
  match T.readyHead, s.dispatchSlot g with
  | some (p, a, ring), some i =>
    if !T.run || T.fenced || T.tstop || !s.worldOpen g || (s.slot (g * 16 + i)).occ != .empty || s.cycle < T.dispatchAt then .fault .notDue
    else
      let k := g * 16 + i
      let s := s.updTile g fun t => { t with ready := sput [] t.ready p ((sget [] t.ready p).drop 1), dispatchAt := s.cycle + 4 }
      let own := a != initialDesc
      let seg := if own then s.dget g a 8 1 else T.entryseg
      let off := if own then s.dget g a 10 2 else mnat s.mem (flat (ownSp g) 8) 2
      let s := if own then s.dsetState g a 3 else s
      let s := s.startSlot k .codelet seg (s.cycle + if ring then 16 else 24)
      let s := (List.range 4).foldl (fun s n => s.placeArg k a n) s
      let os := (s.slot k).args.map fun q => (sget .null (s.slot k).c (2 + q.1)).o
      let ws := os.flatMap (s.pendingStores g)
      let bs := os.flatMap (s.pendingBufs g)
      let stale := own && tbit (s.dget g a 4 1) 3
      let skey := s.dget g a 0x28 8
      let hurt := own && s.badWords (flat (ownSp g) a) 64
      let poisoned := (cCAP_POISON, s.objAt (flat (ownSp g) a))
      let s := if hurt then s.poisonWord (flat (ownSp g) a) else s
      let s := s.updSlot k fun t =>
        let t := { t.enterAt T (seg * 0x2000 + off) with desc := a, restartable := true,
                                                         hold := if ws.isEmpty && bs.isEmpty then none else some ⟨.args ws bs, none, 0⟩ }
        if hurt then { t with startFault := some poisoned } else if stale then { t with startFault := some (cTAG_STALE, skey) } else t
      .next (State.count (s.l1Discard g) g 11)
  | _, _ => .fault .notDue

/-- The claims of grants in a commit buffer that is discarded are released. -/
def State.dropHeldGrants (s : State) (g : Nat) : List CbEnt → State
  | [] => s
  | .decl _ _ _ _ (some i) :: es => (s.setClaim g i 0).dropHeldGrants g es
  | _ :: es => s.dropHeldGrants g es

/-- CODELET_ABORT (05 R135, R292): a restartable codelet that has met a granule that is not resident starts again from its
descriptor. -/
def execCodeletAbort (k : Nat) (s : State) : Out :=
  let t := s.slot k
  let g := k / 16
  let met := t.wins.any fun w => match w.st with
    | .wait (.resident ..) => true
    | _ => false
  if t.occ ≠ .codelet || !t.restartable || s.frozen k || !(met || s.late.any (·.1 == k)) then .fault .notDue
  else
    let s := State.dropHeldGrants { s.unlistAll k with late := s.late.filter (·.1 != k) } g t.cbuf
    let s : State := t.args.foldl (fun s p =>
      (s.setClaim g p.2 0).updSlot k fun u => { u with c := sput .null u.c (2 + p.1) .null }) s
    -- the claimed entries still hold their capabilities: the argument registers were copies
    let s := ((s.dropRegs k (List.range' 1 15)).backC15 k).endLoans k
    let s := (s.mbReleaseAll k 8).vacate k
    .next (State.count (if t.desc = 0 then s else s.makeReady g t.desc) g 12)

/-! ### Borrowed slots (R313, R314) -/

/-- SLOT_BORROW: a spare slot, or an Empty codelet slot. -/
def execSlotBorrow (a d : Nat) (s : State) : Out :=
  let i := s.xn a
  let k := s.gta * 16 + i
  if i < 16 && (s.tile s.gta).pers ≤ i && (s.slot k).occ == .empty then
    (s.updSlot k fun t => { t with occ := .lent s.cur }).finishX d 0
  else s.finishX d 1
/-- SLOT_RET. -/
def execSlotRet (a : Nat) (s : State) : Out :=
  let i := s.xn a
  let k := s.gta * 16 + i
  if i < 16 && (s.slot k).occ == .lent s.cur then (s.updSlot k (·.unlend s.cur)).finish id else s.engine 37
/-- The slot of an xmv: one lent to the strand, or its own. -/
def State.xmvSlot (s : State) (i : Nat) : Option Nat :=
  let k := s.gta * 16 + i
  if i < 16 && (k == s.cur || (s.slot k).occ == .lent s.cur) then some k else none
/-- XMV_RD. -/
def execXmvRd (a imm d : Nat) (s : State) : Out :=
  if s.vIll [d, imm] then s.illegal (.xmvRd a imm d)
  else match s.xmvSlot (s.xn a) with
  | some k => (match vGood (s.slot k) [imm] with
    | .error f => s.trap f.1 f.2
    | .ok _ => s.finish (·.setV d ((s.slot k).getV imm)))
  | none => s.engine 37
/-- XMV_WR. -/
def execXmvWr (a imm d : Nat) (s : State) : Out :=
  if s.vIll [d, imm] then s.illegal (.xmvWr a imm d)
  else match s.xmvSlot (s.xn a) with
  | some k => (match vGood s.me [d] with
    | .error f => s.trap f.1 f.2
    | .ok _ => (s.updSlot k (·.setV imm (s.me.getV d))).finish id)
  | none => s.engine 37

/-! ### Tags (R293 to R298) -/

/-- Entries and overflow records in use on a die (R293): four waiters in an entry, six in each record. -/
def tagUse (ts : List TagEnt) : Nat := ts.foldl (fun n t => n + 1 + (t.waiters.length - 4 + 5) / 6) 0
/-- The run with that id is complete: it has been assigned, and no entry of the run table is held or running for it. -/
def State.runDone (s : State) (id : Nat) : Bool :=
  id != 0 && decide (id < s.runNext) && !s.runs.any fun p => p.2.id == id && (p.2.st == .held || p.2.st == .running)
/-- Room for one more entry or record on a die: the entry that nothing has acted on for the longest time is reclaimed (R294). -/
def State.tagRoom (s : State) (die : Nat) : Option State :=
  let ts := sget [] s.tags die
  if tagUse ts < 65536 then some s
  else match ts.find? fun t => t.waiters.isEmpty && s.runDone t.lastRun with
  | some t => some { s with tags := sput [] s.tags die (ts.filter fun x => x.key != t.key) }
  | none => none
/-- The entry of a key. -/
def State.tagEnt (s : State) (die key : Nat) : Option TagEnt := (sget [] s.tags die).find? fun t => t.key == key
/-- The entry written, as the one last acted on. -/
def State.putTag (s : State) (die : Nat) (t : TagEnt) : State :=
  { s with tags := sput [] s.tags die ((sget [] s.tags die).filter (fun x => x.key != t.key) ++ [t]) }

/-- A pending grant made (R298): a fraction over [base, base + len) of the object, or over all of it, in the claimed entry `i` of
tile `g`; null where the port refuses, or the object is an entry of index 0, over which there are no fractions (04 R85). The claim is
released, and a tile that receives a fraction acquires (06 R147, R150). -/
def State.makeGrant (s : State) (g : Nat) (i : Option Nat) (o base len : Nat) (whole : Bool) : State :=
  match i with
  | none => s
  | some i =>
    let e := s.entry o
    let c := Cap.mk' e.gen 0x8C o (if whole then e.len else len) (if whole then 0 else base)
    let s := s.setClaim g i 0
    if oidIdx o ≠ 0 && e.fracs < 4095 && !e.amo && (s.check16 c g).isNone then
      ((s.updEntry o fun e => { e with fracs := e.fracs + 1 }).setHold g i c).l1Discard g
    else s.setHold g i .null
/-- A pending grant that will not be made. -/
def State.noGrant (s : State) (g : Nat) (i : Option Nat) : State := match i with
  | none => s
  | some i => (s.setClaim g i 0).setHold g i .null

/-- A decrement from a tag table or a completion notice: one that finds no Waiting descriptor goes to the black box (R287). -/
def State.tagDec (s : State) (h : Nat) : State := match s.decrement h 1 with
  | (s', none) => s'
  | (s', some f) => s'.bb (hHome h / 64) ⟨s.tick, 12, 0xFF, hHome h, 0, (s.tile (hHome h)).runid, bbCause f, h⟩

/-- A fallback (R297): the descriptor joins its tile's chain for the producer run, or is decremented at once. One that is no longer
Waiting joins nothing (log 45). -/
def State.fallback (s : State) (r : TagReq) : Except Nat State :=
  let T := s.tile r.g
  let o := r.key / 2 ^ 16
  if T.pslot = 0xFFF then .error 35
  else if T.pslot = 0xFFE || T.notices.contains T.pslot then .ok ((s.makeGrant r.g r.grant o 0 0 true).tagDec r.handle)
  else if !s.matches_ r.handle then .ok (s.noGrant r.g r.grant)
  else
    let a := hAddr r.handle
    .ok ((s.dput r.g a 0x20 2 (s.dget r.g a 0x20 2 + 1)).updTile r.g fun t =>
      { t with fbs := t.fbs ++ [{ pslot := T.pslot, handle := r.handle, oid := o, grant := r.grant }] })

/-- The outcome of a declaration at its key's home (R295): the state and the status, or a deferred fault. A decrement that finds the
descriptor no longer Waiting goes to the black box (R287, log 45). Generation 0 on an entry without a publication is answered like any other
generation that has been reached (log 114). -/
def State.declare (s : State) (r : TagReq) : Except (Nat × Nat) (State × Nat) :=
  let o := r.key / 2 ^ 16
  let die := oidDie o
  let T := s.tile r.g
  let dec (s : State) (st : Nat) : Except (Nat × Nat) (State × Nat) := .ok (s.tagDec r.handle, st)
  let fall (s : State) : Except (Nat × Nat) (State × Nat) := match s.fallback r with
    | .ok s' => .ok (s', 2)
    | .error e => .error (cENGINE, e)
  let noRoom (s : State) : Except (Nat × Nat) (State × Nat) := fall (s.updTile r.g fun t => { t with tagfb := t.tagfb + 1 })
  let w : Waiter := ⟨r.handle, r.gen, r.grant⟩
  if s.foreign r.g o then .error (cWORLD, o)
  else match s.tagEnt die r.key with
  | some t =>
    if t.pub = r.gen then dec ((s.makeGrant r.g r.grant o t.base t.len false).putTag die t) 0
    else if r.gen < t.pub then .error (cTAG_STALE, r.key)
    else if 4 ≤ t.waiters.length && (t.waiters.length - 4) % 6 = 0 then
      (match s.tagRoom die with
      | some s => .ok (s.putTag die { t with waiters := t.waiters ++ [w] }, 1)
      | none => noRoom s)
    else .ok (s.putTag die { t with waiters := t.waiters ++ [w] }, 1)
  | none =>
    let p := sget {} s.runs T.pslot
    if T.pslot = 0xFFE || (T.pslot < 4096 && p.st == .complete) then dec (s.makeGrant r.g r.grant o 0 0 true) 3
    else if T.pslot < 4096 && p.lossy then fall s
    else match s.tagRoom die with
    | some s => .ok (s.putTag die { key := r.key, waiters := [w] }, 1)
    | none => noRoom s

/-- TAG_DECL_AT_HOME (R295). A declaration that a commit buffer held is not reported to its codelet (R292); one that ends in ENGINE 35 is
not counted by tagfb (log 114). -/
def execTagDeclAtHome (id : Nat) (s : State) : Out :=
  match s.treqs.find? fun r => r.id == id && r.decl with
  | none => .fault .notDue
  | some r =>
    let s0 := { s with treqs := s.treqs.filter fun x => x.id != id }
    match s0.declare r with
    | .ok (s', st) => .next (if r.win = 0 then s' else s'.endWin r.k r.win (.done { xs := [(r.d, BitVec.ofNat 64 st)] }))
    | .error f =>
      let s' := (s0.noGrant r.g r.grant).noteRefusal r.g (r.key / 2 ^ 16) f
      .next (if r.win = 0 then s'.bbStrand r.k 10 f.1 f.2 else s'.endWin r.k r.win (.fail f.1 f.2))

/-- A released waiter (R296): one of the published generation receives its grant; an older one becomes stale. -/
def State.release (s : State) (key pub base len : Nat) (w : Waiter) : State :=
  let g := hHome w.handle
  if w.gen = pub then (s.makeGrant g w.grant (key / 2 ^ 16) base len false).tagDec w.handle
  else
    let a := hAddr w.handle
    let s := if s.matches_ w.handle then (s.dput g a 4 1 (setBits (s.dget g a 4 1) 3 1 1)).dput g a 0x28 8 key else s
    (s.noGrant g w.grant).tagDec w.handle

/-- TAG_PUB_AT_HOME (R296, R312): the strand's earlier stores to the object and engine commands are done; the generation is
recorded, and the waiters are released. -/
def execTagPubAtHome (id : Nat) (s : State) : Out :=
  match s.treqs.find? fun r => r.id == id && !r.decl with
  | none => .fault .notDue
  | some r =>
    let o := r.cap.o
    let busy := s.lateOn r.k o || (s.slot r.k).wins.any fun w => decide (w.id < r.win) && w.storeOn o
    if busy || s.drains r.k r.id then .fault .notDue
    else
      let s := { s with treqs := s.treqs.filter fun x => x.id != id }
      match s.check16 r.cap r.g with
      | some f => .next ((s.noteRefusal r.g o f).endWin r.k r.win (.fail f.1 f.2))
      | none =>
        let die := oidDie o
        let run := (s.tile r.g).runid
        let done (s : State) (n : Nat) : State := s.endWin r.k r.win (.done { xs := [(r.d, BitVec.ofNat 64 n)] })
        let rec_ (s : State) (t : TagEnt) : State :=
          let out := t.waiters.filter fun w => decide (w.gen ≤ r.gen)
          let s := s.putTag die { t with pub := r.gen, lastRun := run, base := r.cap.b, len := r.cap.l,
                                         waiters := t.waiters.filter fun w => decide (r.gen < w.gen) }
          out.foldl (fun s w => s.release r.key r.gen r.cap.b r.cap.l w) (done s out.length)
        match s.tagEnt die r.key with
        | some t =>
          if t.pub < r.gen then .next (rec_ s t) else .next (s.endWin r.k r.win (.fail cTAG_STALE r.key))
        | none =>
          if r.gen = 0 then .next (s.endWin r.k r.win (.fail cTAG_STALE r.key))
          else match s.tagRoom die with
          | some s => .next (rec_ s { key := r.key })
          | none =>
            .next (done { s with runs := s.runs.map fun p => if p.2.id == run && p.2.st == .running then (p.1, { p.2 with lossy := true })
                                                      else p } 0)

/-- TAG_DECL (R311). -/
def execTagDecl (la a b d : Nat) (s : State) : Out :=
  mxInstr s fun s =>
    let c := s.c a
    let g := s.gta
    let xd := s.xn d
    let xb := s.xn b
    let i : Instr := .tagDecl la a b d
    checked (descChk g a c) s fun _ =>
      portOk ((s.check18 c g s.me.lkey true).map (preciseFault c a)) c.o s (goodBytes c c.b 64 s (
        let p := (s.entry c.o).base + c.b
        let h := bits xb 16 12
        let grant := if tbit xb 31 then some h else none
        let hd := mkHandle (s.dget g p 6 2) g p
        if !s.matches_ hd || s.dget g p 12 4 ≠ (s.tile g).runid then s.engine 32
        else if 2 ^ 44 ≤ xd || bits xb 28 3 ≠ 0 || bits xb 0 16 ≠ 0 then s.engine 34
        else if grant.isSome && 3840 ≤ h && s.me.mode == .u then s.modeFault i
        else if grant.isSome && sget 0 s.badh (g * 4096 + h) ≠ 0 then s.trap cMCHECK (3 + h * 2 ^ 16)
        else if grant.isSome && (s.holdAt g h ≠ .null || s.claimed g h) then s.trap cHOLD_INDEX h
        else
          let s := if grant.isSome then s.setClaim g h 2 else s
          let send (s : State) : Out :=
            let r : TagReq := { id := s.nextId, k := s.cur, win := s.me.nextWid, g := g, decl := true, cap := c, handle := hd, key := xd,
                                gen := bits xb 32 32, grant := grant, lkey := s.me.lkey, d := d }
            .next ({ s with treqs := s.treqs ++ [r], nextId := s.nextId + 1 }.openW la i (.wait (.cmd s.nextId)))
          if s.me.restartable then
            (match s.cbufHold (.decl c hd xd (bits xb 32 32) grant) 24 with
            | some s' => .next (s'.openW la i (.done { xs := [(d, 4)] }))
            | none => send s.endRestart)
          else send s))

/-- TAG_PUB (R312). -/
def execTagPub (la a b d : Nat) (s : State) : Out :=
  mxInstr s fun s =>
    let c := s.c a
    let xb := s.xn b
    checked (do
      notNull c a
      rights (c.isOwner && c.has rW) c a) s fun _ =>
        if bits xb 16 16 ≠ 0 then s.engine 34
        else if s.amoBusy s.cur then .next (s.holdOn .sync)
        else
          let s := s.endRestart
          let r : TagReq := { id := s.nextId, k := s.cur, win := s.me.nextWid, g := s.gta, decl := false, cap := c, handle := 0,
                              key := c.o * 2 ^ 16 + bits xb 0 16, gen := bits xb 32 32, grant := none, lkey := s.me.lkey, d := d }
          .next ({ s with treqs := s.treqs ++ [r], nextId := s.nextId + 1 }.openW la (.tagPub la a b d) (.wait (.cmd s.nextId)))

/-- The completion notice for run-table index `idx` reaches tile `g` (R297): first the grants, then the decrements of every
descriptor chained to it. -/
def State.noticeAt (s : State) (g idx : Nat) : State :=
  let mine := (s.tile g).fbs.filter fun f => f.pslot == idx
  let s := s.updTile g fun t => { t with fbs := t.fbs.filter (fun f => f.pslot != idx), notices := t.notices ++ [idx] }
  let s : State := mine.foldl (fun s f => s.makeGrant g f.grant f.oid 0 0 true) s
  mine.foldl (fun s f => s.tagDec f.handle) s

end Sys2Proof.Machine
end

