-- ==== Sys2Proof/Machine/Preempt.lean ====
section
/-! DEFINITION. The close of lookahead windows (03 R55, R56), trap entry (13 R336, R338), the expiries of limits, timers and the
watchdog (12 R321, R332), stops and saved contexts (R323 to R330). -/
namespace Sys2Proof.Machine

/-! ### Withdrawing a wait (03 R61) -/

/-- The window waits on a condition: a full/empty, landing, mailbox, ring, barrier or residency wait, an unpaired swap, or a
str.save. -/
def Wait.parked : Wait → Bool
  | .fe .. => true
  | .land .. => true
  | .resident .. => true
  | .recv .. => true
  | .pop .. => true
  | .push .. => true
  | .bar .. => true
  | .swap => true
  | .save .. => true
  | _ => false
/-- The window is parked. -/
def Win.parked (w : Win) : Bool := match w.st with
  | .wait x => x.parked
  | _ => false
/-- A wait that a stop or a halt withdraws and records (12 R321, R323; 16 R389): a str.save is none, and its window closes first. -/
def Wait.recorded : Wait → Bool
  | .save .. => false
  | w => w.parked
/-- The window holds such a wait. -/
def Win.recorded (w : Win) : Bool := match w.st with
  | .wait x => x.recorded
  | _ => false
/-- What the wait of window `w` of strand `k` holds outside the strand is taken back. -/
def State.unwait (s : State) (k w : Nat) : Wait → State
  | .fe _ c _ _ _ _ _ _ => s.unlist (oidSp c.o) k w
  | .recv mb _ _ => s.updTile (k / 16) fun t =>
      { t with mbWaits := sput [] t.mbWaits mb ((sget [] t.mbWaits mb).filter fun p => !(p.1 == k && p.2 == w)) }
  | .resident c _ _ _ => s.unlist (oidSp c.o) k w
  | .push .. => s.pushWithdraw k w
  | .swap => (s.cmds.filter fun c => c.key == k && c.win == w).foldl (fun s c => s.cmdGone c) s
  | _ => s
/-- The parked windows of a strand, oldest first. -/
def State.parkedWins (s : State) (k : Nat) : List (Win × Wait) := (s.slot k).wins.filterMap fun w => match w.st with
  | .wait x => if x.parked then some (w, x) else none
  | _ => none
/-- A window withdrawn: it is treated as closed. -/
def State.withdraw (s : State) (k : Nat) (w : Win) (x : Wait) : State :=
  (s.unwait k w.id x).updSlot k fun t => { t with wins := t.wins.filter fun y => y.id != w.id }

/-- tval of WAIT_LIMIT (13 R339); that of a str.save is log 119. -/
def Wait.limitVal : Wait → Nat
  | .fe _ _ off _ _ _ _ _ => off
  | .land _ off _ _ => off
  | .recv mb _ _ => mb
  | .pop c _ _ _ => c.b
  | .push c _ _ => c.b
  | .save _ c _ => c.b
  | _ => 0

/-! ### Closing windows -/

/-- The slot that a str.save names is ready: stopped, its windows closed, its results written (08 R195) and its engine commands complete
(12 R327). -/
def State.saveReady (s : State) (k : Nat) : Bool :=
  let t := s.slot k
  t.stopped && t.wins.isEmpty && t.dfs.isEmpty && !s.cmdsLive k && decide (t.nextAt ≤ s.cycle)

/-- Registers that a result names: kind (0 x, 1 v, 2 c) and number. -/
def Res.dsts (r : Res) : List (Nat × Nat) := r.xs.map (fun p => (0, p.1)) ++ r.vs.map (fun p => (1, p.1)) ++ r.cs.map fun p => (2, p.1)
/-- The result of window `id` without the destinations that a window of a later instruction has written in this cycle (R58), and the
capabilities among them. -/
def Slot.mask (t : Slot) (id now : Nat) (r : Res) : Res × List Cap :=
  let gone (k n : Nat) : Bool := t.closedAt == now + 1 && t.closedDst.any fun d => decide (id < d.1) && d.2 == (k, n)
  ({ r with xs := r.xs.filter fun p => !gone 0 p.1, vs := r.vs.filter fun p => !gone 1 p.1, cs := r.cs.filter fun p => !gone 2 p.1 },
   (r.cs.filter fun p => gone 2 p.1).map (·.2))
/-- Destinations written in a strand's slot when a window closes (03 R56): an old capability is dropped as cdrop drops it. -/
def State.writeRes (s : State) (k : Nat) (r : Res) : State :=
  let s : State := r.cs.foldl (fun s p => (s.returnCap (k / 16) ((s.slot k).getC p.1)).updSlot k (·.setC p.1 p.2)) s
  let s := s.updSlot k fun t =>
    (r.vs.foldl (fun t p => t.setV p.1 p.2) (r.xs.foldl (fun t p => t.setX p.1 p.2) t)).raiseNow r.flags
  if r.acquire then s.l1Discard (k / 16) else s

/-- The window leaves the strand, having written `ds`; the next instruction issues after this cycle (R55). -/
def Slot.closeWin (t : Slot) (id now : Nat) (ds : List (Nat × Nat)) : Slot :=
  { t with wins := t.wins.filter (fun w => w.id != id), nextAt := max t.nextAt (now + 1), closedAt := now + 1,
           closedDst := (if t.closedAt = now + 1 then t.closedDst else []) ++ ds.map fun d => (id, d) }
/-- The window may not close yet: a trap is due, before which the windows write their results in issue order (R60). -/
def Slot.closesLater (t : Slot) (id : Nat) : Bool :=
  (t.sync.isSome || !t.dfs.isEmpty || wdogDue t) && t.wins.head?.any fun w => w.id != id
/-- Closes a window with its results: of two that close in one cycle, that of the later instruction remains (R58), and a capability that the
other brings for the same register is dropped as cdrop drops it. -/
def State.closeOk (s : State) (k : Nat) (w : Win) (r : Res) : State :=
  let pop := bits w.ibits 0 7 == 0x7B && bits w.ibits 22 6 == 29
  let m := (s.slot k).mask w.id s.cycle { r with acquire := r.acquire || pop }
  (m.2.foldl (fun (s : State) c => s.returnCap (k / 16) c) (s.writeRes k m.1)).updSlot k fun t =>
    { t.closeWin w.id s.cycle r.dsts with instret := t.instret + 1 }
/-- Closes a window that has failed: the trap is due, and the counting of the other windows ends (R59, R60). -/
def State.closeBad (s : State) (k : Nat) (w : Win) (cause tval : Nat) : State :=
  s.updSlot k fun t => { (t.closeWin w.id s.cycle []).endCounting with dfs := t.dfs ++ [(w.id, cause, tval, w.addr)] }

/-! ### Save records (12 R328) -/

/-- Effective offset, value operand and capability operand of a recorded wait; 0 where the instruction has none (R328). -/
def Wait.operands : Wait → Nat × Nat × Cap
  | .fe _ c off v _ _ _ _ => (off, v.toNat, c)
  | .land c off g _ => (off, g, c)
  | .resident c _ req _ => (match req with
    | .load ps _ => ((ps.headD (0, 0)).1, 0, c)
    | .store ps => ((ps.headD (0, [])).1, ofBytes ((ps.headD (0, [])).2.take 8), c)
    | .amo _ off _ _ a _ _ => (off, a.toNat, c))
  | .recv .. => (0, 0, .null)
  | .pop c _ _ _ => (0, 0, c)
  | .push c _ _ => (0, 0, c)
  | .bar x _ => (0, x, .null)
  | .save k c _ => (0, k % 16, c)
  | _ => (0, 0, .null)

/-- The wait of a recorded instruction that software has changed or moved, from the operands of its record and, for those that the
record does not hold, the registers of the strand (log 28); and its la field. -/
def rebuild (g : Nat) (t : Slot) (i : Instr) (off val : Nat) (c : Cap) : Option (Nat × Wait) :=
  let v : Word := BitVec.ofNat 64 val
  let res (la : Nat) (r : Req) : Option (Nat × Wait) := some (la, .resident c t.lkey r none)
  let ld (la d n : Nat) (sg : Bool) := res la (.load [(off, n)] (.x d n sg))
  let st (la n : Nat) := res la (.store [(off, toBytes n val)])
  let amo (op la r d : Nat) := res la (.amo op off d r v (t.getX (r + 1)) t.rm)
  let e (o : Nat) : Nat := 2 ^ bits (t.getX (o + 1)).toNat 62 2
  let sts (r n : Nat) (as : List Int) : Req :=
    .store ((List.range as.length).zipWith (fun j a => (a.toNat, vPart (t.getV r) j n)) as)
  match i with
  | .ldFe la _ _ d => some (la, .fe .ld c off 0 d false false 0)
  | .ldFet la _ _ d => some (la, .fe .ldt c off 0 d false false 0)
  | .stFe la _ _ _ => some (la, .fe .st c off v 0 false false 0)
  | .stFeRel la _ _ _ => some (la, .fe .stRel c off v 0 false false 0)
  | .feClr la _ _ => some (la, .fe .clr c off 0 0 false false 0)
  | .feProbe la _ _ d => some (la, .fe .probe c off 0 d false false 0)
  | .landWait la _ _ r => some (la, .land c off val r)
  | .mbRecv la a mb d => some (la, .recv mb a d)
  | .rgPop la _ j d => some (la, .pop c (t.getC d) j t.lkey)
  | .barWait la _ _ d => some (la, .bar val d)
  | .strSave la _ _ => some (la, .save (g * 16 + val % 16) c t.lkey)
  | .ldB la _ _ d => ld la d 1 true
  | .ldH la _ _ d => ld la d 2 true
  | .ldW la _ _ d => ld la d 4 true
  | .ldD la _ _ d => ld la d 8 true
  | .ldBu la _ _ d => ld la d 1 false
  | .ldHu la _ _ d => ld la d 2 false
  | .ldWu la _ _ d => ld la d 4 false
  | .stB la _ _ _ => st la 1
  | .stH la _ _ _ => st la 2
  | .stW la _ _ _ => st la 4
  | .stD la _ _ _ => st la 8
  | .vld la _ _ d => res la (.load [(off, 128)] (.v d))
  | .vst la _ _ r => res la (.store [(off, vBytes (t.getV r))])
  | .vlds la _ o d => res la (.load ((strided c (t.getX o).toNat (t.getX (o + 1)).toNat).map fun a => (a.toNat, e o)) (.v d))
  | .vsts la _ o r => res la (sts r (e o) (strided c (t.getX o).toNat (t.getX (o + 1)).toNat))
  | .vldx la _ o d => res la (.load ((indexed c (t.getV o)).map fun a => (a.toNat, 4)) (.v d))
  | .vstx la _ o r => res la (sts r 4 (indexed c (t.getV o)))
  | .vldt la _ _ d => res la (.load ((List.range 128).map fun j => (off + 128 * j, 1)) (.v d))
  | .amoAdd la _ r d => amo 0 la r d
  | .amoAnd la _ r d => amo 1 la r d
  | .amoOr la _ r d => amo 2 la r d
  | .amoXor la _ r d => amo 3 la r d
  | .amoMin la _ r d => amo 4 la r d
  | .amoMax la _ r d => amo 5 la r d
  | .amoMinu la _ r d => amo 6 la r d
  | .amoMaxu la _ r d => amo 7 la r d
  | .amoSwap la _ r d => amo 8 la r d
  | .amoCas la _ r d => amo 9 la r d
  | .amoFadd la _ r d => amo 10 la r d
  | .amoEnq la _ r d => amo 11 la r d
  | .amoDeq la _ r d => amo 12 la r d
  | _ => none

/-- Bytes of a vector file (05 R118). -/
def Tile.vfile (t : Tile) : Nat := if t.v32 then 4096 else 2048
/-- Flat address of a save capability's base. -/
def State.saveAt (s : State) (c : Cap) : Nat := flat (oidSp c.o) ((s.entry c.o).base + c.b)
/-- A recorded wait as 32 bytes. -/
def RecWait.bytes (r : RecWait) : List Byte :=
  let o := r.w.operands
  toBytes 4 r.ibits ++ toBytes 2 r.addr ++ toBytes 2 (r.issued % 16) ++ toBytes 8 o.1 ++ toBytes 8 o.2.1 ++ toBytes 8 (r.lim.getD 0)

/-- The bytes of a save record, capability bytes as zeros. -/
def saveBytes (T : Tile) (t : Slot) (loans : Nat) : List Byte :=
  let w (x : Word) : List Byte := toBytes 8 x.toNat
  let waits := t.recs.take 4
  toBytes 8 (T.runid * 2 ^ 32 + 2 ^ 24 + b2n (t.occ == .codelet) * 2 ^ 23 + b2n T.v32 * 2 ^ 22 + t.mode.code % 4 * 2 ^ 20
      + waits.length * 2 ^ 16 + t.pc.toNat % 2 ^ 16)
    ++ (List.range' 1 15).flatMap (fun n => w (t.getX n))
    ++ [t.fmode, t.mxcfg, t.wlim, t.lkey, t.rptc, t.instret, t.wdog, t.tvec, t.trpc, t.tcause, t.tval, t.tstat, t.tscratch].flatMap w
    ++ toBytes 8 (t.merr % 256 * 2 ^ 24 + t.refusal % 256 * 2 ^ 16 + loans) ++ w t.tie ++ w t.tip
    ++ (List.range' 1 7).flatMap (fun n => toBytes 16 (t.getM n).toNat) ++ List.replicate 16 0
    ++ waits.flatMap RecWait.bytes ++ List.replicate (128 - 32 * waits.length) 0
    ++ List.replicate 512 0 ++ (List.range (T.vfile / 128)).flatMap (fun n => vBytes (t.getV n))

/-- The capabilities of a save record with their offsets. -/
def saveCaps (t : Slot) : List (Nat × Cap) :=
  (List.range' 1 14).map (fun n => (0x200 + 16 * (n - 1), sget .null t.c n)) ++ [(0x2E0, sget .null t.c 15), (0x2F0, t.c15s)]
    ++ (List.range 4).zipWith (fun i r => (0x300 + 16 * i, r.w.operands.2.2)) (t.recs.take 4)

/-- Owner of the loans of a strand that is saved out of its slot. -/
def savedKey : Nat := 2 ^ 20
/-- The loans of strand `k` as a mask, and passed to owner `k'`. -/
def State.loansOf (s : State) (k : Nat) : Nat :=
  (List.range 16).foldl (fun m i => if (s.slot (k / 16 * 16 + i)).occ = .lent k then m + 2 ^ i else m) 0
def State.passLoans (s : State) (g mask k : Nat) : State :=
  s.forSlots g (fun i t => match t.occ with
    | .lent _ => if tbit mask i then { t with occ := .lent k } else t
    | _ => t) 16

/-- The stopped strand of slot `k` saved at capability `c` (R327). -/
def State.saveNow (s : State) (k : Nat) (c : Cap) : State :=
  let g := k / 16
  let s := s.mbReleaseAll k 8
  let t0 := s.slot k
  let t := if t0.mode = .d then t0.leaveD else t0
  let a := s.saveAt c
  let loans := s.loansOf k
  let s := s.passLoans g loans savedKey
  let s := { s with mem := mwrite s.mem a (saveBytes (s.tile g) t loans),
                    marks := sput 0 s.marks (a + 0x200) saveMark,
                    mcaps := (saveCaps t).foldl (fun (m : SMap Cap) (p : Nat × Cap) => sput Cap.null m (a + p.1) p.2) s.mcaps,
                    saved := sput {} s.saved a
                      { occ := t.occ, cls := t.cls, pc := t.pc, hold := t.hold, recs := t.recs, rptLive := t.rptLive, desc := t.desc,
                        args := t.args, nrSeen := t.nrSeen, skip := t.skip, skipS := t.skipS, mflags := t.mflags, badv := t.badv,
                        startFault := t.startFault, noTrig := t.noTrig, wdDue := t.wdDue, wdr := t.wdr, wdAddr := t.wdAddr } }
  State.settle ((s.clearBad c.o (s.entry c.o) c.b (0x400 + (s.tile g).vfile)).updSlot k fun t => t.vacated s.cycle)

/-- The str.save of window `w` of strand `k` for slot `j`, which is ready: the port checks the save object, and the record is
written (R327). -/
def State.saveStep (s : State) (k w j : Nat) (c : Cap) (lkey : Word) : State :=
  match s.check18 c (k / 16) lkey true with
  | some f => (s.noteRefusal (k / 16) c.o f).endWin k w (.fail f.1 f.2)
  | none =>
    if (s.refusedWrite c.o (s.entry c.o) c.b (0x400 + (s.tile (k / 16)).vfile)).isSome then s.endWin k w (.fail cCAP_RIGHTS c.o)
    else (s.saveNow j c).endWin k w (.done {})

/-- LOOKAHEAD_WINDOW_CLOSE (03 R55, R56): window w of strand k closes; an mx.wait looks for a pending matrix error (09 R246), and a
key.end takes its steps 2 to 5, which wait neither for counted instructions nor for older windows: its window closes at once where it can
(14 R360). -/
def execLookaheadWindowClose (k w : Nat) (s : State) : Out :=
  match (s.slot k).wins.find? fun x => x.id == w with
  | none => .fault .notDue
  | some x =>
    let later := (0 < x.left && x.counting) || s.cycle < x.wAt || (s.slot k).closesLater w
    match x.st with
    | .wait (.keyEnd key st d) =>
      if if st = 0 then s.keyBusy key else (s.key key).st == .ending then .fault .notDue
      else
        let s := if st = 0 then s.keyFinish key else s
        let r : Res := { xs := [(d, BitVec.ofNat 64 st)] }
        .next (if later then s.endWin k w (.done r) else s.closeOk k x r)
    | y =>
    if later then .fault .notDue
    else match y with
    | .done r => .next (s.closeOk k x r)
    | .fail c v => .next (s.closeBad k x c v)
    | .wait (.mxIdle upto d fl) =>
      if s.cmds.any (fun c => c.key == k && c.mx && decide (c.id < upto)) then .fault .notDue
      else
        let e := (s.slot k).merr
        if e ≠ 0 then .next ((s.updSlot k fun t => { t with merr := 0 }).closeBad k x cENGINE e)
        else .next (s.closeOk k x { xs := [(d, BitVec.ofNat 64 fl)] })
    | .wait (.sepOut c bs) =>
      .next ({ s with mem := mwrite s.mem (flat (oidSp c.o) c.b) bs }.closeOk k x {})
    | .wait _ => .fault .notDue

/-! ### Traps (13 R336, R338) -/

/-- The channel of the debugger's answers: code 0 done, 2 no such register, 3 exception, 4 not halted (log 30). -/
def chDebug : Nat := 49

/-- The highest pending and enabled interrupt (R338). -/
def irqCode (t : Slot) : Nat :=
  let p := (t.tie &&& t.tip).toNat
  if tbit p 4 then 4 else if tbit p 3 then 3 else if tbit p 2 then 2 else 1
/-- The oldest window of those that have failed. -/
def oldestFault (ds : List (Nat × Nat × Nat × Nat)) : Option (Nat × Nat × Nat × Nat) :=
  ds.foldl (fun m d => match m with
    | none => some d
    | some x => if d.1 < x.1 then some d else some x) none
/-- The cause that a strand takes at its boundary (R338); none when nothing is due. A deferred fault whose window closes after a stop took
effect is taken in the Halted slot (log 110). -/
def trapOf (t : Slot) : Option Trap :=
  match oldestFault t.dfs with
  | some (_, c, v, a) => some { cause := c, tval := v, dfr := true, daddr := a, multi := 1 < t.dfs.length }
  | none =>
    match t.sync with
    | some (c, v) => some { cause := c, tval := v }
    | none =>
      if t.stopped || t.halted || t.mode = .d then none
      else if wdogDue t then some { cause := cWATCHDOG, tval := if t.wdr then t.wdAddr else 0, wdr := t.wdr }
      else if t.stopReq || t.haltReq ≠ 0 || !irqDue t then none
      else some { cause := irqCode t, tval := if irqCode t = 3 then t.evset else 0, irq := true }

/-- TRAP_ENTRY (R336): every window of strand k has closed, the results of its last instruction are written (08 R196), and a trap is due. One of D mode
ends the program in progress and is reported to the debugger (03 R62). -/
def execTrapEntry (k : Nat) (s : State) : Out :=
  let t := s.slot k
  if t.occ = .empty || !t.wins.isEmpty || s.cycle < t.nextAt || s.frozen k then .fault .notDue
  else match trapOf t with
  | none => .fault .notDue
  | some p =>
    let s := s.updSlot k fun u =>
      let u := if p.irq && p.cause = 3 then { u with evset := 0 } else u
      if p.cause = cWATCHDOG && !p.irq && !p.dfr then { u with wdDue := false, wdr := false, wdAddr := 0 } else u
    .next (if t.mode = .d then
        (s.updSlot k fun t => { t with dErr := some (p.cause, p.tval), pbPos := none, dfs := [], sync := none }).answer chDebug 3
      else s.enterTrap k p)

/-! ### Expiries (12 R321, R332; 13 R342) -/

/-- WATCHDOG_EXPIRY (R332): WATCHDOG is due; once it may be taken, which it may not in a single step (16 R392), the parked waits are withdrawn, and a WFI ends (03 R61, R74). -/
def execWatchdogExpiry (k : Nat) (s : State) : Out :=
  let t := s.slot k
  let ws := s.parkedWins k
  if t.stopped || t.halted || s.frozen k || (!t.wdPend && !(t.wdDue && !t.held && !t.stepping && (!ws.isEmpty || t.parkedAt))) then .fault .notDue
  else
    let s := s.updSlot k fun t => { t with wdPend := false, wdDue := true }
    if t.held || t.stepping then .next s
    else
      let s : State := ws.foldl (fun s p => s.withdraw k p.1 p.2) s
      let s := match ws with
        | [] => s
        | (w, _) :: _ => s.updSlot k fun t => { t with wdr := true, wdAddr := w.addr }
      .next (s.updSlot k fun t => match t.hold with
        | some ⟨.wfi, _, _⟩ => (t.unpark s.cycle).endCounting
        | some ⟨.barLead _ _, _, _⟩ =>
          { t.endCounting with hold := none, wdAddr := if t.wdr then t.wdAddr else t.pc.toNat, wdr := true }
        | _ => t.endCounting)

/-- The window's limit has run out while its wait is still pending. -/
def Win.expired (w : Win) : Bool := w.lim == some 0 && w.parked

/-- WAIT_LIMIT_EXPIRY (R321): a parked wait of strand k is withdrawn with a deferred WAIT_LIMIT; window 0: the bar.arr at the pc,
which takes it precisely (R317). -/
def execWaitLimitExpiry (k w : Nat) (s : State) : Out :=
  let t := s.slot k
  if t.wdPend || s.frozen k then .fault .notDue
  else if w = 0 then
    (match t.hold with
    | some ⟨.barLead x _, some 0, _⟩ => .next ({ s with cur := k }.raise cWAIT_LIMIT (barId x))
    | _ => .fault .notDue)
  else match t.wins.find? fun x => x.id == w with
  | none => .fault .notDue
  | some x => match x.st with
    | .wait (.bar ..) => .fault .notDue
    | .wait y => if x.expired then .next ((s.unwait k w y).endWin k w (.fail cWAIT_LIMIT y.limitVal)) else .fault .notDue
    | _ => .fault .notDue

/-- BAR_WAIT_LIMIT_EXPIRY (R319): the bar.wait returns 1. -/
def execBarWaitLimitExpiry (k w : Nat) (s : State) : Out :=
  match (s.slot k).wins.find? fun x => x.id == w with
  | none => .fault .notDue
  | some x => match x.st with
    | .wait (.bar _ d) =>
      if x.lim == some 0 && !(s.slot k).wdPend && !s.frozen k then .next (s.endWin k w (.done { xs := [(d, 1)] })) else .fault .notDue
    | _ => .fault .notDue

/-- TIMER_EXPIRY (13 R342): tip.tm is set. -/
def execTimerExpiry (k : Nat) (s : State) : Out :=
  if (s.slot k).tmDue && !s.frozen k then .next (s.updSlot k fun t => { t with tmDue := false }.setTip 1) else .fault .notDue

/-- WFI's condition holds in a slot parked by it (03 R74). -/
def Slot.wfiEnds (t : Slot) : Bool := !t.stopped && !t.halted && wfiOver t && (match t.hold with
  | some ⟨.wfi, _, _⟩ => true
  | _ => false)

/-- WAIT_LIST_RETRY (01 R16, 05 R125): a request that found its port's list full is sent again. -/
def execWaitListRetry (k w : Nat) (s : State) : Out :=
  match (s.slot k).wins.find? fun x => x.id == w with
  | none => .fault .notDue
  | some x => match x.st with
    | .wait (.fe _ _ _ _ _ false false upto) =>
      if upto ≠ 0 || s.cycle < x.retryAt || x.retryAt = 0 then .fault .notDue else .next (s.feArrive k w)
    | .wait (.resident c lkey req (some at_)) =>
      if s.cycle < at_ then .fault .notDue else let q := s.request k c lkey req (some w); .next (q.1.endWin k w q.2)
    | _ => .fault .notDue

/-! ### Stops (R323) -/

/-- The window of an accepted engine command, or of a key.end (14 R360), which does not delay a stop. -/
def State.cmdWin (s : State) (k : Nat) (w : Win) : Bool := (match w.st with
    | .wait (.keyEnd ..) => true
    | _ => false) || s.cmds.any fun c => c.key == k && c.win == w.id
/-- The stop of slot `k` can take effect: every window has closed but those of R323's two exceptions, every result is written (08
R196), and no fault is due. -/
def State.atBoundary (s : State) (k : Nat) : Bool :=
  let t := s.slot k
  t.wins.all (fun w => s.cmdWin k w || w.recorded) && decide (t.nextAt ≤ s.cycle) && t.dfs.isEmpty && t.sync.isNone && !wdogDue t
    && !t.wdPend
/-- Parked windows withdrawn and recorded, with `all` those of engine commands that wait on a condition too (16 R389); the counting of the
others ends. -/
def State.parkRecord (s : State) (k : Nat) (all : Bool) : State :=
  let ws := (s.parkedWins k).filter fun p => p.2.recorded && (all || !s.cmdWin k p.1)
  let rs : List RecWait := ws.map fun p =>
    ⟨p.1.addr, p.1.ibits, p.1.issued, p.1.left, p.2, p.1.lim, s.cmds.find? fun c => c.key == k && c.win == p.1.id⟩
  let s : State := ws.foldl (fun s p => s.withdraw k p.1 p.2) s
  s.updSlot k fun t => { t.endCounting with recs := t.recs ++ rs }

/-- STOP_TAKES_EFFECT (R323). A bar.arr parked beyond the lead, or a WFI, stays at the pc with its operands and its remaining limit:
it is posted again at str.go. -/
def execStopTakesEffect (k : Nat) (s : State) : Out :=
  let t := s.slot k
  if !t.stopReq || !s.atBoundary k || t.mode = .d then .fault .notDue
  else
    let s := if t.restartable then s.cbufFlush k else s
    .next ((s.parkRecord k false).updSlot k fun t =>
      { t with stopReq := false, stopped := true, hold := if t.parkedAt then t.hold else none })

/-- The command of a recorded push or swap goes back to its engine for window `w` (16 R389): a push with the bytes that it has read, to
reserve its slot anew; a swap at the end of the queue. -/
def State.repostCmd (s : State) (k w : Nat) (c : Cmd) : State :=
  let op := match c.op with
    | .push ring src d wl data _ => .push ring src d wl data none
    | o => o
  { s with nextId := s.nextId + 1, cmds := s.cmds ++ [{ c with id := s.nextId, key := k, win := w, op := op }] }
/-- A recorded wait posted again (R330). -/
def State.repost1 (s : State) (k : Nat) (r : RecWait) : State :=
  let w := (s.slot k).nextWid
  let lim := r.lim
  let win : Win := { id := w, addr := r.addr, ibits := r.ibits, left := r.left, issued := r.issued, wAt := s.cycle, st := .wait r.w,
                     lim := lim, post := s.tick }
  let s := s.updSlot k fun t => { t with wins := t.wins ++ [win], nextWid := w + 1 }
  match r.w with
  | .fe .. => s.feSend k w
  | .land .. => s.settle
  | .resident c lkey req _ => let q := s.request k c lkey req (some w); q.1.endWin k w q.2
  | .recv mb _ _ =>
    let s := s.updTile (k / 16) fun t => { t with mbWaits := sput [] t.mbWaits mb (sget [] t.mbWaits mb ++ [(k, w)]) }
    s.mbServe (k / 16) mb (sget [] (s.tile (k / 16)).mbWaits mb)
  | .pop c dst i lkey => s.popServe (s.ringAddr c) [(k, w, c, dst, i, lkey)]
  | .push .. => (match r.cmd with
    | some c => (s.repostCmd k w c).endWin k w (.wait (.cmd s.nextId))
    | none => s)
  | .swap => (match r.cmd with
    | some c => s.repostCmd k w c
    | none => s)
  | .bar x _ => match s.barOf (k / 16) (barId x) with
    | some (key, _) => s.barServe key
    | none => s
  | _ => s
/-- A bar.arr that is parked at the pc is posted again; with an id that is invalid now it executes anew. -/
def State.repostBar (s : State) (k : Nat) : State := match (s.slot k).hold with
  | some ⟨.barLead x _, _, _⟩ => (match s.barOf (k / 16) (barId x) with
    | some (key, _) => s.barServe key
    | none => s.updSlot k fun t => { t with hold := none })
  | _ => s
/-- The slot is neither stopped nor halted any more: its waits are posted again in their order; the tick of reposting is not
counted (R321). -/
def State.repost (s : State) (k : Nat) : State :=
  let t := s.slot k
  if t.stopped || t.halted then s
  else
    let s := s.updSlot k fun t =>
      { t with recs := [], nextAt := max t.nextAt (s.cycle + 1), hold := t.hold.map fun h => { h with post := s.tick } }
    (t.recs.foldl (fun s r => s.repost1 k r) s).repostBar k

/-! ### The instructions (R324 to R330) -/

/-- Runs `f` with the slot operand, in S (R324). -/
def slotOp (i : Instr) (a : Nat) (s : State) (f : Nat → Out) : Out :=
  if s.me.mode = .u then s.modeFault i
  else
    let n := s.xn a
    if 16 ≤ n || s.gta * 16 + n = s.cur then s.engine 50 else f (s.gta * 16 + n)
/-- The slot holds a strand. -/
def Slot.holds (t : Slot) : Bool := t.occ == .persistent || t.occ == .codelet

/-- STR_STOP (R326). -/
def execStrStop (a : Nat) (s : State) : Out :=
  slotOp (.strStop a) a s fun k =>
    (s.updSlot k fun t =>
      if !t.holds || t.stopped then t else if t.halted then { t with stopped := true } else { t.endCounting with stopReq := true }).finish id

/-- Checks of a save capability (R325). -/
def State.saveCapOk (s : State) (c : Cap) : Bool :=
  c.has rR && c.has rW && isOwn s.gta c.o && c.b % 64 == 0 && decide (0x400 + (s.tile s.gta).vfile ≤ c.l)

/-- STR_SAVE (R327). -/
def execStrSave (la a b : Nat) (s : State) : Out :=
  slotOp (.strSave la a b) a s fun k => mxInstr s fun s =>
    let c := s.c b
    if !(s.slot k).holds then s.engine 51
    else checked (notNull c b) s fun _ =>
      if !s.saveCapOk c then s.engine 52
      else .next (s.openW la (.strSave la a b) (.wait (.save k c s.me.lkey)) (limit s.me.wlim))

/-- A save record at flat address `a` is valid for slot `k` (R325, code 53); its bytes alone count, so that a byte copy of a record
loads, with null capabilities (R328). A mode of 2 or 3, more than four recorded waits and a spare slot are refused too (log 109). -/
def State.recordOk (s : State) (a k : Nat) : Bool :=
  let T := s.tile (k / 16)
  let h := mnat s.mem a 8
  let i := k % 16
  tbit h 24 && bits h 25 7 == 0 && tbit h 22 == T.v32 && bits h 20 2 < 2 && bits h 16 4 ≤ 4 && mnat s.mem (a + 0xEC) 4 == 0
    && (if tbit h 23 then decide (T.pers ≤ i) && decide (i < T.pers + T.cdl) else decide (i < T.pers))

/-- The slot as its record and what is kept beside it give it. The reserved bits of every register read 0 (00 R5), and a rounding
mode 5, 6 or 7 of the record leaves RNE (log 93). A recorded wait has its operands as captured at issue (R323) while its record is
as str.save wrote it; one that software has made takes those that its record does not hold from the registers loaded (log 28). -/
def State.loadSlot (s : State) (a k : Nat) : Slot :=
  let T := s.tile (k / 16)
  let m (o : Nat) : Nat := mnat s.mem (a + o) 8
  let w (o : Nat) : Word := BitVec.ofNat 64 (m o)
  let cap (o : Nat) : Cap := sget .null s.mcaps (a + o)
  let h := m 0
  let kept := sget {} s.saved a
  let old := s.slot k
  let t : Slot :=
    { kept with
      occ := if tbit h 23 then .codelet else .persistent
      stopped := true
      mode := if bits h 20 2 = 1 then .s else .u
      pc := BitVec.ofNat 64 (bits h 0 16)
      x := (List.range' 1 15).foldl (fun r n => sput 0 r n (w (8 * n))) []
      c := sput .null ((List.range' 1 14).foldl (fun r n => sput .null r n (cap (0x200 + 16 * (n - 1)))) []) 15 (cap 0x2E0)
      c15s := cap 0x2F0
      m := (List.range' 1 7).foldl (fun r n => sput 0 r n (BitVec.ofNat 128 (mnat s.mem (a + 0x100 + 16 * (n - 1)) 16))) []
      v := (List.range (T.vfile / 128)).foldl (fun r n => sput 0 r n (BitVec.ofNat 1024 (mnat s.mem (a + 0x400 + 128 * n) 128))) []
      fmode := fmodeWrite 0 (w 0x80), mxcfg := mxcfgWrite 0 (w 0x88), wlim := w 0x90, lkey := w 0x98, rptc := rptcWrite 0 (w 0xA0)
      instret := w 0xA8, wdog := w 0xB0, tvec := masked 0x1FFFFF 0 (w 0xB8), trpc := w 0xC0, tcause := w 0xC8, tval := w 0xD0
      tstat := tstatWrite 0 (w 0xD8), tscratch := w 0xE0
      merr := bits (m 0xE8) 24 8
      refusal := bits (m 0xE8) 16 8
      tie := masked 0xFF001E 0 (w 0xF0)
      tip := masked 0xFFFFFFFF0000001E 0 (w 0xF8)
      cls := if kept.occ = .empty then T.cls else kept.cls
      hold := if kept.pc.toNat % 2 ^ 16 = bits h 0 16 then kept.hold else none
      rptLive := if kept.occ = .empty then tbit (m 0xA0) 47 && bits h 20 2 == 0 else kept.rptLive
      nextWid := old.nextWid
      wasFree := old.wasFree
      dcsr := old.dcsr, dpc := old.dpc, dscratch0 := old.dscratch0
      nextAt := s.cycle + 1, wdPost := s.tick, tdPost := s.tick }
  { t with recs := (List.range (bits h 16 4)).filterMap fun j =>
      let o := 0x180 + 32 * j
      let ib := mnat s.mem (a + o) 4
      match kept.recs[j]?.filter fun r => r.bytes == mbytes s.mem (a + o) 32 && r.w.operands.2.2 == cap (0x300 + 16 * j) with
      | some r => some r
      | none => match decode ib with
        | .ok i => (rebuild (k / 16) t i (m (o + 8)) (m (o + 16)) (cap (0x300 + 16 * j))).map fun p =>
            { addr := mnat s.mem (a + o + 4) 2, ibits := ib, issued := bits (m o) 48 4, left := p.1 - bits (m o) 48 4, w := p.2
              lim := if m (o + 24) = 0 then none else some (m (o + 24)) }
        | .error _ => none }

/-- STR_LOAD (R329); the order of its checks is log 69. -/
def execStrLoad (la a b : Nat) (s : State) : Out :=
  slotOp (.strLoad la a b) a s fun k => mxInstr s fun s =>
    let c := s.c b
    let i : Instr := .strLoad la a b
    if (s.slot k).occ ≠ .empty then s.engine 54
    else checked (notNull c b) s fun _ =>
      if !s.saveCapOk c then s.engine 52
      else match s.check18 c s.gta s.me.lkey true with
      | some f => .next ((s.noteRefusal s.gta c.o f).openW la i (.fail f.1 f.2))
      | none =>
        let p := s.saveAt c
        let bad := s.badIn c.o (s.entry c.o) c.b (0x400 + (s.tile s.gta).vfile)
        if bad ≠ 0 then .next ((s.poisonObj c.o).openW la i (.fail (if bad = 2 then cINTEGRITY else cCAP_POISON) c.o))
        else if !s.recordOk p k then .next (s.openW la i (.fail cENGINE 53))
        else
          let t := s.loadSlot p k
          let loans := bits (mnat s.mem (p + 0xE8) 8) 0 16
          let s := s.putSlot k t
          let s := (s.passLoans s.gta loans k)
          let s := { s with mem := mset s.mem (p + 3) 0, marks := sput 0 s.marks (p + 0x200) 0,
                            mcaps := s.mcaps.filter (fun q => !(decide (p + 0x200 ≤ q.1) && decide (q.1 < p + 0x340))),
                            saved := sput {} s.saved p {} }
          .next (s.settle.openW la i (.done {}))

/-- STR_GO (R330). -/
def execStrGo (a : Nat) (s : State) : Out :=
  slotOp (.strGo a) a s fun k =>
    if !(s.slot k).stopped then s.finish id
    else ((s.updSlot k fun t => { t with stopped := false }).repost k).finish id

end Sys2Proof.Machine
end

