-- ==== Sys2Proof/Machine/Debug.lean ====
section
/-! DEFINITION. The debug module (16 R389 to R395): stops, resumes, abstract commands and the program buffer; the trace encoder
(R396, R397). -/
namespace Sys2Proof.Machine

/-! ### Stops and resumes (R389, R390) -/

/-- A halt of slot `k` is asked for; one that is already asked for keeps its cause. The counting of its windows ends (03 R55). -/
def Slot.askHalt (t : Slot) (why : Nat) : Slot :=
  if !t.holds || t.halted || t.haltReq ≠ 0 then t else { t.endCounting with haltReq := why }
/-- HALT_REQUEST (R389). -/
def execHaltRequest (k : Nat) (s : State) : Out :=
  if 65536 ≤ k then .fault .noSuchUnit else .next (s.updSlot k (·.askHalt 3))

/-- The halt of slot `k` can take effect: every window has closed but parked ones, which are withdrawn and recorded (R389). -/
def State.haltReady (s : State) (k : Nat) : Bool :=
  let t := s.slot k
  t.wins.all Win.recorded && decide (t.nextAt ≤ s.cycle) && t.dfs.isEmpty && t.sync.isNone && (t.stopped || (!wdogDue t && !t.wdPend))
/-- DEBUG_HALT (R389): the slot enters D mode. A restartable codelet first writes its commit buffer out, as at a stop (12 R323). -/
def execDebugHalt (k : Nat) (s : State) : Out :=
  let t := s.slot k
  if t.haltReq = 0 || t.halted || !s.haltReady k then .fault .notDue
  else
    let s := if t.restartable then s.cbufFlush k else s
    .next ((s.parkRecord k true).updSlot k fun u => u.enterD t.haltReq (s.tile (k / 16)).tstop)

/-- TILE_STOP (R389, R390): every slot is asked to halt, the dispatcher stops and the port holds operations. -/
def execTileStop (g : Nat) (s : State) : Out :=
  if 4096 ≤ g then .fault .noSuchUnit
  else .next ((s.updTile g fun t => { t with tstop := true }).forSlots g (fun _ t => t.askHalt 5) 16)

/-- Slot `k` leaves D mode; its recorded waits are posted again unless str.stop holds it too (R389). -/
def State.resumeSlot (s : State) (k : Nat) : State := (s.updSlot k (·.leaveD)).repost k
/-- A held operation applied (R390). -/
def State.applyHeld (s : State) (g : Nat) : Held → State
  | .fe k w => s.feArrive k w
  | .land a n _ => s.landCountNow a n
  | .ifetch j id => s.ovEnd g j id true
  | .vis mb _ => s.visAdvance g mb
/-- TILE_RESUME (R390): the held operations are applied in arrival order before any slot issues; the slots whose halt was part of
the tile stop leave D mode. -/
def execTileResume (g : Nat) (s : State) : Out :=
  if !(s.tile g).tstop then .fault .notDue
  else
    let q := sget [] s.stopq g
    let s := { s with stopq := sput [] s.stopq g [] }.updTile g fun t => { t with tstop := false }
    let s : State := q.foldl (fun s h => s.applyHeld g h) s
    .next ((List.range 16).foldl (fun (s : State) i =>
      let t := s.slot (g * 16 + i)
      if t.halted && tbit t.dcsr.toNat 12 then s.resumeSlot (g * 16 + i)
      else if t.haltReq = 5 then s.updSlot (g * 16 + i) fun t => { t with haltReq := 0 } else s) s)

/-- DEBUG_RESUME (R389, R392). -/
def execDebugResume (k : Nat) (s : State) : Out :=
  if (s.slot k).halted then .next ((s.resumeSlot k).answer chDebug 0) else .next (s.answer chDebug 4)

/-- DRET: leave D (03 R74); legal in D. -/
def execDret (s : State) : Out :=
  match s.me.mode with
  | .d => .next ((s.upd (·.issued 8 s.cycle)).resumeSlot s.cur)
  | .u => s.modeFault .dret
  | .s => s.modeFault .dret
  | .m => s.modeFault .dret

/-! ### Abstract commands and the program buffer -/

/-- ACCESS_REGISTER: register numbers below 0x1000 are CSRs and 0x1000 + n is x[n]; 0x10020 + j is word j of the program buffer
(log 30). -/
def execAccessRegister (k reg wr v : Nat) (s : State) : Out :=
  let g := k / 16
  let s0 := { s with cur := k }
  let w : Word := BitVec.ofNat 64 v
  let back (s : State) (x : Word) : Out := .next (s.answer chDebug 0 (toBytes 8 x.toNat))
  if 65536 ≤ k then .fault .noSuchUnit
  else if 0x10020 ≤ reg && reg < 0x10028 then
    let j := reg - 0x10020
    if wr = 0 then back s (BitVec.ofNat 64 (sget 0 (s.tile g).pbuf j))
    else .next ((s.updTile g fun t => { t with pbuf := sput 0 t.pbuf j (v % 2 ^ 32) }).answer chDebug 0)
  else if !(s.slot k).halted then .next (s.answer chDebug 4)
  else if reg < 0x1000 then
    if (csrAccess reg).isNone then .next (s.answer chDebug 2)
    else if wr = 0 then back s (csrRead s0 reg)
    else .next (({ csrWrite s0 reg w with cur := s.cur } : State).answer chDebug 0)
  else if reg < 0x1010 then
    if wr = 0 then back s ((s.slot k).getX (reg - 0x1000))
    else .next ((s.updSlot k (·.setX (reg - 0x1000) w)).answer chDebug 0)
  else .next (s.answer chDebug 2)

/-- PROGRAM_BUFFER_EXECUTE (03 R62): the halted slot runs the eight words of its tile's program buffer in D mode. -/
def execProgramBufferExecute (k : Nat) (s : State) : Out :=
  let t := s.slot k
  if !t.halted then .next (s.answer chDebug 4)
  else if t.pbPos.isSome then .fault .notDue
  else .next (s.updSlot k fun t => { t with pbPos := some 0, dErr := none })

/-! ### The trace encoder (R396, R397) -/

/-- The state of a slot as the encoder shows it: 0 running, 1 waiting on a message, 2 on memory, 3 idle (R396). A str.save shows 2, and the
oldest parked window that holds the strand decides (log 120). -/
def Slot.traceSt (t : Slot) : Nat :=
  if !t.holds || t.stopped || t.halted then 3
  else match t.hold with
  | some ⟨.wfi, _, _⟩ => 3
  | some ⟨.barLead _ _, _, _⟩ => 1
  | _ => match t.wins.find? fun w => w.parked && (w.left == 0 || !w.counting) with
    | some w => (match w.st with
      | .wait (.recv ..) => 1
      | .wait (.pop ..) => 1
      | .wait (.push ..) => 1
      | .wait (.bar ..) => 1
      | _ => 2)
    | none => 0

/-- The state of strand `k` as the encoder shows it; every slot of a world in ERROR is halted (14 R363). -/
def State.traceSt (s : State) (k : Nat) : Nat := if s.frozen k then 3 else (s.slot k).traceSt
/-- The states of the slots of tile `g`. -/
def State.traceNow (s : State) (g : Nat) : SMap Nat :=
  (List.range 16).foldl (fun m i => sput 3 m i (s.traceSt (g * 16 + i))) []

/-- A record joins the encoder's buffer of 64, or is lost and counted. -/
def Tile.traceOne (t : Tile) (tick slot st kind info : Nat) : Tile :=
  let delta := if t.trTick = 0 || kind = 2 then 0 else tick + 1 - t.trTick
  if 64 ≤ t.trBuf.length then { t with trLost := t.trLost + 1 }
  else { t with trBuf := t.trBuf ++ [BitVec.ofNat 64 (delta * 2 ^ 48 + slot * 2 ^ 44 + st * 2 ^ 42 + kind * 2 ^ 40 + info % 2 ^ 40)],
                trTick := tick + 1 }
/-- The same, with the record of absolute time that goes before it where R396 asks for one. -/
def Tile.trace (t : Tile) (tick slot st kind info : Nat) : Tile :=
  let t := if t.trTick = 0 || 0xFFFF < tick + 1 - t.trTick then t.traceOne tick 0 0 2 tick else t
  t.traceOne tick slot st kind info
/-- The state changes of tile `g` since its last records, in slot order. -/
def State.traceStates (s : State) (g : Nat) : State :=
  if !(tbit (s.tile g).trctl 0 && tbit (s.tile g).trctl 2) then s
  else (List.range 16).foldl (fun (s : State) i =>
    let v := s.traceSt (g * 16 + i)
    if sget 3 (s.tile g).trState i = v then s
    else s.updTile g fun t => { t.trace s.tick i v 0 0 with trState := sput 3 t.trState i v }) s

/-- The trace object takes writes from tile `g`: an HBM object of its world, whose key has not been ended (R397, 04 R87; log 117). -/
def State.traceOpen (s : State) (g o : Nat) : Bool :=
  let e := s.entry o
  oidPort o == 68 && e.valid && !e.poison && !e.bad && !s.keyEnded e.keyid && !s.foreign g o
/-- Where the next record goes: the write offset, or the object's first byte where the record would cross its end (R397; log 117). -/
def State.traceAt (s : State) (g : Nat) : Nat :=
  let T := s.tile g
  if (s.entry (T.trobj / 2 ^ 36)).len < T.trobj % 2 ^ 36 + 8 then 0 else T.trobj % 2 ^ 36
/-- The oldest record of the buffer written at the write offset, which wraps at the object's length; a record that meets a granule that is
not resident waits, and one that no object of less than 8 bytes can take is lost. At most as many as the first argument says. -/
def State.traceOut (s : State) (g : Nat) : Nat → State
  | 0 => s
  | n + 1 =>
    let T := s.tile g
    let o := T.trobj / 2 ^ 36
    let e := s.entry o
    match T.trBuf with
    | [] => s
    | w :: ws =>
      let off := s.traceAt g
      if e.len < 8 then (s.updTile g fun t => { t with trBuf := ws, trLost := t.trLost + 1 }).traceOut g n
      else if !s.rangeHere o e off 8 then s
      else
        let nxt := if e.len ≤ off + 8 then 0 else off + 8
        ((s.writeObj o e off (toBytes 8 w.toNat)).updTile g fun t => { t with trBuf := ws, trobj := o * 2 ^ 36 + nxt }).traceOut g n

/-- TRACE_BUFFER_WRITE (R397): up to 64 bytes of records go to the trace object, an HBM object; then a loss record may follow. -/
def execTraceBufferWrite (g : Nat) (s : State) : Out :=
  let T := s.tile g
  let o := T.trobj / 2 ^ 36
  let e := s.entry o
  if T.trBuf.isEmpty || !s.traceOpen g o || (8 ≤ e.len && !s.rangeHere o e (s.traceAt g) 8) then .fault .notDue
  else .next ((s.traceOut g 8).updTile g fun t => if t.trLost = 0 then t else { t.trace s.tick 0 0 3 t.trLost with trLost := 0 })

/-! ### Register writes (00 R5, R398) -/

/-- A trace or counter register of a tile written (16 R398): 0 trctl, 1 trobj, 2 to 9 pcsel, 10 to 17 pcnt. Enabling the encoder
starts a new time base (R396). -/
def Tile.traceWrite (t : Tile) (r v : Nat) : Tile :=
  if r = 0 then
    { t with trctl := v % 2 + bits v 2 2 * 4, trTick := if v % 2 = 1 && t.trctl % 2 = 1 then t.trTick else 0 }
  else if r = 1 then { t with trobj := v % 2 ^ 64 }
  else if r < 10 then { t with pcsel := sput 0 t.pcsel (r - 2) (v % 16) }
  else { t with pcnt := sput 0 t.pcnt (r - 10) (BitVec.ofNat 64 v) }

/-- REGISTER_WRITE: a register with no behaviour of its own stores its writable fields (00 R5). Numbers below 4,096 are CSRs of
the executing strand; 0x10000 + 2 × die and the next are errwin and errthr (13 R347), an errwin of 0 clearing every count (R348);
0x10080 is pkgno, which is set before any world is assigned, and 0x11000 + 256 × world + package the stations that lead to a package:
a number plus 1 joins the list, and 0 empties it (15 R379); 0x20000 + 32 × tile + r are the trace and counter registers (16 R398). Any
other number names no register (log 29). -/
def execRegisterWrite (csr v : Nat) (s : State) : Out :=
  if csr < 4096 then .next (if csrAccess csr = some (.ro, .ro) && s.me.mode != .d then s else csrWrite s csr (BitVec.ofNat 64 v))
  else if 0x10000 ≤ csr && csr < 0x10080 then
    let die := (csr - 0x10000) / 2
    if csr % 2 = 0 then
      let cnt := if v % 2 ^ 64 = 0 then s.errCnt.filter fun p => p.1 / 2 ^ 80 != die else s.errCnt
      .next { s with errwin := sput 0x7DBA8218000 s.errwin die (v % 2 ^ 64), errCnt := cnt }
    else .next { s with errthr := sput 0x0004004000100010 s.errthr die (v % 2 ^ 64) }
  else if csr = 0x10080 then
    if (List.range 8).any (fun r => tbit s.wrow (4 * r + 3)) then .fault .notDue else .next { s with pkgno := v % 256 }
  else if 0x11000 ≤ csr && csr < 0x11800 then
    let l := sget [] s.routes (csr - 0x11000)
    if 64 < v then .fault .noSuchUnit
    else .next { s with routes := sput [] s.routes (csr - 0x11000) (if v = 0 then [] else if l.contains (v - 1) then l else l ++ [v - 1]) }
  else if 0x20000 ≤ csr && csr < 0x40000 && csr % 32 < 18 then
    let g := (csr - 0x20000) / 32
    let on (t : Tile) : Bool := tbit t.trctl 0 && tbit t.trctl 2
    let s' := s.updTile g (·.traceWrite (csr % 32) v)
    .next (if on (s'.tile g) && !on (s.tile g) then s'.updTile g fun t => { t with trState := s.traceNow g } else s')
  else .fault .noSuchUnit

end Sys2Proof.Machine
end

