-- ==== Sys2Proof/Machine/Launch.lean ====
section
/-! DEFINITION. Launches and runs (11 R279 to R283; 05 R117 to R122, R131; 19 R421), completion reports and the host mailbox window
(15 R373, R376). -/
namespace Sys2Proof.Machine

/-! ### The host mailbox window (15 R373) -/

/-- The host mailbox window of a world, as bytes of memory. -/
def spHost (w : Nat) : Nat := 16384 + w
/-- A field of `n` bytes of the window. -/
def State.hget (s : State) (w o n : Nat) : Nat := mnat s.mem (flat (spHost w) o) n
/-- The field written. -/
def State.hput (s : State) (w o n v : Nat) : State := { s with mem := mwrite s.mem (flat (spHost w) o) (toBytes n v) }
/-- Every byte of the body from offset `o` up to `hi` is 0. -/
def State.hzero (s : State) (w o hi : Nat) : Bool := (mbytes s.mem (flat (spHost w) o) (hi - o)).all (· == 0)
/-- The answer to a request: its kind and status. -/
def State.reply (s : State) (w kind status : Nat) : State := (s.hput w 8 1 status).hput w 9 1 kind
/-- The oldest completion report, or zeros, at 0x0010 to 0x001F. -/
def State.present (s : State) (w : Nat) : State :=
  match (s.world w).reports with
  | [] => (s.hput w 0x10 8 0).hput w 0x18 8 0
  | i :: _ =>
    let r := sget {} s.runs i
    let f := match r.damaged with
      | some g => g * 2 ^ 36 + 2 ^ 35
      | none => 0
    (s.hput w 0x10 8 (r.id * 2 ^ 32 + r.hnote)).hput w 0x18 8 (f + b2n r.lossy * 2 ^ 34 + r.nab % 2 ^ 32)

/-- Rows of a world (14 R352), dies and tiles. -/
def State.rowsOf (s : State) (w : Nat) : List Nat := (List.range 8).filter fun r => bits s.wrow (4 * r) 4 == 8 + w
def State.diesOf (s : State) (w : Nat) : List Nat := (s.rowsOf w).flatMap fun r => (List.range 8).map fun c => r * 8 + c
/-- The die belongs to the world. -/
def State.dieIn (s : State) (w die : Nat) : Bool := decide (die < 64) && s.dieWorld die == some w
/-- The CXL port that serves a world, by its lowest row; none for a world without a row (15 R375). -/
def State.cxlPort (s : State) (w : Nat) : Option Nat := (s.rowsOf w).head?.map fun r => if r < 4 then 0 else 1
/-- A world that holds a row: it has a function, and so a host interface on its CXL port (15 R372). -/
def State.hasWorld (s : State) (w : Nat) : Bool := decide (w < 8) && (s.cxlPort w).isSome

/-- Answers of the function outside the window's status (14 R363): retry, unsupported request. -/
def chHost (w : Nat) : Nat := 32 + w
/-- A host request to world `w` with kind `kind` in its body: a doorbell that finds the previous request unanswered is ignored; in
QUIESCED and ERROR the request is completed without effect (14 R363, 15 R373), a launch with status 7 or, malformed (`bad`), with 0xFF
before it (11 R279). -/
def hostReq (w kind : Nat) (s : State) (k : Out) (bad : Bool := false) : Out :=
  if !s.hasWorld w || s.hget w 0x1000 1 ≠ kind then .fault .notDue
  else if (s.world w).certw.isSome then .next s
  else match (s.world w).td with
  | .quiesced => if kind = 1 then .next (s.reply w 1 (if bad then 0xFF else 7)) else .next (s.answer (chHost w) 0x100)
  | .error => if kind = 1 then .next (s.reply w 1 (if bad then 0xFF else 7)) else .next (s.answer (chHost w) 0x101)
  | .unlocked => k
  | .locked => k
  | .run => k

/-- MALFORMED_REQUEST (R376): a kind outside 1 to 5, or a management request whose sub-operation lies outside 1 to 4 (R378). -/
def execMalformedRequest (w : Nat) (s : State) : Out :=
  let kind := s.hget w 0x1000 1
  let sub := s.hget w 0x1001 1
  if 1 ≤ kind && kind ≤ 5 && (kind ≠ 5 || (1 ≤ sub && sub ≤ 4)) then .fault .notDue else hostReq w kind s (.next (s.reply w kind 0xFF))

/-! ### The body of a launch request (R376) -/

/-- Argument object i: object id, kind, rank. -/
def argObj (b : Nat → Nat → Nat) (i : Nat) : Nat × Nat × Nat :=
  let x := b (0x2000 + 8 * i) 8
  (x % 2 ^ 28, bits x 28 2, bits x 32 12)
/-- The body is malformed. -/
def badLaunch (b : Nat → Nat → Nat) (zero : Nat → Nat → Bool) : Bool :=
  let nobj := b 0x1002 2
  b 0x1001 1 ≠ 0 || 256 < nobj || nobj ≠ b 0x110E 2 || 2 ^ 28 ≤ b 0x100C 4 || 2 ^ 28 ≤ b 0x1010 4
    || (b 0x1010 4 ≠ 0 && oidPort (b 0x1010 4) ≠ 68) || bits (b 0x1014 4) 6 10 ≠ 0 || !zero 0x1018 0x1100
    || 4 ≤ b 0x1105 1 || b 0x1107 1 ≠ 0 || b 0x1108 2 % 2 = 1 || 0x2000 ≤ b 0x1108 2 || 4096 ≤ b 0x1114 2 || 4096 ≤ b 0x1116 2
    || (List.range 4).any (fun n => b (0x1140 + 48 * n + 0x2C) 4 ≠ 0)
    || (List.range nobj).any fun i =>
        let x := b (0x2000 + 8 * i) 8
        bits x 28 2 = 3 || bits x 30 2 ≠ 0 || bits x 44 20 ≠ 0 || (bits x 28 2 ≠ 2 && bits x 32 12 ≠ 0)

/-- Fields of a launch (R279, R376), read from the bytes of the request body, which begins at 0x1000. -/
structure Launch where
  hnote : Nat
  prun : Nat
  code : Nat
  image : Nat
  resv : Nat
  die : Nat
  cls : Nat
  seg : Nat
  off : Nat
  codeIx : Nat
  args : Nat
  pword : Nat
  tlo : Nat
  thi : Nat
  dlen : Nat
  wdog : Nat
  wlim : Nat
  objs : List (Nat × Nat × Nat)
  deriving DecidableEq, Repr

/-- The fields. -/
def launchOf (b : Nat → Nat → Nat) : Launch :=
  { hnote := b 0x1004 4, prun := b 0x1008 4, code := b 0x100C 4, image := b 0x1010 4, resv := b 0x1016 2, die := b 0x1014 2 % 64,
    cls := b 0x1105 1, seg := b 0x1106 1, off := b 0x1108 2, codeIx := b 0x110A 2, args := b 0x110C 2, pword := b 0x1110 4,
    tlo := b 0x1114 2, thi := b 0x1116 2, dlen := b 0x111E 2, wdog := b 0x1120 8, wlim := b 0x1128 8,
    objs := (List.range (b 0x1002 2)).map (argObj b) }

/-- A partition word as a tile holds it. -/
def tileOf (pword : Nat) : Tile := { pword := pword }
/-- Accumulator storage in 16 KiB units (05 R117). -/
def accOf (pword : Nat) : Nat := bits pword 11 7
/-- Pool address of the accumulator partition, and of the scratchpad (05 R118). -/
def accAt (pword : Nat) : Nat := 0x1000 + 16 * (tileOf pword).vfile + (tileOf pword).cdl * 4096
def scratchAt (pword : Nat) : Nat := accAt pword + accOf pword * 16384
/-- Bytes of the data image: none without an image object. -/
def Launch.data (l : Launch) : Nat := if l.image = 0 then 0 else l.dlen * 64
/-- The partition word is refused (05 R117). -/
def Launch.badPart (l : Launch) : Bool :=
  let t := tileOf l.pword
  2 ^ 18 ≤ l.pword || 16 < t.pers + t.cdl || t.pers + t.cdl = 0 || 96 < accOf l.pword || 0x200000 < scratchAt l.pword + l.data
/-- A tensor record is refused (05 R121). -/
def badPartField (p : Nat) : Bool :=
  let a (i : Nat) : Nat := bits p (8 * i) 8
  (List.range 4).any fun i => 3 ≤ a i || (a i ≠ 0 && (List.range i).any fun j => a j == a i)

/-- The holding indices of arena, data and accum (05 R119). -/
def Launch.indices (l : Launch) : Nat × Nat × Nat :=
  let next (lo : Nat) : Nat := ((List.range' lo (3840 - lo)).find? fun i =>
    i != l.codeIx && !(decide (l.args ≤ i) && decide (i < l.args + l.objs.length))).getD 0xFFFF
  let a := next 0
  let d := if l.data = 0 then 0xFFFF else next (a + 1)
  let c := if accOf l.pword = 0 then 0xFFFF else next ((if l.data = 0 then a else d) + 1)
  (a, d, c)

/-- The lowest run of `n` free granules of a die's HBM (19 R421). -/
def State.freeRun (s : State) (die n : Nat) : Option Nat := s.freeRange (die * 128 + 68) 0 (2 ^ 35) (n * 65536)

/-- How many fractions of object `o`, or shares when it is of AMO class, the launch takes over `n` tiles. -/
def Launch.takes (l : Launch) (amo : Bool) (n o : Nat) : Nat :=
  n * ((if l.code = o && !amo then 1 else 0) + (l.objs.filter fun x => x.1 == o && x.2.1 == b2n amo).length)

/-- The lowest run-table entry that can be used: its report has been retired and no running run's record names it (R280). -/
def State.freeRunEntry (s : State) : Option Nat :=
  (List.range 4096).find? fun i =>
    let r := sget {} s.runs i
    (r.st == .free || (r.st == .complete && r.notify.isEmpty && !s.worlds.any fun p => p.2.reports.contains i))
      && !s.runs.any fun p => (p.2.st == .running || p.2.st == .held) && p.2.pslot == i

/-- prun and pslot of the run-complete record (R282). -/
def State.producer (s : State) (w prun : Nat) : Nat × Nat :=
  match s.runs.find? fun p => p.2.id == prun && p.2.world == w && (p.2.st == .running || p.2.st == .held) with
  | some p => if prun = 0 then (0, 0xFFF) else (prun, p.1)
  | none => if s.runDone prun then (prun, 0xFFE) else (0, 0xFFF)

/-- The status of a launch request of world `w`, but for 0, 7 and 0xFF; 0: it is accepted (R279). -/
def State.launchStatus (s : State) (w : Nat) (l : Launch) (parts : List Nat) : Nat :=
  let outside (o : Nat) : Bool := !s.dieIn w (oidDie o) || !namesEntry o || !(s.entry o).valid
  let rect := pkgRow l.tlo ≤ pkgRow l.thi && pkgCol l.tlo ≤ pkgCol l.thi
  let ts := if rect then setTiles l.tlo l.thi else []
  let n := ts.length
  let objs := l.objs.map (·.1)
  if l.badPart then 1
  else if !rect || ts.any (fun g => !s.dieIn w (g / 64) || (s.tile g).fenced) || outside l.code || objs.any outside
    || (l.image ≠ 0 && outside l.image) || l.objs.any (fun x => x.2.1 == 2 && n ≤ x.2.2) || (s.entry l.code).len ≤ l.seg * 8192
    || (l.resv ≠ 0 && (!s.dieIn w l.die || (s.freeRun l.die l.resv).isNone)) then 2
  else if parts.any badPartField then 3
  else if 3839 < l.codeIx || 3840 < l.args + l.objs.length || 3839 < l.args
    || (decide (l.args ≤ l.codeIx) && decide (l.codeIx < l.args + l.objs.length)) || l.indices.1 = 0xFFFF
    || (l.data ≠ 0 && l.indices.2.1 = 0xFFFF) || (accOf l.pword ≠ 0 && l.indices.2.2 = 0xFFFF) then 4
  else if s.freeRunEntry.isNone then 5
  else if (l.code :: objs).any (fun o => 4095 < (s.entry o).fracs + l.takes (s.entry o).amo n o)
    || l.objs.any (fun x => x.2.1 == 2 && (0 < (s.entry x.1).fracs || 0 < (s.entry x.1).fills)) then 6
  else 0

/-! ### The start of a run (R281) -/

/-- start and count of a dimension of extent `e` on axis code `ax` (05 R122). -/
def chunkOf (e ax w h x y : Nat) : Nat × Nat :=
  let f (g q : Nat) : Nat × Nat := let c := (e + g - 1) / g; (q * c, min c (e - q * c))
  if ax = 1 then f w x else if ax = 2 then f h y else (0, e)
/-- The bytes of a tile's launch record (05 R119, R121, R122; R282). -/
def recordBytes (b : Nat → Nat → Nat) (bs : Nat → Nat → List Byte) (l : Launch) (id world prun pslot oslot g rank : Nat) : List Byte :=
  let w := setW l.tlo l.thi
  let h := setH l.tlo l.thi
  let x := rank % w
  let y := rank / w
  let ix := l.indices
  let rcr := (if pslot = 0xFFF then 0xFFF else pslot) * 2 ^ 96 + prun % 2 ^ 32 * 2 ^ 64 + oslot * 2 ^ 32 + l.hnote
  toBytes 4 id ++ toBytes 1 world ++ bs 0x1105 9 ++ toBytes 2 l.objs.length ++ bs 0x1110 8
    ++ toBytes 2 ix.1 ++ toBytes 2 ix.2.1 ++ toBytes 2 ix.2.2 ++ bs 0x111E 18 ++ toBytes 16 rcr ++ bs 0x1140 192
    ++ (List.range 4).flatMap (fun n => (List.range 4).flatMap fun i =>
        let c := chunkOf (b (0x1140 + 48 * n + 4 * i) 4) (bits (b (0x1140 + 48 * n + 0x28) 4) (8 * i) 2) w h x y
        toBytes 4 c.1 ++ toBytes 4 c.2)
    ++ toBytes 4 rank ++ toBytes 2 g ++ toBytes 1 x ++ toBytes 1 y ++ toBytes 2 w ++ toBytes 2 h
    ++ List.replicate 0x74 0 ++ bs 0x1200 3584

/-- A capability placed in a holding entry by the launch: what the entry held is dropped as cdrop drops it (log 31). -/
def State.place (s : State) (g i : Nat) (c : Cap) : State := ((s.returnCap g (s.holdAt g i)).setClaim g i 0).setHold g i c
/-- A new object over [base, base + len) of the tile's pool, in the lowest free entry, and its capability; null where there is no
entry. -/
def State.poolObj (s : State) (g base len : Nat) : State × Cap :=
  match s.freeEntry (ownSp g) with
  | some i => s.newObj (ownSp g) base len g 0 i
  | none => (s, .null)
/-- A counted capability over the whole of object `o`: null where the count is full or the object has gone, and where it would be a
fraction of an AMO-class object or a share of another (06 R158, R159), where the object is an arena, which admits only capabilities with N
(04 R85), and where its key has been ended (14 R357) (log 97). -/
def State.takeFrac (s : State) (o rights : Nat) : State × Cap :=
  let e := s.entry o
  if !e.valid || oidIdx o = 0 || s.keyEnded e.keyid || 4095 ≤ e.fracs || e.amo != tbit rights rA then (s, .null)
  else (s.updEntry o fun e => { e with fracs := e.fracs + 1 }, Cap.mk' e.gen rights o e.len 0)
/-- The capability of argument `x` on the tile of rank `rank` (R281 step 4): the ownership of an arena or of a launch record, or of an
object whose key has been ended, does not move (04 R85, 14 R357; log 97). -/
def State.argCap (s : State) (g rank : Nat) (x : Nat × Nat × Nat) : State × Cap :=
  let e := s.entry x.1
  if x.2.1 = 0 then s.takeFrac x.1 0x8C
  else if x.2.1 = 1 then s.takeFrac x.1 0x2C
  else if x.2.2 ≠ rank || !e.valid || oidIdx x.1 = 0 || (oidPort x.1 < 64 && oidIdx x.1 == 1023) || s.keyEnded e.keyid then (s, .null)
  else (s.updEntry x.1 fun e => { e with owner := g }, Cap.mk' e.gen (if e.amo then 0x28 else 0xD8) x.1 e.len 0)
/-- The launch-record object of a tile with its generation advanced: past 0xFFF it becomes 1 (04 R85, R107). -/
def State.recordObj (s : State) (g world : Nat) : State :=
  let o := mkOid (g / 64) (g % 64) 1023
  let e := s.entry o
  s.putEntry o { gen := genAfter o e.gen, owner := g, len := 4096, valid := true, resident := true, world := world }

/-- The vector files of a tile as the bytes of the pool that they occupy (05 R118): written there when a launch lays the pool out anew, so
that bytes that become scratchpad hold what the registers held; and the bytes of the new vector files zero. Bytes of former commit buffers
hold what the pool held before them (log 50). -/
def State.spillVectors (s : State) (g pword : Nat) : State :=
  let old := (s.tile g).vfile
  let base := flat (ownSp g) 0x1000
  let put (m : List Host.Cell) (i : Nat) : List Host.Cell :=
    (s.slot (g * 16 + i)).v.foldl (fun m p => if p.1 * 128 < old then mwrite m (base + i * old + 128 * p.1) (vBytes p.2) else m) m
  let bad (b : SMap Nat) (i : Nat) : SMap Nat :=
    ((List.range 32).filter fun n => tbit (s.slot (g * 16 + i)).badv n && decide (n * 128 < old)).foldl
      (fun b n => sput 0 b ((base + i * old + 128 * n) / 8) 1) b
  let mem := if (s.tile g).pword = 0 then s.mem else (List.range 16).foldl put (mzero s.mem base (16 * old))
  let badw := if (s.tile g).pword = 0 then s.badw else (List.range 16).foldl bad s.badw
  let n := 16 * (tileOf pword).vfile
  { s with mem := mzero mem base n, badw := badw.filter fun p => !(decide (base ≤ p.1 * 8) && decide (p.1 * 8 < base + n)) }
/-- Bytes [a, a + n) of a tile's pool written anew by the launch no longer carry the poison syndrome (05 R137). -/
def State.fresh (s : State) (g a n : Nat) : State :=
  let lo := flat (ownSp g) a
  { s with badw := s.badw.filter fun p => !(decide (lo ≤ p.1 * 8) && decide (p.1 * 8 < lo + n)) }
/-- The Separator can read bytes [off, off + n) of object `o` for a launch: its key has not been ended (14 R357), and neither its entry nor
a word of it is damaged (05 R137; log 105). -/
def State.launchReads (s : State) (o off n : Nat) : Bool :=
  let e := s.entry o
  !s.keyEnded e.keyid && !e.bad && !e.poison && !s.fencedAt o && s.badIn o e off n == 0
/-- Steps 1 to 5 of R281 in one tile; the placements of step 4 acquire (06 R147, R149; log 107). A data image shorter than the data length
is followed by zeros (log 112). -/
def State.setTile (s : State) (l : Launch) (b : Nat → Nat → Nat) (bs : Nat → Nat → List Byte) (id world prun pslot oslot rank g : Nat) :
    State :=
  let sp := ownSp g
  let ix := l.indices
  let p := tileOf l.pword
  -- step 1
  let s := (s.spillVectors g l.pword).recordObj g world
  let s := { s with mem := mwrite s.mem (flat sp 0) (recordBytes b bs l id world prun pslot oslot g rank) }.fresh g 0 0x1000
  -- step 2
  let ce := s.entry l.code
  let n := min 8192 (ce.len - l.seg * 8192)
  let codeOk := s.launchReads l.code (l.seg * 8192) n
  let ov := mwrite (mzero s.mem (flat (spOverlay g) 0) 8192) (flat (spOverlay g) 0)
    (if codeOk then s.readObj l.code ce (l.seg * 8192) n else [])
  let s := { s with mem := ov, umark := sput 0 s.umark (flat sp 0) (scratchAt l.pword) }
  let s := s.updTile g fun t =>
    { t with run := true, runid := id, rank := rank, pword := l.pword, cls := l.cls, entryseg := l.seg, runWdog := l.wdog,
             runWlim := l.wlim, tlo := l.tlo, thi := l.thi, oslot := oslot, pslot := pslot, tagfb := 0, bfcnt := 0,
             slotmask := BitVec.ofNat 64 ((2 ^ p.cdl - 1) * 2 ^ p.pers),
             ov := sput {} [] 0 { seg := l.seg, valid := codeOk, landed := codeOk, target := n, count := if codeOk then n else 0 },
             wslots := [], latchRow := [], latchCol := 0x3F800000, mxFree := [], notices := [], ready := [], accObj := 0 }
  -- the vector files of all 16 slots are zero (05 R118)
  let s := s.forSlots g (fun _ t => { t with v := [], badv := 0 }) 16
  -- step 3
  let acc := accOf l.pword * 16384
  let s := if acc = 0 then s else
    let r := s.poolObj g (accAt l.pword) acc
    (r.1.place g ix.2.2 r.2).updTile g fun t => { t with accObj := r.2.o }
  let top := scratchAt l.pword
  let s := if l.data = 0 then s else
    let ie := s.entry l.image
    let m := min l.data ie.len
    let img := if s.launchReads l.image 0 m then s.readObj l.image ie 0 m else []
    let r := s.poolObj g top l.data
    ({ r.1.fresh g top l.data with mem := mwrite r.1.mem (flat sp top) (img ++ List.replicate (l.data - img.length) 0) }).place g ix.2.1 r.2
  let s := s.place g ix.1 (Cap.mk' 1 1 (sp * 2 ^ 15) (0x200000 - top - l.data) (top + l.data))
  -- step 4
  let r := s.takeFrac l.code 0x9C
  let s := r.1.place g l.codeIx r.2
  let s : State := (l.objs.zip (List.range l.objs.length)).foldl (fun (s : State) x =>
    let r := s.argCap g rank x.1
    r.1.place g (l.args + x.2) r.2) s
  s.l1Discard g

/-- The strands of a run start, or its initial codelets become ready (R281). -/
def State.startTile (s : State) (l : Launch) (g : Nat) : State :=
  let p := (tileOf l.pword).pers
  if p = 0 then s.makeReady g initialDesc
  else (List.range p).foldl (fun (s : State) i =>
    (s.startSlot (g * 16 + i) .persistent l.seg s.cycle).updSlot (g * 16 + i) fun t =>
      t.enterAt (s.tile g) (l.seg * 0x2000 + l.off)) s

/-- The barriers that the run can name are reset (12 R315). -/
def State.resetBars (s : State) (oslot : Nat) (ts : List Nat) : State :=
  let mine (key : Nat) : Bool :=
    let level := key / 2 ^ 32
    let u := key % 2 ^ 32 / 2 ^ 13
    if level = 0 then ts.contains u
    else if level = 4 then u == oslot
    else ts.any fun g => barUnit level g == u && (unitTiles level g).all ts.contains
  { s with bars := s.bars.filter fun p => !mine p.1 }

/-- The run of table entry `i` starts: RUN_START (R281). A tile of its set that has been fenced since its acceptance takes no part, and
the run is damaged (13 R346). -/
def State.runStart (s : State) (i : Nat) : State :=
  let r := sget {} s.runs i
  let b (o n : Nat) : Nat := ofBytes ((r.body.drop (o - 0x1000)).take n)
  let bs (o n : Nat) : List Byte := (r.body.drop (o - 0x1000)).take n
  let l := launchOf b
  let pr := s.producer r.world l.prun
  let all := setTiles l.tlo l.thi
  let ts := all.filter fun g => !(s.tile g).fenced
  let hurt := all.find? fun g => (s.tile g).fenced
  let s : State :=
    { s with runs := sput {} s.runs i { r with st := .running, prun := pr.1, pslot := pr.2, body := [], begun := false, damaged := hurt } }
  let s : State := ((all.zip (List.range all.length)).filter fun x => ts.contains x.1).foldl
    (fun (s : State) x => s.setTile l b bs r.id r.world pr.1 pr.2 i x.2 x.1) s
  -- the HBM reservation (19 R421)
  let g0 := all.headD 0
  let at_ := if l.resv = 0 then none else s.freeRun l.die l.resv
  let res := match at_ with
    | some a => Cap.mk' 1 1 (mkOid l.die 68 0) (l.resv * 65536) a
    | none => .null
  let s := (if ts.contains g0 then s.place g0 3864 res else s).resetBars i all
  let s := { s with runs := sput {} s.runs i { sget {} s.runs i with resv := at_.map fun a => (mkOid l.die 68 0, a, l.resv * 65536) } }
  State.settle (ts.foldl (fun (s : State) g => s.startTile l g) s)

/-- Every byte that the start of a run reads is resident, as ifetch would wait for it (05 R131, R133), and every store that the owners'
tiles have issued to its objects has been applied (06 R149). -/
def State.launchReady (s : State) (l : Launch) : Bool :=
  let ce := s.entry l.code
  let ie := s.entry l.image
  s.rangeHere l.code ce (l.seg * 8192) (min 8192 (ce.len - l.seg * 8192))
    && (l.data = 0 || s.rangeHere l.image ie 0 (min l.data ie.len))
    && (l.code :: l.objs.map (·.1)).all fun o => (List.range 16).all fun i => !s.tileStores ((s.entry o).owner * 16 + i) o
/-- The fields of the request that a held run keeps. -/
def Run.launch (r : Run) : Launch := launchOf fun o n => ofBytes ((r.body.drop (o - 0x1000)).take n)
/-- The run of entry `i`, whose tiles are free, starts, or takes its tiles until it can. -/
def State.runBegin (s : State) (i : Nat) : State :=
  let r := sget {} s.runs i
  if s.launchReady r.launch then s.runStart i else { s with runs := sput {} s.runs i { r with begun := true } }

/-- Length of the body of a launch request. -/
def bodyLen (nobj : Nat) : Nat := 0x1000 + 8 * nobj
/-- Two tile sets have a tile in common. -/
def setsMeet (tlo thi tlo' thi' : Nat) : Bool :=
  decide (pkgRow tlo ≤ pkgRow thi') && decide (pkgRow tlo' ≤ pkgRow thi) && decide (pkgCol tlo ≤ pkgCol thi')
    && decide (pkgCol tlo' ≤ pkgCol thi)
/-- The tiles of the set are free: no run holds one, nor has taken one for its start. -/
def State.tilesFree (s : State) (tlo thi : Nat) : Bool :=
  ((setTiles tlo thi).all fun g => !(s.tile g).run)
    && !s.runs.any fun p => p.2.st == .held && p.2.begun && setsMeet tlo thi p.2.tlo p.2.thi

/-- LAUNCH_REQUEST (R279); while a QUIESCE is in progress an accepted launch is held (log 111). -/
def execLaunchRequest (w : Nat) (s : State) : Out :=
  let b (o n : Nat) : Nat := s.hget w o n
  let bad := badLaunch b fun lo hi => s.hzero w lo hi
  hostReq w 1 s (bad := bad) (
    let l := launchOf b
    if bad then .next (s.reply w 1 0xFF)
    else if (s.world w).td ≠ .run then .next (s.reply w 1 7)
    else
      let st := s.launchStatus w l ((List.range 4).map fun n => b (0x1140 + 48 * n + 0x28) 4)
      if st ≠ 0 then .next (s.reply w 1 st)
      else
        let i := s.freeRunEntry.getD 0
        let id := s.runNext
        let pr := s.producer w l.prun
        let r : Run := { st := .held, id := id, world := w, cls := l.cls, order := id, tlo := l.tlo, thi := l.thi, hnote := l.hnote,
                         prun := pr.1, pslot := pr.2, body := mbytes s.mem (flat (spHost w) 0x1000) (bodyLen l.objs.length) }
        let s := { s with runs := sput {} s.runs i r, runNext := id + 1 }
        let s := s.hput w 12 4 id
        if s.tilesFree l.tlo l.thi && !(s.world w).quiesce then .next ((s.reply w 1 0).runBegin i) else .next (s.reply w 1 8))

/-- The held run that may start next: by class, then by arrival (R279). -/
def State.nextHeld (s : State) : Option Nat :=
  let ok := s.runs.filter fun p => p.2.st == .held && (if p.2.begun then s.launchReady p.2.launch else s.tilesFree p.2.tlo p.2.thi)
    && (s.world p.2.world).td == .run
    && !(s.world p.2.world).quiesce
  (List.range 4).findSome? fun c => (ok.filter fun p => p.2.cls == c).foldl (fun (m : Option (Nat × Nat)) p => match m with
    | none => some (p.2.order, p.1)
    | some x => if p.2.order < x.1 then some (p.2.order, p.1) else some x) none |>.map (·.2)
/-- HELD_LAUNCH_START (R279). -/
def execHeldLaunchStart (s : State) : Out := match s.nextHeld with
  | some i => .next (s.runBegin i)
  | none => .fault .notDue

/-! ### Completion (R283) -/

/-- Tile `g` has reached the conditions of R283; a fenced tile counts as having met them (13 R346). -/
def State.tileDone (s : State) (g : Nat) : Bool :=
  (s.tile g).fenced ||
    ((List.range 16).all (fun i => !(s.slot (g * 16 + i)).holds && !s.cmdsLive (g * 16 + i))
      && (s.tile g).ready.all (fun p => p.2.isEmpty) && (s.tile g).entryQ.isEmpty
      && !s.cmds.any (fun c => c.g == g && !(c.op.isSend && c.went))
      && !s.late.any (fun p => p.1 / 16 == g)
      && !s.migs.any (fun c => c.origin == g || c.dest == g) && !s.treqs.any (fun r => r.g == g))
/-- The Waiting descriptors of the run on tile `g`, abandoned: the state and their number (R283). -/
def State.abandonAll (s : State) (id g : Nat) : State × Nat :=
  let mine := (s.liveIn g 0 (2 ^ 21)).filter fun a => s.dstate g a == 1 && s.dget g a 12 4 == id
  (mine.foldl (fun (s : State) a => s.abandon g a) s, mine.length)
/-- The arena capability lies over the HBM reservation `r` (19 R421). -/
def Cap.ofResv (r : Nat × Nat × Nat) (c : Cap) : Bool := c.has rN && c.o == r.1 && decide (r.2.1 ≤ c.b) && decide (c.top ≤ r.2.1 + r.2.2)
/-- The arena capabilities over a run's reservation that its tiles still hold, in their holding tables or in save records in their pools, are
dropped (19 R421). -/
def State.dropResv (s : State) (ts : List Nat) : Option (Nat × Nat × Nat) → State
  | none => s
  | some r =>
    { s with hold := s.hold.filter fun p => !(ts.contains (p.1 / 4096) && p.2.ofResv r),
             mcaps := s.mcaps.filter fun p => !(ts.any (fun g => ownSp g == p.1 / 2 ^ 48) && p.2.ofResv r) }
/-- The run of entry `i` is marked complete: its descriptors are abandoned, the notice goes out and the report is posted. -/
def State.runFinish (s : State) (i : Nat) : State :=
  let r := sget {} s.runs i
  let ts := setTiles r.tlo r.thi
  let x := ts.foldl (fun (x : State × Nat) g => let y := x.1.abandonAll r.id g; (y.1, x.2 + y.2)) (s, 0)
  let s : State := ts.foldl (fun (s : State) g => s.updTile g fun t => { t with run := false }) x.1
  let s := s.dropResv ts r.resv
  let all := (s.tiles.filter fun p => p.2.run && s.dieIn r.world (p.1 / 64)).map (·.1)
  let r := sget {} s.runs i
  let s := { s with runs := sput {} s.runs i { r with st := .complete, nab := x.2, notify := all } }
  (s.updWorld r.world fun w => { w with reports := w.reports ++ [i] }).present r.world
/-- RUN_COMPLETE (R283). -/
def execRunComplete (idx : Nat) (s : State) : Out :=
  let r := sget {} s.runs idx
  if r.st ≠ .running || !(setTiles r.tlo r.thi).all s.tileDone then .fault .notDue else .next (s.runFinish idx)
/-- COMPLETION_NOTICE (R297): the notice for run-table entry idx reaches tile g. -/
def execCompletionNotice (g idx : Nat) (s : State) : Out :=
  let r := sget {} s.runs idx
  if !r.notify.contains g then .fault .notDue
  else .next ({ s with runs := sput {} s.runs idx { r with notify := r.notify.filter (· != g) } }.noticeAt g idx)
/-- COMPLETION_REPORT_NEXT (15 R373): a write to next; ignored when no report is present. -/
def execCompletionReportNext (w : Nat) (s : State) : Out :=
  if !s.hasWorld w then .fault .notDue
  else match (s.world w).td with
  | .quiesced => .next (s.answer (chHost w) 0x100)
  | .error => .next (s.answer (chHost w) 0x101)
  | _ =>
    if (s.world w).reports.isEmpty then .next s
    else .next ((s.updWorld w fun x => { x with reports := x.reports.drop 1 }).present w)

end Sys2Proof.Machine
end

