-- ==== Sys2Proof/Machine/Host.lean ====
section
/-! DEFINITION. The host's other requests (15 R374, R376 to R378): exports and revokes of windows (R381, R384, R385), host-tier grants,
the row assignment (14 R352), certificate slots (R368), and residency (05 R136). -/
namespace Sys2Proof.Machine

/-! ### Exports and revokes -/

/-- A request is malformed: it is answered with 0xFF and changes nothing (R376). -/
def refuseBad (bad : Bool) (w kind : Nat) (s : State) (k : Out) : Out := if bad then .next (s.reply w kind 0xFF) else k
/-- The whole owner capability in hold[h] of tile `g` that world `w` may export (R109, R381 step 1); the status where there
is none is log 74. -/
def State.exportable (s : State) (w g h : Nat) : Option Cap :=
  let c := s.holdAt g h
  if c ≠ .null && !s.claimed g h && c.isOwner && c.has rS && !isWindow c.o && c.b = 0 && c.l = (s.entry c.o).len && s.dieIn w (g / 64)
      && oidPort c.o ≤ 68 && s.dieIn w (oidDie c.o) && (s.check15 c g).isNone then some c else none
/-- The first free entry of a station's window table (R380). -/
def State.freeWin (s : State) (st : Nat) : Option Nat :=
  (List.range 4096).find? fun i => let e := sget {} s.wtab (winOid st i); !e.valid && e.gen < 4096
/-- The first station of tile g's row with a free entry, and that entry (log 32). -/
def State.freeStation (s : State) (g : Nat) : Option (Nat × Nat) :=
  (List.range 8).findSome? fun j => let st := g / 64 / 8 * 8 + j; (s.freeWin st).map fun i => (st, i)
/-- Bytes of the aperture that a window of `len` bytes covers, and the aperture's size (R385). -/
def aperSpan (len : Nat) : Nat := roundTo len 65536
def aperSize : Nat := 2 ^ 36
/-- The first free entry of a world's aperture map. -/
def State.freeAper (s : State) (w : Nat) : Option Nat := (List.range 256).find? fun i => !(sget {} (s.world w).aper i).valid
/-- The body of an export is malformed (R377). -/
def State.badExport (s : State) (w : Nat) : Bool :=
  2 ≤ s.hget w 0x1001 1 || 4096 ≤ s.hget w 0x1002 2 || 4096 ≤ s.hget w 0x1004 2 || s.hget w 0x1006 1 % 64 ≠ 0 || s.hget w 0x1007 1 ≠ 0
    || s.hget w 0x1010 8 = 0 || (s.hget w 0x1001 1 = 0 && s.hget w 0x1018 8 ≠ 0) || !s.hzero w 0x1020 0x2000
/-- Status 5 of an export to aperture offset `off`. -/
def State.badAperture (s : State) (w off len : Nat) : Bool :=
  off % 65536 ≠ 0 || aperSize < off + aperSpan len
    || (s.world w).aper.any fun p => p.2.valid && decide (off < p.2.off + aperSpan p.2.len) && decide (p.2.off < off + aperSpan len)

/-- EXPORT_REQUEST (R381). -/
def execExportRequest (w : Nat) (s : State) : Out :=
  hostReq w 2 s (refuseBad (s.badExport w) w 2 s (
    let target := s.hget w 0x1001 1
    let h := s.hget w 0x1002 2
    let g := s.hget w 0x1004 2
    let rights := s.hget w 0x1006 1
    let base := s.hget w 0x1008 8
    let len := s.hget w 0x1010 8
    let off := s.hget w 0x1018 8
    let st (n : Nat) : Out := .next (s.reply w 2 n)
    match s.exportable w g h with
    | none => st 1
    | some c =>
      let e := s.entry c.o
      if 0 < e.fracs || 0 < e.fills then st 2
      else if target = 0 then
        match s.freeStation g with
        | none => st 3
        | some (sn, i) =>
          if e.len < base + len || (rights &&& c.rights.toNat) ≠ rights then st 4
          else
            let o := winOid sn i
            let we := sget {} s.wtab o
            let s := s.putWinEnt o { gen := we.gen, len := len, valid := true, exported := true, oid := c.o, base := base }
            .next (((s.setHold g h (Cap.mk' we.gen (rights + 8) o len 0)).hput w 0x20 8 o).reply w 2 0)
      else
        match s.freeAper w with
        | none => st 3
        | some i =>
          if e.len < base + len || (rights &&& c.rights.toNat) ≠ rights then st 4
          else if s.badAperture w off len then st 5
          else
            let a : Aper := { valid := true, off := off, len := len, oid := c.o, base := base, write := tbit rights 6, read := tbit rights 7 }
            let s := s.updWorld w fun x => { x with aper := sput {} x.aper i a }
            .next (((s.setHold g h .null).hput w 0x20 8 i).reply w 2 0)))

/-- The whole owner capability of an object (R104). -/
def State.wholeCap (s : State) (o : Nat) : Cap :=
  let e := s.entry o
  Cap.mk' e.gen (if e.amo then 0x28 else 0xD8) o e.len 0
/-- REVOKE_REQUEST (R384): the importer's station is told on the channel of the station; the tile that gets the owner capability acquires (06
R147, R149; log 107). -/
def execRevokeRequest (w : Nat) (s : State) : Out :=
  let target := s.hget w 0x1001 1
  let h := s.hget w 0x1002 2
  let g := s.hget w 0x1004 2
  let which := s.hget w 0x1008 8
  let bad := 2 ≤ target || 4096 ≤ h || 4096 ≤ g || (target = 0 && 2 ^ 28 ≤ which) || (target = 1 && 256 ≤ which)
    || s.hget w 0x1006 2 ≠ 0 || !s.hzero w 0x1010 0x2000
  hostReq w 3 s (refuseBad bad w 3 s (
    let st (n : Nat) : Out := .next (s.reply w 3 n)
    let done (s : State) (o : Nat) : Out := .next ((((s.setHold g h (s.wholeCap o)).l1Discard g).hput w 0x20 8 0).reply w 3 0)
    if s.holdAt g h ≠ .null || s.claimed g h then st 1
    else if target = 0 then
      match s.winEnt which with
      | some e =>
        if e.valid && e.exported && s.dieIn w (oidDie which) && (s.entry e.oid).owner = g then
          done ((s.closeExport which).answer (64 + stationOf which) 1 (toBytes 4 which)) e.oid
        else st 2
      | none => st 2
    else
      let a := sget {} (s.world w).aper which
      if a.valid && (s.entry a.oid).owner = g then
        done (s.updWorld w fun x => { x with aper := sput {} x.aper which {} }) a.oid
      else st 2))

/-! ### Host-tier grants (R374, R377) -/

/-- The ranges of a grant request: first host granule and count. -/
def State.grantRanges (s : State) (w n : Nat) : List (Nat × Nat) :=
  (List.range n).map fun i => (s.hget w (0x1010 + 16 * i) 8 / 65536, s.hget w (0x1018 + 16 * i) 8)
/-- Two ranges overlap. -/
def rangesMeet (a b : Nat × Nat) : Bool := decide (a.1 < b.1 + b.2) && decide (b.1 < a.1 + a.2)
/-- Some range meets a later one. -/
def overlapping : List (Nat × Nat) → Bool
  | [] => false
  | r :: rs => rs.any (rangesMeet r) || overlapping rs
/-- HOST_TIER_GRANT: the granules follow those already granted on the die. -/
def execHostTierGrant (w : Nat) (s : State) : Out :=
  let n := s.hget w 0x1002 2
  let die := s.hget w 0x1004 1
  let bad := s.hget w 0x1001 1 ≠ 0 || n = 0 || 128 < n || 64 ≤ die || !s.hzero w 0x1005 0x1010 || !s.hzero w (0x1010 + 16 * n) 0x2000
    || (List.range n).any fun i => s.hget w (0x1010 + 16 * i) 8 % 65536 ≠ 0 || s.hget w (0x1018 + 16 * i) 8 = 0
  hostReq w 4 s (refuseBad bad w 4 s (
    let rs := s.grantRanges w n
    let have_ : List (Nat × Nat) := s.worlds.flatMap fun p => p.2.grants.map fun x => (x.2.2.1, x.2.2.2)
    let total := rs.foldl (fun n r => n + r.2) (s.granted die)
    if overlapping rs || rs.any (fun r => have_.any (rangesMeet r)) then .next (s.reply w 4 1)
    else if !s.dieIn w die then .next (s.reply w 4 2)
    else if 2 ^ 32 < total then .next (s.reply w 4 3)
    else
      let new := (rs.foldl (fun (x : Nat × List (Nat × Nat × Nat × Nat)) r => (x.1 + r.2, x.2 ++ [(die, x.1, r.1, r.2)]))
        (s.granted die, [])).2
      .next ((s.updWorld w fun x => { x with grants := x.grants ++ new }).reply w 4 0)))

/-! ### The row assignment (14 R352) -/

/-- A measurement register, and its extension with a digest (14 R367). -/
def State.measure (s : State) (i : Nat) : List Byte := sget (List.replicate 64 0) s.meas i
def State.extend (s : State) (i : Nat) (digest : List Byte) : State :=
  { s with meas := sput (List.replicate 64 0) s.meas i (shake256 (s.measure i ++ digest) 64) }
/-- The rows that carry each world id are contiguous. -/
def rowsContiguous (v : Nat) : Bool :=
  (List.range 8).all fun w =>
    let rs := (List.range 8).filter fun r => bits v (4 * r) 4 == 8 + w
    rs.all fun r => rs.head? == some r || rs.contains (r - 1)
/-- A world without a run, in CONFIG_UNLOCKED. -/
def State.worldIdle (s : State) (w : Nat) : Bool :=
  (s.world w).td == .unlocked && !s.runs.any fun p => p.2.world == w && (p.2.st == .running || p.2.st == .held)
/-- The value is refused (R352, R407). -/
def State.badWrow (s : State) (v : Nat) : Bool :=
  let nib (x r : Nat) : Nat := bits x (4 * r) 4
  let idle (x : Nat) : Bool := x < 8 || s.worldIdle (x - 8)
  !rowsContiguous v || (List.range 8).any fun r =>
    (nib v r ≠ nib s.wrow r && !(idle (nib v r) && idle (nib s.wrow r)))
      || (8 ≤ nib v r && (List.range 8).any fun c => sget false s.deadDie (r * 8 + c))
/-- wrow written; M4 is extended at each change, with the digest of the value (log 33). -/
def State.setWrow (s : State) (v : Nat) : State :=
  if v = s.wrow then s else { s with wrow := v }.extend 4 (shake256 (toBytes 4 v) 64)
/-- A management request of sub-operation `sub` from world `w`. -/
def manage (w sub : Nat) (s : State) (k : Out) : Out := if s.hget w 0x1001 1 ≠ sub then .fault .notDue else hostReq w 5 s k
/-- WRITE_WROW: world numbers of 8 and above stand for the board controller (R352), whose command names the value; before bring-up has
come that far it is answered with 3 (17 R407). -/
def execWriteWrow (w v : Nat) (s : State) : Out :=
  let new := v % 2 ^ 32
  if 8 ≤ w then
    if !s.up || s.romFail ≠ 0 then .next (s.answer 48 3)
    else if s.badWrow new then .next (s.answer 48 2)
    else .next ((s.setWrow new).answer 48 0)
  else if s.hget w 0x1008 4 ≠ new then .fault .notDue
  else manage w 1 s (
    if s.opWorld ≠ w + 1 then .next (s.reply w 5 1)
    else if s.badWrow new then .next (s.reply w 5 2)
    else .next ((s.setWrow new).reply w 5 0))

/-! ### Certificate slots (14 R368) -/

/-- A certificate slot: slot 0 holds the chain provisioned at manufacture (log 16). -/
def State.cert (s : State) (slot : Nat) : List Byte := if slot = 0 then Config.cert0 else sget [] s.certs slot
/-- Bytes written into a list at an offset, with zeros before them where it is shorter. -/
def spliceBytes (old : List Byte) (off : Nat) (bs : List Byte) : List Byte :=
  (old ++ List.replicate (off - old.length) 0).take off ++ bs ++ old.drop (off + bs.length)
/-- A GET_CERTIFICATE sequence on the slot is in progress. A CHALLENGE is answered in its own step, so none is pending. -/
def State.certBusy (s : State) (slot : Nat) : Bool := s.conns.any fun p => p.2.cert == some slot
/-- The write applied. -/
def State.certPut (s : State) (c : CertW) : State := { s with certs := sput [] s.certs c.slot (spliceBytes (s.cert c.slot) c.off c.bytes) }
/-- World `w`'s held write, applied; the status becomes 0 (R378). -/
def State.certWorld (s : State) (w : Nat) (c : CertW) : State := ((s.certPut c).updWorld w fun x => { x with certw := none }).reply w 5 0
/-- The board controller's held write `c`, applied. -/
def State.certBoard (s : State) (c : CertW) : State := State.answer { s.certPut c with boardCert := s.boardCert.erase c } 48 0
/-- The writes held for a slot, applied: what is held comes before any later write of the slot. -/
def State.certFlush (s : State) (slot : Nat) : State :=
  (s.worlds.filter fun p => p.2.certw.any (·.slot == slot)).foldl (fun s p => p.2.certw.elim s (s.certWorld p.1))
    ((s.boardCert.filter (·.slot == slot)).foldl State.certBoard s)
/-- WRITE_CERTIFICATE_SLOT (R378). -/
def execWriteCertificateSlot (w : Nat) (s : State) : Out :=
  let slot := s.hget w 0x1002 2
  let off := s.hget w 0x1004 2
  let len := s.hget w 0x1006 2
  manage w 2 s (refuseBad (8 ≤ slot || len = 0 || 4096 < len) w 5 s (
    if s.opWorld ≠ w + 1 then .next (s.reply w 5 1)
    else if slot = 0 || 4096 < off + len then .next (s.reply w 5 2)
    else
      let c : CertW := { slot := slot, off := off, bytes := mbytes s.mem (flat (spHost w) 0x1100) len }
      if s.certBusy slot then .next ((s.updWorld w fun x => { x with certw := some c }).reply w 5 3)
      else .next (((s.certFlush slot).certPut c).reply w 5 0)))
/-- The board controller writes a certificate slot (R368): 2 for slot 0 and bytes outside a slot, 3 for BUSY, and 3 before bring-up has
come that far (17 R407). -/
def State.certWrite (s : State) (slot off : Nat) (data : List Byte) : Out :=
  let c : CertW := { slot := slot, off := off, bytes := data }
  if !s.up || s.romFail ≠ 0 then .next (s.answer 48 3)
  else if slot = 0 || 8 ≤ slot || data.isEmpty || 4096 < off + data.length then .next (s.answer 48 2)
  else if s.certBusy slot then .next (State.answer { s with boardCert := s.boardCert ++ [c] } 48 3)
  else .next (((s.certFlush slot).certPut c).answer 48 0)
/-- CERT_WRITE_APPLY: a held write is applied once its slot is not busy; world 8 stands for the board controller, whose writes are held in
order. -/
def execCertWriteApply (w : Nat) (s : State) : Out :=
  if w = 8 then
    (match s.boardCert.find? fun c => !s.certBusy c.slot with
    | none => .fault .notDue
    | some c => .next (s.certBoard c))
  else
  match (s.world w).certw with
  | none => .fault .notDue
  | some c => if s.certBusy c.slot then .fault .notDue else .next (s.certWorld w c)

/-! ### Residency (05 R136) -/

/-- The device place (flat address) of host granule `hg` among the grants of world `w`. -/
def State.hostGranule (s : State) (w hg : Nat) : Option Nat :=
  (s.world w).grants.findSome? fun x =>
    if x.2.2.1 ≤ hg && hg < x.2.2.1 + x.2.2.2 then some (flat (x.1 * 128 + 69) ((x.2.1 + (hg - x.2.2.1)) * 65536)) else none
/-- The same by the number as a map entry holds it, which has 31 bits. -/
def State.hostGranule31 (s : State) (w n : Nat) : Option Nat :=
  (s.world w).grants.findSome? fun x =>
    let hg := x.2.2.1 + (n + (2 ^ 31 - x.2.2.1 % 2 ^ 31)) % 2 ^ 31
    if hg < x.2.2.1 + x.2.2.2 then some (flat (x.1 * 128 + 69) ((x.2.1 + (hg - x.2.2.1)) * 65536)) else none
/-- Sectors of the granule at flat address `a` written back and dropped from the L2. -/
def State.granuleBack (s : State) (a : Nat) : State :=
  (s.l2.filter fun p => p.1 / 256 == a / 65536).foldl (fun (s : State) p => s.secBack p.1) s
/-- The same without write-back. -/
def State.granuleDrop (s : State) (a : Nat) : State :=
  (s.l2.filter fun p => p.1 / 256 == a / 65536).foldl (fun (s : State) p => s.secDrop p.1) s
/-- The 256 sectors of a granule copied as stored, with their key tags and poison syndromes. -/
def State.granuleCopy (s : State) (a b : Nat) : State :=
  let s := (s.granuleBack a).granuleDrop b
  let tags := (List.range 256).foldl (fun (m : SMap Nat) i => sput 0xFFFFFFFF m (b / 256 + i) (sget 0xFFFFFFFF s.ktags (a / 256 + i))) s.ktags
  let bad := (s.badw.filter fun p => p.1 / 8192 == a / 65536).foldl (fun (m : SMap Nat) p => sput 0 m (p.1 - a / 8 + b / 8) p.2)
    (s.badw.filter fun p => p.1 / 8192 != b / 65536)
  { s with mem := mwrite (mzero s.mem b 65536) b (mbytes s.mem a 65536), ktags := tags, badw := bad }
/-- Entry i of the extent map at byte `m` of HBM storage `hbm` written. -/
def State.mapPut (s : State) (hbm m i v : Nat) : State := { s with mem := mwrite s.mem (flat hbm (m + 4 * i)) (toBytes 4 v) }
/-- An engine access that has started on one of the granules [first, first + n) of the object is not finished (R136): a command's
ranges, and all of an object that a message copies. -/
def State.engineOn (s : State) (o first n : Nat) : Bool :=
  s.cmds.any (fun c => c.running && !c.fin && ((c.rd ++ c.wr).map s.realRange).any fun r =>
      r.1 == o && decide (r.2.1 < (first + n) * 65536) && decide (first * 65536 < r.2.2))
    || s.msgs.any fun m => m.how == .copy && (m.cap.o == o || m.newO == o) && !m.todo.isEmpty
/-- Statuses 4 of both requests: not an HBM object of the world, class 2, or a range outside the object. -/
def State.badGranules (s : State) (w o first n : Nat) : Bool :=
  let e := s.entry o
  oidPort o ≠ 68 || !s.dieIn w (oidDie o) || !namesEntry o || oidIdx o = 0 || !e.valid || e.cls = 2 || (e.len + 65535) / 65536 < first + n

/-- EVICT_GRANULES. A granule that is evicted already stays where it is (log 113). -/
def execEvictGranules (w : Nat) (s : State) : Out :=
  let o := s.hget w 0x1008 4
  let first := s.hget w 0x1010 4
  let n := s.hget w 0x1014 4
  let hpa := s.hget w 0x1018 8
  manage w 3 s (refuseBad (2 ^ 28 ≤ o || n = 0) w 5 s (
    if s.badGranules w o first n then .next (s.reply w 5 4)
    else
      let e := s.entry o
      let hbm := oidSp o
      let dst := (List.range n).map fun i => s.hostGranule w (hpa / 65536 + i)
      if hpa % 65536 ≠ 0 || dst.any (·.isNone) then .next (s.reply w 5 5)
      else if s.engineOn o first n then .fault .notDue
      else
        let own := (List.range ((e.len + 65535) / 65536)).map fun i => e.base / 65536 + i
        match (if e.ext then some s else (s.mapPlace hbm [] own.length).map fun m => s.putMap o hbm m own) with
        | none => .next (s.reply w 5 5)
        | some s =>
          let m := (s.entry o).base
          let s : State := (List.range n).foldl (fun (s : State) i =>
            let x := mnat s.mem (flat hbm (m + 4 * (first + i))) 4
            if 2 ^ 31 ≤ x then s
            else (s.granuleCopy (flat hbm (x * 65536)) ((dst.getD i none).getD 0)).granuleDrop (flat hbm (x * 65536))
              |>.mapPut hbm m (first + i) (2 ^ 31 + (hpa / 65536 + i) % 2 ^ 31)) s
          .next ((s.updEntry o fun e => { e with resident := false }).reply w 5 0)))

/-- Strands parked on the object, directly or through an export of it, try their accesses again (R133). -/
def State.retryParked (s : State) (o : Nat) : State :=
  let ws := s.slots.flatMap fun p => p.2.wins.filterMap fun x => match x.st with
    | .wait (.resident c lkey req _) =>
      if c.o = o || (s.winEnt c.o).any (fun e => e.exported && e.oid == o) then some (p.1, x.id, c, lkey, req) else none
    | _ => none
  ws.foldl (init := s.lateServe o) (fun (s : State) (x : Nat × Nat × Cap × Word × Req) =>
    let q := (s.unlist (oidSp x.2.2.1.o) x.1 x.2.1).request x.1 x.2.2.1 x.2.2.2.1 x.2.2.2.2 (some x.2.1)
    q.1.endWin x.1 x.2.1 q.2)

/-- RESTORE_GRANULES. -/
def execRestoreGranules (w : Nat) (s : State) : Out :=
  let o := s.hget w 0x1008 4
  let first := s.hget w 0x1010 4
  let n := s.hget w 0x1014 4
  manage w 4 s (refuseBad (2 ^ 28 ≤ o) w 5 s (
    if s.badGranules w o first n then .next (s.reply w 5 4)
    else
      let e := s.entry o
      let hbm := oidSp o
      let out := if e.ext then (List.range n).filterMap fun i =>
          let x := mnat s.mem (flat hbm (e.base + 4 * (first + i))) 4
          if 2 ^ 31 ≤ x then some (first + i, x - 2 ^ 31) else none
        else []
      let gs := s.freeGranules hbm (2 ^ 19) 0 out.length
      if gs.length < out.length then .next (s.reply w 5 5)
      else
        let s : State := (out.zip gs).foldl (fun (s : State) p =>
          (s.granuleCopy ((s.hostGranule31 w p.1.2).getD 0) (flat hbm (p.2 * 65536))).mapPut hbm e.base p.1.1 p.2) s
        let s := s.updEntry o fun e => { e with resident := !e.ext || (s.extents o e).all fun x => x < 2 ^ 31 }
        .next ((s.retryParked o).reply w 5 0)))

end Sys2Proof.Machine
end

