-- ==== Sys2Proof/Machine/Tdisp.lean ====
section
/-! DEFINITION. The interface of a world (14 R361 to R365): the TDISP requests, the states, and the reset of a world. -/
namespace Sys2Proof.Machine

/-- The channel of the answers to TDISP requests of world `w`, their error codes and state codes (log 34). -/
def chTdisp (w : Nat) : Nat := 16 + w
def tdInvalidRequest : Nat := 1
def tdInvalidState : Nat := 4
def tdUnsupported : Nat := 7
def TdSt.code : TdSt → Nat
  | .unlocked => 0 | .locked => 1 | .run => 2 | .error => 3 | .quiesced => 4
/-- A request to the interface of world `w`, which a function serves only for a world that holds rows. -/
def tdReq (w : Nat) (s : State) (k : Out) : Out := if !s.hasWorld w then .fault .notDue else k
/-- An answer. -/
def State.tdAns (s : State) (w code : Nat) (bs : List Byte := []) : State := s.answer (chTdisp w) code bs
/-- The interface state of world `w` set. -/
def State.setTd (s : State) (w : Nat) (t : TdSt) : State := s.updWorld w fun x => { x with td := t }
/-- A transition that is taken only in the states of `ok` (R362). -/
def tdMove (w : Nat) (ok : Bool) (s s' : State) : Out :=
  tdReq w s (if ok then .next s' else .next (s.tdAns w tdInvalidState))

/-- GET_TDISP_VERSION. -/
def execGetTdispVersion (w : Nat) (s : State) : Out := tdReq w s (.next (s.tdAns w 0))
/-- GET_TDISP_CAPABILITIES. -/
def execGetTdispCapabilities (w : Nat) (s : State) : Out := tdReq w s (.next (s.tdAns w 0))
/-- GET_DEVICE_INTERFACE_REPORT. -/
def execGetDeviceInterfaceReport (w : Nat) (s : State) : Out := tdReq w s (.next (s.tdAns w 0))
/-- GET_DEVICE_INTERFACE_STATE. -/
def execGetDeviceInterfaceState (w : Nat) (s : State) : Out :=
  tdReq w s (.next (s.tdAns w 0 [BitVec.ofNat 8 (s.world w).td.code]))
/-- LOCK_INTERFACE_REQUEST. -/
def execLockInterfaceRequest (w : Nat) (s : State) : Out :=
  tdMove w ((s.world w).td == .unlocked) s ((s.setTd w .locked).tdAns w 0)
/-- START_INTERFACE_REQUEST. -/
def execStartInterfaceRequest (w : Nat) (s : State) : Out :=
  tdMove w ((s.world w).td == .locked) s ((s.setTd w .run).tdAns w 0)

/-- Tiles of a world. -/
def State.tilesOf (s : State) (w : Nat) : List Nat := (s.diesOf w).flatMap fun d => (List.range 64).map fun t => d * 64 + t
/-- Strand keys of a world's slots that hold strands. -/
def State.strandsOf (s : State) (w : Nat) : List Nat :=
  (s.slots.filter fun p => p.2.holds && p.1 < sepKey && s.dieIn w (p.1 / 1024)).map (·.1)
/-- A stop asked for, as str.stop asks for it (12 R326). -/
def Slot.askStop (t : Slot) : Slot :=
  if !t.holds || t.stopped then t else if t.halted then { t with stopped := true } else { t.endCounting with stopReq := true }
/-- QUIESCE: a stop is asked for in every slot of the world. -/
def execQuiesce (w : Nat) (s : State) : Out :=
  tdMove w ((s.world w).td == .run && !(s.world w).quiesce) s
    ((s.strandsOf w).foldl (fun (s : State) k => s.updSlot k (·.askStop)) (s.updWorld w fun x => { x with quiesce := true }))
/-- Every slot of the world is stopped and its accepted engine commands complete (R363). -/
def State.quiet (s : State) (w : Nat) : Bool :=
  (s.strandsOf w).all (fun k => (s.slot k).stopped) && !s.cmds.any fun c => s.dieIn w (c.g / 64)
/-- QUIESCE_COMPLETE. -/
def execQuiesceComplete (w : Nat) (s : State) : Out :=
  if !(s.world w).quiesce || !s.quiet w then .fault .notDue
  else .next ((s.updWorld w fun x => { x with quiesce := false, td := .quiesced }).tdAns w 0)
/-- RESUME: str.go on every stopped slot. -/
def execResume (w : Nat) (s : State) : Out :=
  let stopped := (s.strandsOf w).filter fun k => (s.slot k).stopped
  tdMove w ((s.world w).td == .quiesced) s
    ((stopped.foldl (fun (s : State) k => (s.updSlot k fun t => { t with stopped := false }).repost k) (s.setTd w .run)).tdAns w 0)
/-- TDISP_UNSUPPORTED_REQUEST: vendor byte b; 256 and above stand for peer-to-peer stream binding (log 34). -/
def execTdispUnsupportedRequest (w b : Nat) (s : State) : Out :=
  tdReq w s (if b = 1 || b = 2 then .fault .notDue
    else .next (s.tdAns w (if 256 ≤ b then tdUnsupported else tdInvalidRequest)))

/-! ### ERROR (R364) -/

/-- An event of R364: in CONFIG_UNLOCKED, and in ERROR itself, nothing changes. -/
def tdError (w : Nat) (s : State) : Out :=
  tdReq w s (match (s.world w).td with
    | .unlocked => .next s
    | .error => .next s
    | _ => .next (s.updWorld w fun x => { x with td := .error, quiesce := false }))
/-- IDE_INTEGRITY_FAILURE. -/
def execIdeIntegrityFailure (w : Nat) (s : State) : Out := tdError w s
/-- LOCKED_CONFIG_WRITE. -/
def execLockedConfigWrite (w : Nat) (s : State) : Out := tdError w s
/-- SEPARATOR_STATE_ERROR. -/
def execSeparatorStateError (w : Nat) (s : State) : Out := tdError w s
/-- FIRMWARE_ACTIVATION (R363): only in QUIESCED; measurement register 1 is extended first. -/
def execFirmwareActivation (w digest : Nat) (s : State) : Out :=
  if (s.world w).td ≠ .quiesced then .fault .notDue else .next (s.extend 1 (toBytes 64 digest))

/-! ### The reset of a world (R365) -/

/-- Steps 2 and 3 of R365: strands with the buffered stores of their codelets, engine commands, messages that the world's tiles hold or that
other packages have sent them, subscriptions and requests of the world's tiles end. -/
def State.resetStrands (s : State) (w : Nat) : State :=
  let mine (g : Nat) : Bool := s.dieIn w (g / 64)
  let st (n : Nat) : Bool := s.dieIn w (n / 8 * 8)
  let slot (p : Nat × Slot) : Nat × Slot :=
    if p.1 < sepKey && mine (p.1 / 16) then
      (p.1, { nextWid := p.2.nextWid, dcsr := p.2.dcsr, dpc := p.2.dpc, dscratch0 := p.2.dscratch0, nextAt := s.cycle })
    else p
  { s with slots := (s.slots.map slot).filter (fun p => p.2 != {})
           cmds := s.cmds.filter fun c => !mine c.g
           msgs := s.msgs.filter fun m => !(mine m.holder || (decide (4096 ≤ m.holder) && mine m.dest))
           late := s.late.filter fun p => !mine (p.1 / 16)
           subs := s.subs.filter fun p => match p.2 with
             | some u => !mine u.tile
             | none => false
           treqs := s.treqs.filter fun r => !mine r.g
           migs := s.migs.filter fun c => !mine c.origin
           uareqs := s.uareqs.filter fun r => !st r.st
           waits := s.waits.filter fun p => !s.dieIn w (p.1 / 128)
           stopq := s.stopq.filter fun p => !mine p.1
           l1 := s.l1.filter fun p => !mine p.1
           saved := s.saved.filter fun p => !s.dieIn w (p.1 / 2 ^ 48 / 128) }
/-- Step 4: the world's keys; a key.end of the Separator's core for one of them is absorbed. -/
def State.resetKeys (s : State) (w : Nat) : State :=
  let gone (k : Key) : Bool := k.world == w && (k.st == .live || k.st == .ending || k.st == .ended)
  let ours (k : Nat) : Bool := gone (s.key k)
  let s := s.updSlot sepKey fun t => { t with wins := t.wins.filter fun x => match x.st with
    | .wait (.keyEnd k _ _) => !ours k
    | _ => true }
  { s with keys := s.keys.map fun p => if gone p.2 then (p.1, p.2.release) else p
           keyEnds := s.keyEnds.filter fun k => !ours k
           zfill := s.zfill.filter fun z => !s.dieIn w (z.1 / 128) }
/-- A tile after the reset of its world: what the reset does not reach is kept (log 35). -/
def Tile.cleared (t : Tile) : Tile :=
  { fenced := t.fenced, resetAt := t.resetAt, issuedAt := t.issuedAt, tselect := t.tselect, tdata1 := t.tdata1, tdata2 := t.tdata2,
    tstop := t.tstop, pbuf := t.pbuf, trctl := t.trctl, trobj := t.trobj, pcsel := t.pcsel, pcnt := t.pcnt, trBuf := t.trBuf,
    trLost := t.trLost, trTick := t.trTick, trState := t.trState }
/-- Runs of the world marked complete, their descriptors abandoned and their reports posted. -/
def State.resetRuns (s : State) (w : Nat) : State :=
  let runs := (s.runs.filter fun p => p.2.world == w && (p.2.st == .running || p.2.st == .held)).map (·.1)
  runs.foldl (fun (s : State) i =>
    let r : Run := sget {} s.runs i
    let s : State := if r.st == .running then s.runFinish i
      else
        let s : State := { s with runs := sput {} s.runs i { r with st := .complete, body := [] } }
        (s.updWorld w fun x => { x with reports := x.reports ++ [i] }).present w
    let r : Run := sget {} s.runs i
    { s with runs := sput {} s.runs i { r with notify := [] } }) s
/-- Step 5: tables cleared, runs complete, SRAM and clear-class sectors zero. Window-table entries are invalidated with their
generations advanced (log 75). -/
def State.resetTables (s : State) (w : Nat) : State :=
  let die (d : Nat) : Bool := s.dieIn w d
  let mine (g : Nat) : Bool := die (g / 64)
  let sram (a : Nat) : Bool := decide (a / 2 ^ 48 < 8192) && die (a / 2 ^ 48 / 128) && decide (a / 2 ^ 48 % 128 < 68)
  let sector (a : Nat) : Bool := decide (a / 2 ^ 48 < 8192) && die (a / 2 ^ 48 / 128) && decide (68 ≤ a / 2 ^ 48 % 128)
  let up := 32768 * 2 ^ 48
  let clear (a : Nat) : Bool := sector a && sget 0xFFFFFFFF s.ktags (a / 256) == 0
  let bar (k : Nat) : Bool :=
    let level := k / 2 ^ 32
    let u := k % 2 ^ 32 / 2 ^ 13
    if level = 4 then (sget {} s.runs u).world == w
    else die (if level = 0 then u / 64 else if level = 1 then u / 16 else if level = 2 then u / 4 else u)
  { s with entries := s.entries.filter fun p => !die (oidDie p.1)
           wtab := s.wtab.map fun p => if die (oidDie p.1) then (p.1, { gen := if 4096 ≤ p.2.gen then p.2.gen else p.2.gen + 1 }) else p
           hold := s.hold.filter fun p => !mine (p.1 / 4096)
           claims := s.claims.filter fun p => !mine (p.1 / 4096)
           badh := s.badh.filter fun p => !mine (p.1 / 4096)
           tags := s.tags.filter fun p => !die p.1
           bars := s.bars.filter fun p => !bar p.1
           tiles := (s.tiles.map fun p => if mine p.1 then (p.1, p.2.cleared) else p).filter fun p => p.2 != {}
           mem := s.mem.filter fun c => !(sram c.1 || clear c.1 || (decide (up ≤ c.1) && sector (c.1 - up)))
           l2 := s.l2.filter fun p => !sector (p.1 * 256)
           badw := s.badw.filter fun p => !(sram (p.1 * 8) || clear (p.1 * 8))
           marks := s.marks.filter fun p => !sram p.1
           mcaps := s.mcaps.filter fun p => !sram p.1
           umark := s.umark.filter fun p => !die (p.1 / 2 ^ 48 / 128) }
/-- The reset of world `w`. -/
def State.resetWorld (s : State) (w : Nat) : State :=
  let s := (((s.resetRuns w).resetStrands w).resetKeys w).resetTables w
  -- L2 slices that have run out of spares are disabled now (13 R349)
  let mine := s.l2new.filter fun p => s.dieIn w p.1
  let s : State := { s with l2off := mine.foldl (fun m p => sput 0 m p.1 (sget 0 m p.1 ||| p.2)) s.l2off
                            l2new := s.l2new.filter fun p => !s.dieIn w p.1 }
  s.updWorld w fun x => { x with td := .unlocked, quiesce := false, aper := [], certw := none }
/-- FUNCTION_LEVEL_RESET (R365). -/
def execFunctionLevelReset (w : Nat) (s : State) : Out := tdReq w s (.next (s.resetWorld w))
/-- STOP_INTERFACE_REQUEST (R362, R365). -/
def execStopInterfaceRequest (w : Nat) (s : State) : Out :=
  tdMove w ((s.world w).td != .unlocked) s ((s.resetWorld w).tdAns w 0)

end Sys2Proof.Machine
end

