-- ==== Sys2Proof/Machine/Spdm.lean ====
section
/-! DEFINITION. The SPDM responder (14 R368, R369). The layouts of its messages are those of SPDM 1.3 (log 34). -/
namespace Sys2Proof.Machine

/-- The version field of SPDM 1.3, error codes, and the bits of the algorithms offered (log 34). -/
def spdmVersion : Nat := 0x13
def spInvalid : Nat := 1
def spUnexpected : Nat := 4
def spUnsupported : Nat := 7
def spVersionMismatch : Nat := 0x41
/-- The connection on a transport. -/
def State.conn (s : State) (t : Nat) : Conn := sget {} s.conns t
/-- The connection changed by `f`. -/
def State.updConn (s : State) (t : Nat) (f : Conn → Conn) : State := { s with conns := sput {} s.conns t (f (s.conn t)) }
/-- A request on transport `t`: the version first, in [7:0] of `ver`, then the phase of the connection; any request but the next portion
ends a GET_CERTIFICATE sequence (R368). -/
def spdm (t ver phase : Nat) (s : State) (k : State → Out) : Out :=
  let s' := s.updConn t fun c => { c with cert := none }
  if 3 ≤ t then .fault .noSuchUnit
  else if s.romFail ≠ 0 then .fault .notDue
  else if ver % 256 ≠ spdmVersion then .next (s'.answer t spVersionMismatch)
  else if (s.conn t).phase < phase then .next (s'.answer t spUnexpected)
  else k s'
/-- The connection has reached a phase. -/
def Conn.reach (c : Conn) (p : Nat) : Conn := { c with phase := max c.phase p }

/-! ### Messages and transcripts -/

/-- A message: version, code, two parameters, and the rest. -/
def spMsg (code p1 p2 : Nat) (body : List Byte) (version : Nat := spdmVersion) : List Byte :=
  toBytes 1 version ++ toBytes 1 code ++ toBytes 1 p1 ++ toBytes 1 p2 ++ body
/-- `n` bytes of a request from byte `i` on of those that the event carries above the version. -/
def spRest (ver i n : Nat) : List Byte := toBytes n (ver / 2 ^ (8 + 8 * i))
/-- The characters of a text as bytes. -/
def ascii (x : String) : List Byte := x.toList.map fun c => BitVec.ofNat 8 c.toNat
/-- The 100 bytes before a transcript hash that is signed, by the text that names what is signed. -/
def spPrefix (what : String) : List Byte :=
  (List.range 4).flatMap (fun _ => ascii "dmtf-spdm-v1.3.*") ++ List.replicate (36 - (ascii what).length) 0 ++ ascii what
/-- The Ed448 signature, with the device identity key, of the SHA3-512 hash of a transcript. -/
def State.spSign (s : State) (what : String) (transcript : List Byte) : List Byte :=
  edSign (s.sepKeyOf 0) (spPrefix what ++ sha3512 transcript)
/-- A nonce of 32 bytes from the DRBG (log 15). -/
def State.nonce (s : State) : List Byte := (List.range 4).flatMap fun i => toBytes 8 (Config.drbg (s.free + i)).toNat

/-! ### Requests -/

/-- The VERSION message: one entry, version 1.3. -/
def spVersionMsg : List Byte := spMsg 0x04 0 0 ([0, 1] ++ toBytes 2 0x1300) 0x10
/-- SPDM_GET_VERSION: always accepted; the connection is reset. -/
def execSpdmGetVersion (t : Nat) (s : State) : Out :=
  if 3 ≤ t then .fault .noSuchUnit
  else if s.romFail ≠ 0 then .fault .notDue
  else .next ((s.updConn t fun _ => { phase := 1, vca := spMsg 0x84 0 0 [] 0x10 ++ spVersionMsg }).answer t 0 spVersionMsg)
/-- The CAPABILITIES message: the flags CERT_CAP, CHAL_CAP and MEAS_CAP with signatures, in the standard's places. -/
def spCapabilitiesMsg : List Byte :=
  spMsg 0x61 0 0 ([0] ++ toBytes 1 (Config.spdmSizes 0) ++ [0, 0] ++ toBytes 4 0x16 ++ toBytes 4 (Config.spdmSizes 1) ++
    toBytes 4 (Config.spdmSizes 2))
/-- SPDM_GET_CAPABILITIES. -/
def execSpdmGetCapabilities (t ver : Nat) (s : State) : Out :=
  spdm t ver 1 s fun s => .next ((s.updConn t fun c => { c.reach 2 with
    vca := c.vca ++ spMsg 0xE1 0 0 (spRest ver 0 16) ++ spCapabilitiesMsg, meas := [] }).answer t 0 spCapabilitiesMsg)
/-- The bit of Ed448 in the algorithms offered. -/
def spEd448 : Nat := 11
/-- The ALGORITHMS message: measurements of DMTF's form hashed as a raw bit stream, Ed448 and SHA3-512. -/
def spAlgorithmsMsg : List Byte :=
  spMsg 0x63 0 0 (toBytes 2 36 ++ [1, 0] ++ toBytes 4 1 ++ toBytes 4 (2 ^ spEd448) ++ toBytes 4 (2 ^ 5) ++ List.replicate 16 0)
/-- SPDM_NEGOTIATE_ALGORITHMS: Ed448 and SHA3-512 must be offered. -/
def execSpdmNegotiateAlgorithms (t ver asym hash : Nat) (s : State) : Out :=
  spdm t ver 2 s fun s =>
    if tbit asym spEd448 && tbit hash 5 then
      let req := spMsg 0xE3 0 0 (toBytes 2 32 ++ spRest ver 0 2 ++ toBytes 4 asym ++ toBytes 4 hash ++ List.replicate 15 0 ++ spRest ver 2 1)
      .next ((s.updConn t fun c => { c.reach 3 with vca := c.vca ++ req ++ spAlgorithmsMsg, meas := [] }).answer t 0 spAlgorithmsMsg)
    else .next (s.answer t spInvalid)
/-- A slot is populated; slot 0 always is. -/
def State.certThere (s : State) (slot : Nat) : Bool := slot = 0 || (slot < 8 && !(s.cert slot).isEmpty)
/-- An exchange of digests or certificates joins the transcript. -/
def Conn.certTalk (c : Conn) (msgs : List Byte) : Conn := { c with certs := c.certs ++ msgs, meas := [] }
/-- The DIGESTS message: the slots supported and provisioned, and the digest of each chain. -/
def State.spDigestsMsg (s : State) : List Byte :=
  let slots := (List.range 8).filter s.certThere
  spMsg 0x01 0xFF (slots.foldl (fun m i => m + 2 ^ i) 0) (slots.flatMap fun i => sha3512 (s.cert i))
/-- SPDM_GET_DIGESTS. -/
def execSpdmGetDigests (t ver : Nat) (s : State) : Out :=
  spdm t ver 3 s fun s => .next ((s.updConn t (·.certTalk (spMsg 0x81 0 0 [] ++ s.spDigestsMsg))).answer t 0 s.spDigestsMsg)
/-- The CERTIFICATE message: portion and remainder lengths, and the bytes. -/
def State.spCertificateMsg (s : State) (slot off len : Nat) : List Byte :=
  let c := s.cert slot
  let p := (c.drop off).take len
  spMsg 0x02 slot 0 (toBytes 2 p.length ++ toBytes 2 (c.length - off - p.length) ++ p)
/-- SPDM_GET_CERTIFICATE. -/
def execSpdmGetCertificate (t ver slot off len : Nat) (s : State) : Out :=
  spdm t ver 3 s fun s =>
    if !s.certThere slot || (s.cert slot).length ≤ off then .next (s.answer t spInvalid)
    else
      let msg := s.spCertificateMsg slot off len
      .next ((s.updConn t fun x => { x.certTalk (spMsg 0x82 slot 0 (toBytes 2 off ++ toBytes 2 len) ++ msg) with
        cert := if (s.cert slot).length ≤ off + len then none else some slot }).answer t 0 msg)
/-- A measurement block of register `i`: DMTF's form, a raw bit stream. -/
def State.spBlock (s : State) (i : Nat) : List Byte :=
  toBytes 1 (i + 1) ++ [1] ++ toBytes 2 67 ++ [0x81] ++ toBytes 2 64 ++ s.measure i
/-- The CHALLENGE_AUTH message without its signature; `ver` carries above the version which measurements are summarised, the nonce and the
context of the request. -/
def State.spChallengeAuth (s : State) (ver slot : Nat) : List Byte :=
  spMsg 0x03 slot (2 ^ slot) (sha3512 (s.cert slot) ++ s.nonce ++
    (if spRest ver 0 1 = [0] then [] else sha3512 ((List.range 8).flatMap s.spBlock)) ++ toBytes 2 0 ++ spRest ver 33 8)
/-- The transcript of a CHALLENGE. -/
def State.spChallengeLog (s : State) (t ver slot : Nat) : List Byte :=
  (s.conn t).vca ++ (s.conn t).certs ++ spMsg 0x83 slot (ofBytes (spRest ver 0 1)) (spRest ver 1 40) ++ s.spChallengeAuth ver slot
/-- SPDM_CHALLENGE: the digest of the chain, signed. -/
def execSpdmChallenge (t ver slot : Nat) (s : State) : Out :=
  spdm t ver 3 s fun s =>
    if !s.certThere slot then .next (s.answer t spInvalid)
    else .next ((State.updConn { s with free := s.free + 4 } t fun c => { c with certs := [], meas := [] }).answer t 0
      (s.spChallengeAuth ver slot ++ s.spSign "responder-challenge_auth signing" (s.spChallengeLog t ver slot)))
/-- The MEASUREMENTS message without its signature: index 0 the count, 1 to 8 one register, 0xFF all. `ver` carries above the version the
attributes (bit 0: a signature is asked for), the nonce, the slot and the context of the request. -/
def State.spMeasurementsMsg (s : State) (ver idx : Nat) : List Byte :=
  let l := if idx = 0 then [] else if idx = 0xFF then List.range 8 else [idx - 1]
  let record := l.flatMap s.spBlock
  spMsg 0x60 (if idx = 0 then 8 else 0) (ofBytes (spRest ver 33 1) % 16)
    (toBytes 1 l.length ++ toBytes 3 record.length ++ record ++ s.nonce ++ toBytes 2 0 ++ spRest ver 34 8)
/-- GET_MEASUREMENTS asks for a signature. -/
def spSigned (ver : Nat) : Bool := tbit ver 8
/-- The transcript of measurements, from the first request since the last signature. -/
def State.spMeasureLog (s : State) (t ver idx : Nat) : List Byte :=
  (s.conn t).meas ++ spMsg 0xE0 (ofBytes (spRest ver 0 1)) idx (if spSigned ver then spRest ver 1 41 else spRest ver 34 8)
    ++ s.spMeasurementsMsg ver idx
/-- SPDM_GET_MEASUREMENTS. -/
def execSpdmGetMeasurements (t ver idx : Nat) (s : State) : Out :=
  spdm t ver 3 s fun s =>
    if 8 < idx && idx ≠ 0xFF then .next (s.answer t spInvalid)
    else
      let log := s.spMeasureLog t ver idx
      let sign := if spSigned ver then s.spSign "responder-measurements signing" ((s.conn t).vca ++ log) else []
      .next ((State.updConn { s with free := s.free + 4 } t fun c => { c with certs := [], meas := if spSigned ver then [] else log }).answer t 0
        (s.spMeasurementsMsg ver idx ++ sign))
/-- SPDM_UNSUPPORTED_REQUEST: a request code that has no event of its own. -/
def execSpdmUnsupportedRequest (t ver code : Nat) (s : State) : Out :=
  if code ∈ [0x81, 0x82, 0x83, 0x84, 0xE0, 0xE1, 0xE3] then .fault .notDue
  else spdm t ver 0 s fun s => .next (s.answer t spUnsupported)

end Sys2Proof.Machine
end

