-- ==== Sys2Proof/Machine/Test.lean ====
section
/-! DEFINITION. Self-test, margining, rails, the defect map and the board controller's commands (17 R400 to R407). -/
namespace Sys2Proof.Machine

/-! ### Rows without a world, and the storage of a self-test -/

/-- The row of a die is assigned to a world (14 R352). -/
def State.assigned (s : State) (die : Nat) : Bool := (s.dieWorld die).isSome
/-- Register number of a margin register (R403; log 36): lane group e of die n is 4 n + e, HBM PHY k is 256 + k, lane l of UALink
station t is 288 + 4 t + l. -/
def marginGroup (die e : Nat) : Nat := 4 * die + e
def marginCount : Nat := 544
/-- A margin register. -/
def State.margin (s : State) (r : Nat) : Nat := sget 0 s.margins r

/-! ### The defect map and the repair record (R405; 13 R349) -/

/-- Byte `i` of a die's defect map: what the layout fixes, and fuses elsewhere (R405; log 17). -/
def mapByte (die i : Nat) : Byte :=
  let f := Config.defectMap die i
  if i = 0 then 1
  else if i = 1 then BitVec.ofNat 8 die
  else if i = 2 || i = 3 || (0x11 ≤ i && i < 0x18) || (0xE4 ≤ i && i < 0xF8) then 0
  else if i = 0x10 then f &&& 0x0F
  else if 0x18 ≤ i && i < 0x58 then f &&& 0x7F
  else f
/-- A field of `n` bytes. -/
def mapNat (die i n : Nat) : Nat := ofBytes ((List.range n).map fun j => mapByte die (i + j))
/-- L2 slices that the map disables, and the lane that edge `e` has had repaired. -/
def mapL2off (die : Nat) : Nat := mapNat die 0x58 4
def mapLane (die e : Nat) : Option Nat :=
  let x := mapNat die (0x5C + 2 * e) 2
  if tbit x 7 then some (bits x 0 6) else none
/-- Enabled L2 slices of a die (R405; 01 R22). -/
def State.l2Slices (s : State) (die : Nat) : Nat :=
  ((List.range 32).filter fun i => !tbit (mapL2off die ||| sget 0 s.l2off die) i).length
/-- Key of a resource in the tables of counts and spares. -/
def resKey (die : Nat) (r : Nat × Nat) : Nat := die * 2 ^ 80 + r.1 * 2 ^ 76 + r.2
/-- The structure, as a key of spares, whose spare the fused repair `k` takes (R405): a pool bank, a cluster SRAM or an L2 slice. -/
def mapRepair (die k : Nat) : Option Nat :=
  let x := mapNat die (0x64 + 4 * k) 4
  let unit := bits x 22 6
  let row := bits x 0 22
  if !tbit x 31 then none
  else match bits x 28 3 with
  | 0 => some (resKey die (1, unit * 16 + row / 2 % 16))
  | 1 => some (resKey die (6, 64 + unit % 4))
  | 2 => some (resKey die (2, unit % 32))
  | _ => none
/-- Spares of a structure that fused repairs take. -/
def fusedSpares (die key : Nat) : Nat :=
  ((List.range 32).filter fun k => mapRepair die k == some key).length
    + ((List.range 4).filter fun e => (mapLane die e).isSome && resKey die (3, e) == key).length
/-- An entry of the repair record (13 R349; log 37): [63] valid, [62] no spare was left, [61:56] die, [55:52] class, [51:0] resource; of a
lane group, [51:4] the lane and [3:0] the group. -/
def repairWord (die : Nat) (r : Nat × Nat) (last : Bool) : Nat :=
  2 ^ 63 + b2n last * 2 ^ 62 + die * 2 ^ 56 + r.1 * 2 ^ 52 + r.2 % 2 ^ 52

/-! ### bist (R400 to R402) -/

/-- Target, instance and pattern of a test word, and the tile that the Separator's form names. -/
def bTarget (x : Nat) : Nat := bits x 0 8
def bInst (x : Nat) : Nat := bits x 8 8
def bPat (x : Nat) : Nat := bits x 16 8
/-- Instances and patterns that each target admits (R401), none for an unlisted target. -/
def bistRange (t : Nat) : Option (Nat × Nat) := match t with
  | 1 => some (16, 4) | 2 => some (4, 4) | 3 => some (32, 4) | 4 => some (1, 1) | 5 => some (1, 1) | 6 => some (1, 4)
  | 7 => some (4, 1) | 8 => some (32, 1) | 9 => some (64, 1) | _ => none
/-- The test word or seed is refused (ENGINE 80); `sep`: the Separator's form, with a tile address in [35:24]. -/
def badTest (sep : Bool) (x seed : Nat) : Bool :=
  2 ^ 32 ≤ seed || (if sep then 2 ^ 36 ≤ x else 2 ^ 24 ≤ x) ||
    match bistRange (bTarget x) with
    | some (n, p) => n ≤ bInst x || p ≤ bPat x
    | none => true
/-- A target of mode M. -/
def bistM (t : Nat) : Bool := t < 4 || 7 ≤ t
/-- Tiles of cluster `i` of a die. -/
def clusterTiles (die i : Nat) : List Nat := ((List.range 64).map fun t => die * 64 + t).filter fun g => clusterOf g == i
/-- The precondition of the test at tile `g` holds (R401); a die that is held in reset is tested no more (R407). -/
def State.bistReady (s : State) (g x : Nat) : Bool :=
  let die := g / 64
  !sget false s.deadDie die && match bTarget x with
  | 1 => !(s.tile g).run && !s.assigned die
  | 2 => !s.assigned die && (clusterTiles die (bInst x)).all fun h => !(s.tile h).run
  | 3 => !s.assigned die
  | 7 => tbit (s.margin (marginGroup die (bInst x))) 62
  | 8 => !s.assigned (bInst x / 4 * 8)
  | 9 => !s.assigned (bInst x / 8 * 8)
  | _ => true
/-- The result word: which errors the test finds is a free value (log 18). -/
def bistWord (draw g x seed : Nat) : Word :=
  let r := (Config.bist draw g x (if bPat x = 3 then seed else 0)).toNat
  let n := bits r 32 16
  BitVec.ofNat 64 (if n = 0 then 0 else 2 ^ 63 + n * 2 ^ 32 + bits r 0 32)
/-- A 64-byte line of a pool bank, by its number in the bank (05 R113). -/
def bankLine (g bank i : Nat) : Nat := flat (ownSp g) ((i * 16 + bank) * 64)
/-- `n` bytes of SRAM from flat address `a`, a multiple of 8, lose their contents: bytes and full/empty bits are free values, and no word
carries the poison syndrome any more (05 R123, R137). -/
def State.lose (s : State) (draw a n i : Nat) : State :=
  { s with mem := mwrite s.mem a ((List.range n).map fun j => Config.lostByte draw (i + j))
           fe := (List.range (n / 8)).foldl (fun m j => sput true m (a / 8 + j) ((Config.lostByte draw (2 ^ 32 + i / 8 + j)).getLsbD 0)) s.fe
           badw := s.badw.filter fun p => !(decide (a / 8 ≤ p.1) && decide (p.1 < (a + n) / 8)) }
/-- The enabled L2 slices among which the line of a sector has its home, as die × 32 + slice (01 R20, R22): those of all dies of the world
that holds the sector's die, or, where none does, of all dies that no world holds (log 108). -/
def State.homeSlices (s : State) (sector : Nat) : List Nat :=
  let die := sector * 256 / 2 ^ 48 / 128
  ((List.range 64).filter fun d => s.dieWorld d == s.dieWorld die).flatMap fun d =>
    ((List.range 32).filter fun i => !tbit (mapL2off d ||| sget 0 s.l2off d) i).map fun i => d * 32 + i
/-- The home slice of a sector: that of its line of 1,024 bytes, by the world's hash. -/
def State.homeOf (s : State) (sector : Nat) : Option Nat :=
  let l := s.homeSlices sector
  l[Config.homeSlice l (sector / 4) % l.length]?
/-- What the test does to the state: destructive targets lose their contents, and target 6 leaves every weight slot invalid. -/
def State.bistEffect (s : State) (g x : Nat) : State :=
  let die := g / 64
  let d := s.free
  let s := { s with free := d + 1 }
  match bTarget x with
  | 1 => (List.range 2048).foldl (fun (s : State) i => s.lose d (bankLine g (bInst x) i) 64 (64 * i)) s
  | 2 => s.lose d (flat (die * 128 + 64 + bInst x) 0) (2 ^ 24) 0
  | 3 => (s.l2.filter fun p => s.homeOf p.1 == some (die * 32 + bInst x)).foldl
      (fun (s : State) p => s.secDrop p.1) s
  | 6 => s.updTile g fun t => { t with wslots := [] }
  | _ => s
/-- BIST (R400): the word is checked, then the mode, then the precondition; a logic target waits until its unit is idle, which a unit under
test is not, and the test lasts until its window closes (R402; log 90). -/
def execBist (la a b d : Nat) (s : State) : Out :=
  let i : Instr := .bist la a b d
  let x := s.xn a
  let seed := s.xn b
  let sep := s.me.mode == .m
  let g := if sep then bits x 24 12 else s.gta
  if s.me.mode = .u then s.modeFault i
  else mxInstr s fun s =>
    if badTest sep x seed then s.engine 80
    else if bistM (bTarget x) && !sep then s.modeFault i
    else if !s.bistReady g x then s.engine 81
    else if s.unitBusy g (bTarget x) || (testUnit (bTarget x)).any (s.boardTest g) then .next (s.holdOn (.selfTest g (bTarget x)))
    else
      let n := 7 + Config.bistCycles s.free
      .next (((s.bistEffect g x).openW la i (.done { xs := [(d, bistWord s.free g x seed)] }) (extra := n) (prompt := true)).updTile g
        fun t => { t with tests := t.tests.filter (fun u => decide (s.cycle < u.2.2)) ++ [(bTarget x, s.cur, s.cycle + n)] })

/-! ### Margining and rails (R403, R404) -/

/-- A signed offset of eight bits in ±32. -/
def offsetOk (v : Nat) : Bool := (signed 8 v).natAbs ≤ 32
/-- The lane of a die-to-die group is marked failed in the defect map (R405) or in the repair record (13 R349). -/
def State.laneFailed (s : State) (r lane : Nat) : Bool :=
  r < 256 && (mapLane (r / 4) (r % 4) == some lane
    || s.repairs.any fun x => bits x 56 6 == r / 4 && bits x 52 4 == 3 && bits x 0 4 == r % 4 && bits x 4 48 == lane)
/-- A margin register written; none when the write is refused. -/
def State.marginWrite (s : State) (r v : Nat) : Option State :=
  let dwell := min 40 (bits v 48 8)
  if !offsetOk (bits v 40 8) || !offsetOk (bits v 32 8) || (tbit v 63 && s.laneFailed r (bits v 56 6)) then none
  else
    let new := setBits (setBits v 48 8 dwell) 0 32 (bits (s.margin r) 0 32)
    some { s with margins := sput 0 s.margins r (if r < 256 then new else setBits new 62 1 0) }
/-- MARGIN_POINT_START (R403): the Separator writes run = 1; a refused write leaves the register. -/
def execMarginPointStart (reg v : Nat) (s : State) : Out :=
  if marginCount ≤ reg then .fault .noSuchUnit
  else if !tbit v 63 then .fault .notDue
  else .next ((s.marginWrite reg (v % 2 ^ 64)).getD s)
/-- MARGIN_POINT_COMPLETE: errs is written and run cleared. -/
def execMarginPointComplete (reg errs : Nat) (s : State) : Out :=
  let v := s.margin reg
  if !tbit v 63 then .fault .notDue
  else .next { s with margins := sput 0 s.margins reg (setBits (setBits v 63 1 0) 0 32 errs) }
/-- A rail offset as a signed number. -/
def railOfs (v : Nat) : Int := signed 8 v
/-- railofs of a die written; none when the write is refused: while the die's row is assigned, and outside −10 to +10 (R404). -/
def State.railWrite (s : State) (die v : Nat) : Option State :=
  if s.assigned die || 10 < (railOfs v).natAbs then none
  else some { s with railsNew := sput none s.railsNew die (some (railOfs v, s.cycle)) }
/-- RAIL_OFFSET_WRITE (R404); a refused write leaves the register. -/
def execRailOffsetWrite (die v : Nat) (s : State) : Out :=
  if 64 ≤ die then .fault .noSuchUnit else .next ((s.railWrite die v).getD s)
/-- RAIL_OFFSET_APPLIED: the written offset takes effect. -/
def execRailOffsetApplied (die : Nat) (s : State) : Out :=
  match sget none s.railsNew die with
  | none => .fault .notDue
  | some (v, _) => .next { s with rails := sput 0 s.rails die v, railsNew := sput none s.railsNew die none }

/-- 100 microseconds in cycles, within which a written offset takes effect. -/
def railTime : Nat := 150000
/-- A written offset must take effect in this cycle. -/
def State.railDue (s : State) : Bool := s.railsNew.any fun p => p.2.any fun x => decide (x.2 + railTime ≤ s.cycle)

/-! ### Commands of the board controller (R406) -/

/-- The board controller's channel. -/
def chBoard : Nat := 48
/-- An answer: 0 done, 1 absent, 2 refused, 3 busy. -/
def State.board (s : State) (code : Nat) (bs : List Byte := []) : Out := .next (s.answer chBoard code bs)
/-- A command that bring-up must have come before: 3 until then, and while a refused image holds the package (R407). -/
def boardCmd (s : State) (k : Out) : Out := if !s.up || s.romFail ≠ 0 then s.board 3 else k
/-- MAP_READ. -/
def execMapRead (die off len : Nat) (s : State) : Out :=
  if 64 ≤ die || 256 < off + len then s.board 1
  else if len = 0 || 32 < len then s.board 2
  else s.board 0 ((List.range len).map fun i => mapByte die (off + i))
/-- The 32 bytes of a record (13 R350). -/
def BbRec.bytes (r : BbRec) : List Byte :=
  toBytes 8 r.tick ++ toBytes 8 (r.code % 256 * 2 ^ 56 + r.slot % 256 * 2 ^ 48 + r.gta % 4096 * 2 ^ 36 + r.cls % 16 * 2 ^ 32)
    ++ toBytes 8 (r.cause % 2 ^ 32 * 2 ^ 32 + r.runid % 2 ^ 32) ++ toBytes 8 r.info
/-- BLACK_BOX_READ: a place that holds no record yet reads as zeros. -/
def execBlackBoxRead (die r : Nat) (s : State) : Out :=
  if 64 ≤ die || 4096 ≤ r then s.board 1
  else s.board 0 (((sget [] s.bbox die).reverse[r]?.map BbRec.bytes).getD (List.replicate 32 0))
/-- REPAIR_RECORD_READ: entries as R349 leaves them (log 37). -/
def execRepairRecordRead (idx : Nat) (s : State) : Out :=
  boardCmd s (match s.repairs[idx]? with
    | some e => s.board 0 (toBytes 8 e)
    | none => s.board 1)
/-- railofs of a die as it is read: the value last written, in eight bits. -/
def State.railByte (s : State) (die : Nat) : Nat :=
  (BitVec.ofInt 8 (((sget none s.railsNew die).map (·.1)).getD (sget 0 s.rails die))).toNat
/-- MARGIN_ACCESS: the margin registers, and from 544 on railofs of each die (R404; log 36). -/
def execMarginAccess (reg wr v : Nat) (s : State) : Out :=
  boardCmd s (
    if marginCount + 64 ≤ reg then s.board 1
    else if marginCount ≤ reg then
      let die := reg - marginCount
      if wr = 0 then s.board 0 (toBytes 8 (s.railByte die))
      else match s.railWrite die v with
      | some s' => s'.board 0 (toBytes 8 (s'.railByte die))
      | none => s.board 2
    else if wr = 0 then s.board 0 (toBytes 8 (s.margin reg))
    else match s.marginWrite reg (v % 2 ^ 64) with
    | some s' => s'.board 0 (toBytes 8 (s'.margin reg))
    | none => s.board 2)
/-- SELF_TEST: the Separator's form of the test word; a tile of another die is absent. -/
def execSelfTest (die word seed : Nat) (s : State) : Out :=
  boardCmd s (
    if 64 ≤ die then s.board 1
    else if (sget none s.tests die).isSome then s.board 3
    else if badTest true word seed || !s.bistReady (bits word 24 12) word then s.board 2
    else if bits word 24 12 / 64 ≠ die then s.board 1
    else .next { s with tests := sput none s.tests die (some (word, seed)) })
/-- SELF_TEST_COMPLETE. -/
def execSelfTestComplete (die : Nat) (s : State) : Out :=
  match sget none s.tests die with
  | none => .fault .notDue
  | some (x, seed) =>
    let g := bits x 24 12
    if s.unitBusy g (bTarget x) then .fault .notDue
    else
      let s' := s.bistEffect g x
      { s' with tests := sput none s'.tests die none }.board 0 (toBytes 8 (bistWord s.free g x seed).toNat)
/-- OPERATOR_WORLD: a world number from 0 to 7, or 0xFF for none. -/
def execOperatorWorld (v : Nat) (s : State) : Out :=
  boardCmd s (
    if v < 8 then { s with opWorld := v + 1 }.board 0
    else if v = 0xFF then { s with opWorld := 0 }.board 0
    else s.board 1)

end Sys2Proof.Machine
end

