-- ==== Sys2Proof/Machine/Errors.lean ====
section
/-! DEFINITION. Errors and their containment (05 R137; 13 R343 to R351; 04 R111), throttling (01 R24), and the resets of the package
(14 R366, R367; 17 R407; 13 R350). -/
namespace Sys2Proof.Machine

/-! ### Fencing (13 R346) -/

/-- A window that waits at the port of tile `g`, for a full/empty word, a landing word or a ring, fails with CAP_POISON. -/
def Win.atFenced (g : Nat) (w : Win) : Win :=
  let fail (c : Cap) : Win := if isOwn g c.o then { w with st := .fail cCAP_POISON c.o } else w
  match w.st with
  | .wait (.fe _ c _ _ _ _ _ _) => fail c
  | .wait (.land c _ _ _) => fail c
  | .wait (.pop c _ _ _) => fail c
  | .wait (.push c _ _) => fail c
  | _ => w
/-- Every request that waits at the fenced tile's port is answered with CAP_POISON (04 R111). -/
def State.failWaiters (s : State) (g : Nat) : State :=
  let pushes := s.cmds.filter fun c => match c.op with
    | .push ring _ _ _ _ (some _) => isOwn g ring.o && !c.fin
    | _ => false
  let s := { s with slots := s.slots.map fun p => (p.1, { p.2 with wins := p.2.wins.map (Win.atFenced g) }) }
  let s : State := pushes.foldl (fun (s : State) c => s.updCmd c.id fun x => { x with fin := true }) s
  { s with waits := sput [] s.waits (ownSp g) [], stopq := sput [] s.stopq g [] }
/-- The objects that the tile owned are freed, as obj.free in S mode would (04 R111). -/
def State.reclaim (s : State) (g : Nat) : State :=
  let w := s.dieWorld (g / 64)
  let mine := (s.entries.filter fun p => p.2.valid && p.2.owner == g && s.dieWorld (oidDie p.1) == w).map (·.1)
  mine.foldl (fun (s : State) o => s.freeObj o) s
/-- Tile `g` is fenced: its slots halt and lose their contexts, its engines stop, and what is on its way to it bounces (log 38). -/
def State.fence (s : State) (g : Nat) : State :=
  if (s.tile g).fenced then s
  else
    let die := g / 64
    let s := { s with keyEnds := s.keyEnds ++ (List.range 16).flatMap fun i => (s.slot (g * 16 + i)).endingKeys }
    let s := s.forSlots g (fun _ t =>
      { nextWid := t.nextWid, dcsr := t.dcsr, dpc := t.dpc, dscratch0 := t.dscratch0, nextAt := s.cycle }) 16
    let q := (s.tile g).entryQ
    let s := ((List.range 16).foldl (fun (s : State) i => s.unlistAll (g * 16 + i)) s).failWaiters g
    let s := { s with cmds := s.cmds.filter (fun c => c.g != g), treqs := s.treqs.filter (fun r => r.g != g),
                      late := s.late.filter (fun p => p.1 / 16 != g),
                      subs := s.subs.filter (fun p => match p.2 with
                        | some u => u.tile != g
                        | none => false),
                      l1 := sput [] s.l1 g [], hold := s.hold.filter (fun p => p.1 / 4096 != g),
                      claims := s.claims.filter (fun p => p.1 / 4096 != g) }
    -- what the tile's own engine had not yet placed anywhere is lost with it; a bounce fails only where 10 R264 says so
    let s := { s with msgs := s.msgs.filter fun m => m.holder != g || m.ret || (match m.st with
      | .reserved _ => true
      | _ => false) }
    let s := s.updTile g fun t => { t.cleared with fenced := true, run := t.run, runid := t.runid, pword := t.pword, tlo := t.tlo, thi := t.thi }
    let s := s.reclaim g
    let s : State := (s.msgs.filter fun m => m.dest == g).foldl (fun (s : State) m => s.bounce m 23) s
    let s : State := q.foldl (fun (s : State) c => s.ctxArrive { c with back := true }) s
    let s : State := { s with runs := s.runs.map fun (p : Nat × Run) =>
      if p.2.st == .running && (setTiles p.2.tlo p.2.thi).contains g && p.2.damaged.isNone then (p.1, { p.2 with damaged := some g }) else p }
    s.bb die ⟨s.tick, 7, 0xFF, g, 4, (s.tile g).runid, 0, g⟩
/-- TILE_FENCE. -/
def execTileFence (g : Nat) (s : State) : Out :=
  if 4096 ≤ g then .fault .noSuchUnit else if (s.tile g).fenced then .fault .notDue else .next (s.fence g)

/-! ### Counting and retirement (13 R347 to R349) -/

/-- Where an error lies, by its die, class and resource number (log 39). -/
inductive Place where
  /-- A byte of a pool or cluster SRAM: port and address. -/
  | sram (port a : Nat)
  /-- A holding entry, an object-table entry, a byte of the overlay, a line of the L1 by its place in the list: local tile. -/
  | holding (t i : Nat) | entry (o : Nat) | overlay (t a : Nat) | l1 (t i : Nat)
  /-- A byte of the L2 by the slice row, port and address that it holds. -/
  | l2 (row port a : Nat)
  | link (lane : Nat) | logic (t : Nat)
  /-- A byte of HBM; `mac`: the failure is one of integrity (class 2). -/
  | hbm (a : Nat) (mac : Bool)
  deriving DecidableEq, Repr

/-- The place that an event's arguments name. -/
def placeOf (die cls res : Nat) : Option Place :=
  if 64 ≤ die then none
  else match cls with
  | 1 =>
    let x := res % 2 ^ 40
    (match res / 2 ^ 40 with
    | 0 => if x / 2 ^ 24 < 68 && x % 2 ^ 24 < portSize (x / 2 ^ 24) then some (.sram (x / 2 ^ 24) (x % 2 ^ 24)) else none
    | 1 => if x < 64 * 4096 then some (.holding (x / 4096) (x % 4096)) else none
    | 2 => if x < 2 ^ 22 && namesEntry (die * 2 ^ 22 + x) then some (.entry (die * 2 ^ 22 + x)) else none
    | 3 => if x < 64 * 65536 then some (.overlay (x / 65536) (x % 65536)) else none
    | 4 => if x < 64 * 65536 then some (.l1 (x / 65536) (x % 65536)) else none
    | _ => none)
  | 2 =>
    let x := res % 2 ^ 64
    if (x / 2 ^ 48 = 68 || x / 2 ^ 48 = 69) && x % 2 ^ 48 < portSize (x / 2 ^ 48) then some (.l2 (res / 2 ^ 64) (x / 2 ^ 48) (x % 2 ^ 48)) else none
  | 3 => if res < 4 then some (.link res) else none
  | 4 => if res < 64 then some (.logic res) else none
  | 5 => if res < 2 ^ 35 then some (.hbm res false) else none
  | 6 => if res < 2 ^ 35 then some (.hbm res true) else none
  | _ => none

/-- The resource that counts the error (R348): class and number. An SRAM row has 256 bits (17 R402; log 39). -/
def Place.resource : Place → Nat × Nat
  | .sram p a => (1, p * 2 ^ 24 + a / 32)
  | .holding t _ => (4, t) | .overlay t _ => (4, t) | .l1 t _ => (4, t) | .logic t => (4, t)
  | .entry o => if oidPort o < 64 then (4, oidPort o) else (1, 2 ^ 40 + oidPort o)
  | .l2 row _ _ => (2, row)
  | .link l => (3, l)
  | .hbm a _ => (5, a / 65536)
/-- The class of a black-box record (R350), and its tile. -/
def Place.cls (p : Place) : Nat := p.resource.1
def Place.gta (die : Nat) : Place → Nat
  | .sram p _ => die * 64 + if p < 64 then p else 0
  | .holding t _ => die * 64 + t | .overlay t _ => die * 64 + t | .l1 t _ => die * 64 + t | .logic t => die * 64 + t
  | .entry o => die * 64 + if oidPort o < 64 then oidPort o else 0
  | _ => die * 64
/-- A record of an error. -/
def State.bbErr (s : State) (die code : Nat) (p : Place) (info : Nat) : State :=
  let g := p.gta die
  s.bb die ⟨s.tick, code, 0xFF, g, p.cls, (s.tile g).runid, 0, info⟩
/-- The threshold of a class (R347). -/
def State.threshold (s : State) (die cls : Nat) : Nat :=
  let t := sget 0x0004004000100010 s.errthr die
  match cls with
  | 1 => bits t 0 16 | 2 => bits t 16 16 | 3 => bits t 32 16 | 4 => bits t 48 16 | _ => 0

/-- Spares of a structure (R349): the key of their count, and how many there are. The ways of an L2 slice are 16 (log 121). -/
def Place.spare (die : Nat) : Place → Nat × Nat
  | .sram p a => if p < 64 then (resKey die (1, p * 16 + a / 64 % 16), 8) else (resKey die (6, p), 64)
  | .l2 row _ _ => (resKey die (2, row / 2 ^ 20), 16)
  | .link l => (resKey die (3, l), 1)
  | .entry o => if oidPort o < 64 then (0, 0) else (resKey die (6, oidPort o), 64)
  | _ => (0, 0)
/-- A tile event: a retirement at the tile (13 R342). -/
def State.retireEvent (s : State) (die : Nat) (p : Place) : State := s.tileEvent (p.gta die) 2
/-- What retires a resource whose fault is lasting (R349): the record in the black box and in the repair record, a spare where one
remains, and the last column where none does. Which lane of a group is struck is a free value (log 103). -/
def State.retire (s : State) (die : Nat) (p : Place) (res : Nat) : State :=
  let s := s.bbErr die 6 p res
  let x := p.spare die
  let used := sget 0 s.spares x.1 + fusedSpares die x.1
  let what : Nat × Nat := match p with
    | .link l => (3, l + 16 * (Config.failedLane s.free % 64))
    | _ => p.resource
  let s := { s with repairs := s.repairs ++ [repairWord die what (x.2 ≤ used)], free := s.free + 1 }
  let spared := { s with spares := sput 0 s.spares x.1 (sget 0 s.spares x.1 + 1) }
  match p with
  | .sram port a =>
    if used < x.2 then (if port < 64 then spared.retireEvent die p else spared)
    else if port < 64 then (s.retireEvent die p).fence (die * 64 + port)
    else { s with dead := sput 0 s.dead (flat (die * 128 + port) (a / 64 * 64)) 64 }
  | .l2 row _ _ =>
    if used < x.2 then spared
    else { s with l2new := sput 0 s.l2new die (sget 0 s.l2new die ||| 2 ^ (row / 2 ^ 20 % 32)) }
  -- the second retirement of a lane group leaves it at half width (17 R403)
  | .link _ => if used < x.2 + 1 then spared else s
  | .hbm a _ => { s with dead := sput 0 s.dead (flat (die * 128 + 68) (a / 65536 * 65536)) 65536 }
  | .entry o => if oidPort o < 64 then s.fence (die * 64 + oidPort o) else if used < x.2 then spared else s
  | _ => s.fence (p.gta die)

/-- Corrected events of the resource have a threshold (R347): not those of HBM, nor the replays of a mesh hop. -/
def Place.counted : Place → Bool
  | .hbm .. => false
  | .link l => decide (l < 4)
  | _ => true
/-- `n` corrected events or replays, or one uncorrected event, counted against the resource; a fault that is lasting retires it: in this
window the corrected count has reached the threshold, or the uncorrected event is not the first (R348). -/
def State.countErr (s : State) (die : Nat) (p : Place) (res n : Nat) (un : Bool) : State :=
  let win := sget 0x7DBA8218000 s.errwin die
  if win = 0 then s
  else
    let key := resKey die p.resource
    let c := sget (0, 0) s.errCnt key
    let c' := if un then (c.1, c.2 + 1) else (c.1 + n, c.2)
    let s := { s with errCnt := sput (0, 0) s.errCnt key c' }
    let t := s.threshold die p.cls
    if (p.counted && decide (t ≤ c'.1)) || (un && decide (2 ≤ c'.2)) then (s.bbErr die 5 p res).retire die p res else s

/-- What is dropped and fetched again, or loses its parity (05 R137). -/
def State.dropCopy (s : State) (die : Nat) : Place → State
  | .overlay t a => s.updTile (die * 64 + t) fun u =>
      { u with ov := sput {} u.ov (a / 8192) { sget {} u.ov (a / 8192) with valid := false } }
  | .l1 t i => { s with l1 := sput [] s.l1 (die * 64 + t) ((s.l1Of (die * 64 + t)).eraseIdx i) }
  | _ => s
/-- CORRECTABLE_ERROR (05 R137): corrected, or dropped and fetched again; and counted. -/
def execCorrectableError (die cls res : Nat) (s : State) : Out :=
  match placeOf die cls res with
  | none => .fault .noSuchUnit
  | some p => .next (((s.dropCopy die p).bbErr die 1 p res).countErr die p res 1 false)

/-- The word of byte `a` carries the poison syndrome, and the object that holds it is poisoned (13 R345, 04 R111); an integrity failure
(`syn` 2) poisons it at the access that meets it, which reports INTEGRITY. -/
def State.poisonAt (s : State) (sp a syn : Nat) : State :=
  let s := { s with badw := sput 0 s.badw (flat sp a / 8) syn }
  if syn = 2 then s else match s.objectAt sp a with
  | some o => s.poisonObj o
  | none => s
/-- An uncorrectable error of a pool (05 R118, R137): in a vector file the register holds the error; in a commit buffer the strand of
the slot takes MCHECK; anywhere else the object is poisoned. -/
def State.poolError (s : State) (g a : Nat) : State :=
  let t := s.tile g
  let cb := 0x1000 + 16 * t.vfile
  if t.run && 0x1000 ≤ a && a < cb then
    s.updSlot (g * 16 + (a - 0x1000) / t.vfile) fun u => { u with badv := setBits u.badv ((a - 0x1000) % t.vfile / 128) 1 1 }
  else if t.run && cb ≤ a && a < cb + t.cdl * 4096 then
    let k := g * 16 + t.pers + (a - cb) / 4096
    if (s.slot k).holds then
      s.updSlot k fun u => { u.endCounting with dfs := u.dfs ++ [(u.nextWid, cMCHECK, 2, u.pc.toNat)] }
    else s
  else s.poisonAt (ownSp g) a 1
/-- What an uncorrectable error does where it lies (05 R137). -/
def State.damage (s : State) (die : Nat) (p : Place) : State := match p with
  | .sram port a => if port < 64 then s.poolError (die * 64 + port) a else s.poisonAt (die * 128 + port) a 1
  | .holding t i => { s with badh := sput 0 s.badh ((die * 64 + t) * 4096 + i) 1 }
  | .entry o => s.updEntry o fun e => { e with bad := true, poison := true }
  | .l2 _ port a =>
    let sp := die * 128 + port
    if sget 0 s.l2 (flat sp a / 256) = 0 then s else s.poisonAt sp a 1
  | .hbm a mac => s.poisonAt (die * 128 + 68) a (if mac then 2 else 1)
  | .logic t => s.fence (die * 64 + t)
  | .link _ => s
  | .overlay .. => s.dropCopy die p
  | .l1 .. => s.dropCopy die p
/-- UNCORRECTABLE_ERROR (13 R345). -/
def execUncorrectableError (die cls res : Nat) (s : State) : Out :=
  match placeOf die cls res with
  | none => .fault .noSuchUnit
  | some p =>
    let code := match p with
      | .hbm _ true => 14
      | _ => 2
    .next (((s.damage die p).bbErr die code p res).countErr die p res 1 true)

/-- A flit of 64 bytes is delivered with the poison syndrome (R343, R344): one that brings the 64 bytes at flat address ÷ 64 `a` to their
storage leaves its eight words with it. -/
def State.flitPoison (s : State) (a : Nat) : State :=
  { s with badw := (List.range 8).foldl (fun m i => sput 0 m (a * 8 + i) 1) s.badw }
/-- A flit that carries the answer of a load fails it: the access has read a poisoned word (R345). -/
def State.answerPoison (s : State) (k w : Nat) : State :=
  match (s.slot k).wins.find? fun x => x.id == w && x.obj != 0 && (match x.st with
      | .done _ => true
      | _ => false) with
  | some x => (if isWindow x.obj then s else s.poisonObj x.obj).endWin k w (.fail cCAP_POISON x.obj)
  | none => s
/-- What a poisoned flit carries, by the bits of LINK_CRC_FAILURE's argument from 4 on: 0 nothing that is kept; an odd number the strand
key in [17:1] and from bit 18 the window of a load; an even one twice the flat address ÷ 64, plus 2. -/
def State.flitLost (s : State) (x : Nat) : State :=
  if x = 0 then s else if x % 2 = 1 then s.answerPoison (bits x 1 17) (x / 2 ^ 18) else s.flitPoison (x / 2 - 1)
/-- Where data crosses a link of `die`: lane groups 0 to 3, 4 + t the hop of the mesh at tile t, 68 the stop of the host ring, 69 the CXL
port (01 R19: dies 3 and 60), 70 the UALink stations (R18: four on each edge die of a row). Die 64 is the Separator die, which has a stop
of the host ring alone. -/
def linkThere (die lane : Nat) : Bool :=
  if lane < 68 then decide (die < 64)
  else if lane = 68 then decide (die ≤ 64)
  else if lane = 69 then die == 3 || die == 60
  else lane == 70 && decide (die < 64) && (die % 8 == 0 || die % 8 == 7)
/-- LINK_CRC_FAILURE (R343, R344): one flit fails [3:0] of `what` times and is replayed each time; after the eighth failure it is
delivered with the poison syndrome, and the model counts 8 replays for it (log 77). The other bits of `what` say what it carries. At lanes
68 to 70 of `linkThere` nothing is replayed and the one failure is the last. Replays that margining causes are not counted (17 R403). The
black box records what happens at a die's link (R350). -/
def execLinkCrcFailure (die lane what : Nat) (s : State) : Out :=
  let n := what % 16
  if !linkThere die lane then .fault .noSuchUnit
  else if n = 0 || (if 68 ≤ lane then 1 else 8) < n then .fault .notDue
  else
    let g := if 4 ≤ lane && lane < 68 then die * 64 + (lane - 4) else die * 64
    let rec_ (s : State) (code : Nat) : State :=
      if die < 64 then s.bb die ⟨s.tick, code, 0xFF, g, 3, (s.tile g).runid, 0, lane⟩ else s
    if 68 ≤ lane then .next ((rec_ s 2).flitLost (what / 16))
    else
      let s := rec_ s 3
      let s := if n = 8 then (rec_ s 4).flitLost (what / 16) else s
      .next (if lane < 4 && tbit (s.margin (marginGroup die lane)) 63 then s else s.countErr die (.link lane) lane n false)

/-- The counts of a die clear. -/
def State.clearCounts (s : State) (die : Nat) : State := { s with errCnt := s.errCnt.filter fun p => p.1 / 2 ^ 80 != die }
/-- ERROR_WINDOW_BOUNDARY (13 R348): every count of the die clears at a multiple of win ticks from the package's reset, before anything
else happens in that tick. -/
def execErrorWindowBoundary (die : Nat) (s : State) : Out :=
  if 64 ≤ die then .fault .noSuchUnit
  else if !s.winDue.contains die then .fault .notDue
  else .next { s.clearCounts die with winDue := s.winDue.filter (· != die) }
/-- Dies with counts whose window ends with the tick that begins now. -/
def State.windowsEnd (s : State) : List Nat :=
  ((s.errCnt.map fun p => p.1 / 2 ^ 80).eraseDups).filter fun d =>
    let win := sget 0x7DBA8218000 s.errwin d
    win != 0 && (s.cycle + 1) / 15 % win == 0

/-! ### Throttling (01 R24) -/

/-- POWER_THROTTLE: the die issues nothing until the throttling ends. -/
def execPowerThrottle (die : Nat) (s : State) : Out :=
  if 64 ≤ die then .fault .noSuchUnit else .next { s with throttle := sput false s.throttle die true }
/-- THROTTLE_END. -/
def execThrottleEnd (die : Nat) (s : State) : Out :=
  if sget false s.throttle die then .next { s with throttle := sput false s.throttle die false } else .fault .notDue

/-! ### Resets -/

/-- A die's defect map is consistent (17 R405). -/
def mapConsistent (m : List Byte) : Bool :=
  let b (i : Nat) : Nat := (m.getD i 0).toNat
  let en (p : Nat) : Bool := tbit (b (8 + p / 8)) (p % 8)
  let cl (t : Nat) : Nat := t / 8 / 4 * 2 + t % 8 / 4
  let phys := (List.range 64).map fun t => b (0x18 + t)
  (m.drop 0xF8).take 8 == shake256 (m.take 0xF8) 8
    && (List.range 64).all (fun t => let p := phys.getD t 0; p < 68 && en p && (if p < 64 then cl p else p - 64) == cl t)
    && phys.eraseDups.length == 64
/-- The bytes of a die's map. -/
def mapBytes (die : Nat) : List Byte := (List.range 256).map (mapByte die)
/-- An entry of the repair record applied at a boot (13 R349): tiles without a spare, and tile logic, are fenced, and a slice without a
spare is disabled. Retired storage and the spares in use are kept as they are. -/
def State.applyRepair (s : State) (r : Nat) : State :=
  let die := bits r 56 6
  let res := bits r 0 52
  let fence (t : Nat) : State := s.updTile (die * 64 + t) fun u => { u with fenced := true }
  match bits r 52 4 with
  | 4 => fence (res % 64)
  | 1 => if tbit r 62 && res / 2 ^ 24 < 64 then fence (res / 2 ^ 24) else s
  | 2 => if tbit r 62 then { s with l2off := sput 0 s.l2off die (sget 0 s.l2off die ||| 2 ^ (res / 2 ^ 20 % 32)) } else s
  | _ => s
/-- Memory cells that a reset of the package leaves alone: HBM and host memory (14 R355). -/
def farCell (c : Host.Cell) : Bool := decide (c.1 / 2 ^ 48 < 8192) && decide (68 ≤ c.1 / 2 ^ 48 % 128)
/-- What fuses, flash and the board hold: package number, repair record, spares used, retired storage, disabled slices, certificates; and
the model's own fields. -/
def State.lasting (s : State) : State :=
  { State.reset with agenda := s.agenda, free := s.free, answers := s.answers, pkgno := s.pkgno, repairs := s.repairs, spares := s.spares,
                     dead := s.dead, l2off := s.l2off, certs := s.certs, mem := s.mem.filter farCell }
/-- Bring-up (17 R407): dies without a consistent map are held in reset and reported; the slice disables and the repair record are applied; failing rows that the
tests of step 6 find are retired; pkgno is set; M3 is extended with the defect maps and the repair record; the board controller's commands
are accepted. -/
def State.bringUp (s : State) : State :=
  let maps := (List.range 64).map mapBytes
  let held := (List.range 64).filter fun d => !mapConsistent (maps.getD d [])
  let rows := Config.bootRows s.free
  let s := { s with deadDie := held.foldl (fun (m : SMap Bool) d => sput false m d true) [], free := s.free + 1 }
  let s : State := if held.isEmpty then s else s.answer chBoard 0x100 (held.map (BitVec.ofNat 8))
  let s := { s with l2off := (List.range 64).foldl (fun m d => sput 0 m d (sget 0 m d ||| mapL2off d)) s.l2off }
  let s : State := s.repairs.foldl (fun (s : State) r => s.applyRepair r) s
  let s : State := rows.foldl (fun (s : State) r => match placeOf r.1 1 (r.2 % 2 ^ 40) with
    | some p => s.retire r.1 p (r.2 % 2 ^ 40)
    | none => s) s
  { s with pkgno := Config.boardPkg % 256, up := true }.extend 3 (shake256 (maps.flatMap id ++ s.repairs.flatMap (toBytes 8)) 64)
/-- The stages of a boot in order, each by the measurement register that it extends (14 R366, R367): the first firmware by the ROM into
M0, the runtime firmware into M1, tile microcode and overlay loader into M2. A stage that its predecessor refuses ends the boot, with
every tile held in reset and the failure code reported. Which it does, and the digests, are free values (log 40). -/
def State.boot (s : State) : List Nat → Except State State
  | [] => .ok s
  | i :: is =>
    let f := Config.romFailure s.free
    let s := { s with free := s.free + 1 }
    if f ≠ 0 then .error ({ s with romFail := f }.answer chBoard f)
    else (s.extend i (toBytes 64 (Config.firmwareDigest s.free))).boot is
/-- COLD_RESET (14 R366): key tags take the value that no object's tag equals; the stages of the boot verify and measure one another, and
the Separator brings the package up. -/
def execColdReset (s : State) : Out :=
  match s.lasting.boot [0, 1, 2] with
  | .ok s => .next s.bringUp
  | .error s => .next s
/-- WARM_RESET (13 R350, R346): every world is reset as R365 says, and the package's registers are; the black boxes, fencing,
measurements, key epochs and key tags are kept (log 41). M4 is extended where wrow changes to its reset value 0 (14 R367). -/
def execWarmReset (s : State) : Out :=
  let s : State := (List.range 8).foldl (fun (s : State) w => s.resetWorld w) s
  let t := s.lasting
  .next { t with bbox := s.bbox, meas := (s.setWrow 0).meas, up := s.up, keys := s.keys, ktags := s.ktags, deadDie := s.deadDie, romFail := s.romFail
                 badw := s.badw.filter fun p => farCell (p.1 * 8, 0)
                 tiles := (s.tiles.filter fun p => p.2.fenced).map fun p => (p.1, { fenced := true }) }

end Sys2Proof.Machine
end

