-- ==== Sys2Proof/Machine/Vector.lean ====
section
/-! DEFINITION. The vector instructions (08 R191 to R214): elements and guards, integer and float arithmetic, compares, selection,
reductions, conversion and quantisation, masks, and the sixteen 16-bit forms. -/
namespace Sys2Proof.Machine

/-! ### Elements (R191, R36) -/

/-- Bytes of an element: integer types .b .h .w .d. -/
def isz (et : Nat) : Nat := 2 ^ et
/-- Bytes of an element: float types .bf16 .f16 .f32 .f64. -/
def fsz (et : Nat) : Nat := if et < 2 then 2 else 2 ^ et
/-- Format code of a float type. -/
def fcode (et : Nat) : Nat := match et with
  | 0 => 2 | 1 => 3 | 2 => 0 | _ => 20
/-- Element i of s bytes of a register, as a number. -/
def el (v : VReg) (s i : Nat) : Nat := v.toNat / 2 ^ (8 * s * i) % 2 ^ (8 * s)
/-- Elements of `w` bits packed in order from bit 0 (07 R168). -/
def packEls (w : Nat) : List Nat → Nat
  | [] => 0
  | x :: xs => x % 2 ^ w + 2 ^ w * packEls w xs
/-- A register from its elements of `w` bits; the rest is 0. -/
def vOf (w : Nat) (xs : List Nat) : VReg := BitVec.ofNat 1024 (packEls w xs)
/-- The guard of element i (R193). -/
def guarded (m : Mask) (s i : Nat) : Bool := m.getLsbD (i * s)
/-- Flags of elements, ORed. -/
def orFlags (rs : List (Nat × Nat)) : Nat := rs.foldl (fun a r => a ||| r.2) 0
/-- A guarded element-wise result: element i is `f i`, or keeps its old value without flags (R193). -/
def elemwise (s : Nat) (m : Mask) (old : VReg) (f : Nat → Nat × Nat) : VReg × Nat :=
  let rs := (List.range (128 / s)).map fun i => if guarded m s i then f i else (el old s i, 0)
  (vOf (8 * s) (rs.map (·.1)), orFlags rs)
/-- A mask with the computed elements' bits set to their results (R198). -/
def elemMask (s : Nat) (m old : Mask) (f : Nat → Bool × Nat) : Mask × Nat :=
  let rs := (List.range (128 / s)).map fun i => if guarded m s i then f i else (false, 0)
  (BitVec.ofNat 128 (packEls 1 ((List.range 128).map fun j =>
    if guarded m s (j / s) then b2n (rs.getD (j / s) (false, 0)).1 else b2n (old.getLsbD j))),
   rs.foldl (fun a r => a ||| r.2) 0)

/-! ### Shared forms -/

/-- The instruction's destination is also an operand. -/
def readsVd : Instr → Bool
  | .vfma .. => true
  | _ => false
/-- v[d] := the guarded elements `f`, with their flags. `rs` ends in `d`, whose old elements are read where a mask guards. -/
def vecEl (i : Instr) (len L s vm d : Nat) (rs : List Nat) (f : Slot → Nat → Nat × Nat) (st : State) : Out :=
  vecChk i rs (if vm = 0 && !readsVd i then rs.dropLast else rs) st (st.finishN len L fun t =>
    let r := elemwise s (t.getM vm) (t.getV d) (f t)
    (t.setV d r.1).raiseFlags r.2)
/-- Two vector sources of the integer type et (R197). -/
def vecI (i : Instr) (len L et vm a b d : Nat) (f : Nat → Nat → Nat → Nat) (st : State) : Out :=
  vecEl i len L (isz et) vm d [a, b, d] (fun t n => (f (8 * isz et) (el (t.getV a) (isz et) n) (el (t.getV b) (isz et) n), 0)) st
/-- Two vector sources of the float type et: `f` gives the exact result and its flags; rounding adds its own (R199). -/
def vecF (i : Instr) (len L et vm a b d : Nat) (f : Nat → Val → Val → Val × Nat) (st : State) : Out :=
  vecEl i len L (fsz et) vm d [a, b, d] (fun t n =>
    let c := fcode et
    let v := f t.rm (readFmt c (el (t.getV a) (fsz et) n)).1 (readFmt c (el (t.getV b) (fsz et) n)).1
    let r := roundFmt c v.1 t.rm
    (r.1, v.2 ||| r.2)) st
/-- A compare of type size `s` into mask d (R198). -/
def vecCmp (i : Instr) (L s vm a b d : Nat) (f : Nat → Nat → Bool × Nat) (st : State) : Out :=
  vecChk i [a, b] [a, b] st (st.finishN 4 L fun t =>
    let r := elemMask s (t.getM vm) (t.getM d) fun n => f (el (t.getV a) s n) (el (t.getV b) s n)
    (t.setM d r.1).raiseFlags r.2)
/-- Latency of the rows of R195 that take 12 cycles in the wide type. -/
def latM (et : Nat) : Nat := if et = 3 then 12 else 8

/-! ### Integer arithmetic (R197) -/

/-- A signed result in w bits. -/
def sElem (w : Nat) (v : Int) : Nat := wrap w v
/-- The shift amount: the low log₂ w bits. -/
def shAmt (w b : Nat) : Nat := b % w
/-- The element functions. -/
def eAdd (_w a b : Nat) : Nat := a + b
def eSub (w a b : Nat) : Nat := a + (2 ^ w - b)
def eMul (_w a b : Nat) : Nat := a * b
def eMulh (w a b : Nat) : Nat := sElem w (signed w a * signed w b / (2 ^ w : Nat))
def eMulhu (w a b : Nat) : Nat := a * b / 2 ^ w
def eAnd (_w a b : Nat) : Nat := a &&& b
def eOr (_w a b : Nat) : Nat := a ||| b
def eXor (_w a b : Nat) : Nat := a ^^^ b
def eSll (w a b : Nat) : Nat := a * 2 ^ shAmt w b
def eSrl (w a b : Nat) : Nat := a / 2 ^ shAmt w b
def eSra (w a b : Nat) : Nat := sElem w (signed w a / (2 ^ shAmt w b : Nat))
def eMin (w a b : Nat) : Nat := if signed w a ≤ signed w b then a else b
def eMax (w a b : Nat) : Nat := if signed w a ≤ signed w b then b else a
def eMinu (_w a b : Nat) : Nat := min a b
def eMaxu (_w a b : Nat) : Nat := max a b

/-- VADD. -/
def execVadd (et vm a b d : Nat) (s : State) : Out := vecI (.vadd et vm a b d) 4 8 et vm a b d eAdd s
/-- VSUB. -/
def execVsub (et vm a b d : Nat) (s : State) : Out := vecI (.vsub et vm a b d) 4 8 et vm a b d eSub s
/-- VMUL. -/
def execVmul (et vm a b d : Nat) (s : State) : Out := vecI (.vmul et vm a b d) 4 (latM et) et vm a b d eMul s
/-- VMULH. -/
def execVmulh (et vm a b d : Nat) (s : State) : Out := vecI (.vmulh et vm a b d) 4 (latM et) et vm a b d eMulh s
/-- VMULHU. -/
def execVmulhu (et vm a b d : Nat) (s : State) : Out := vecI (.vmulhu et vm a b d) 4 (latM et) et vm a b d eMulhu s
/-- VAND. -/
def execVand (et vm a b d : Nat) (s : State) : Out := vecI (.vand et vm a b d) 4 8 et vm a b d eAnd s
/-- VOR. -/
def execVor (et vm a b d : Nat) (s : State) : Out := vecI (.vor et vm a b d) 4 8 et vm a b d eOr s
/-- VXOR. -/
def execVxor (et vm a b d : Nat) (s : State) : Out := vecI (.vxor et vm a b d) 4 8 et vm a b d eXor s
/-- VSLL. -/
def execVsll (et vm a b d : Nat) (s : State) : Out := vecI (.vsll et vm a b d) 4 8 et vm a b d eSll s
/-- VSRL. -/
def execVsrl (et vm a b d : Nat) (s : State) : Out := vecI (.vsrl et vm a b d) 4 8 et vm a b d eSrl s
/-- VSRA. -/
def execVsra (et vm a b d : Nat) (s : State) : Out := vecI (.vsra et vm a b d) 4 8 et vm a b d eSra s
/-- VMIN. -/
def execVmin (et vm a b d : Nat) (s : State) : Out := vecI (.vmin et vm a b d) 4 8 et vm a b d eMin s
/-- VMAX. -/
def execVmax (et vm a b d : Nat) (s : State) : Out := vecI (.vmax et vm a b d) 4 8 et vm a b d eMax s
/-- VMINU. -/
def execVminu (et vm a b d : Nat) (s : State) : Out := vecI (.vminu et vm a b d) 4 8 et vm a b d eMinu s
/-- VMAXU. -/
def execVmaxu (et vm a b d : Nat) (s : State) : Out := vecI (.vmaxu et vm a b d) 4 8 et vm a b d eMaxu s

/-! ### Compares (R198) -/

/-- VCMPEQ. -/
def execVcmpeq (et vm a b d : Nat) (s : State) : Out :=
  vecCmp (.vcmpeq et vm a b d) 8 (isz et) vm a b d (fun x y => (x == y, 0)) s
/-- VCMPLT. -/
def execVcmplt (et vm a b d : Nat) (s : State) : Out :=
  vecCmp (.vcmplt et vm a b d) 8 (isz et) vm a b d (fun x y => (signed (8 * isz et) x < signed (8 * isz et) y, 0)) s
/-- VCMPLTU. -/
def execVcmpltu (et vm a b d : Nat) (s : State) : Out :=
  vecCmp (.vcmpltu et vm a b d) 8 (isz et) vm a b d (fun x y => (x < y, 0)) s
/-- VCMPLE. -/
def execVcmple (et vm a b d : Nat) (s : State) : Out :=
  vecCmp (.vcmple et vm a b d) 8 (isz et) vm a b d (fun x y => (signed (8 * isz et) x ≤ signed (8 * isz et) y, 0)) s

/-- A float compare: false with a NaN operand; NV for any NaN (`any`) or for a signalling one. -/
def fCmp (c : Nat) (any : Bool) (p : Ordering → Bool) (x y : Nat) : Bool × Nat :=
  let a := (readFmt c x).1
  let b := (readFmt c y).1
  if a.isNan || b.isNan then (false, if any || a.isSig || b.isSig then fNV else 0) else (p (a.cmp b), 0)
/-- VFCMPEQ. -/
def execVfcmpeq (et vm a b d : Nat) (s : State) : Out :=
  vecCmp (.vfcmpeq et vm a b d) (latM et) (fsz et) vm a b d (fCmp (fcode et) false (· == .eq)) s
/-- VFCMPLT. -/
def execVfcmplt (et vm a b d : Nat) (s : State) : Out :=
  vecCmp (.vfcmplt et vm a b d) (latM et) (fsz et) vm a b d (fCmp (fcode et) true (· == .lt)) s
/-- VFCMPLE. -/
def execVfcmple (et vm a b d : Nat) (s : State) : Out :=
  vecCmp (.vfcmple et vm a b d) (latM et) (fsz et) vm a b d (fCmp (fcode et) true (· != .gt)) s

/-! ### Float arithmetic (R199 to R201) -/

/-- VFADD. -/
def execVfadd (et vm a b d : Nat) (s : State) : Out := vecF (.vfadd et vm a b d) 4 (latM et) et vm a b d vadd s
/-- a − b: a NaN keeps its kind under negation. -/
def vsub (rm : Nat) (x y : Val) : Val × Nat := vadd rm x y.neg
/-- VFSUB. -/
def execVfsub (et vm a b d : Nat) (s : State) : Out := vecF (.vfsub et vm a b d) 4 (latM et) et vm a b d vsub s
/-- VFMUL. -/
def execVfmul (et vm a b d : Nat) (s : State) : Out := vecF (.vfmul et vm a b d) 4 (latM et) et vm a b d (fun _ => vmul) s
/-- Cycles of a division, root or reciprocal (R195). -/
def latDiv (et : Nat) : Nat := if et < 2 then 16 else if et = 2 then 24 else 40
/-- VFDIV. -/
def execVfdiv (et vm a b d : Nat) (s : State) : Out := vecF (.vfdiv et vm a b d) 4 (latDiv et) et vm a b d (fun _ => vdiv) s
/-- VFMA: a × b + the old element of the destination, one rounding. -/
def execVfma (et vm a b d : Nat) (s : State) : Out :=
  vecEl (.vfma et vm a b d) 4 (latM et) (fsz et) vm d [a, b, d] (fun t n =>
    let c := fcode et
    let x (r : Nat) := (readFmt c (el (t.getV r) (fsz et) n)).1
    let v := vfma t.rm (x a) (x b) (x d)
    let r := roundFmt c v.1 t.rm
    (r.1, v.2 ||| r.2)) s

/-- x lies below y, −0 below +0 (R200). -/
def fBelow (x y : Val) : Bool := match x.cmp y with
  | .lt => true
  | .gt => false
  | .eq => x.isNeg && !y.isNeg
/-- The smaller (`lo`) or larger operand, as a pattern of format c (R200). -/
def fMinMax (c : Nat) (lo : Bool) (x y : Nat) : Nat × Nat :=
  let a := (readFmt c x).1
  let b := (readFmt c y).1
  let fl := if a.isSig || b.isSig then fNV else 0
  if a.isNan then (if b.isNan then (roundFmt c (.nan false) 0).1 else y, fl)
  else if b.isNan then (x, fl)
  else (if fBelow a b == lo then x else y, fl)
/-- vfmin and vfmax of any length. -/
def vecMinMax (i : Instr) (len et vm a b d : Nat) (lo : Bool) (s : State) : Out :=
  vecEl i len (latM et) (fsz et) vm d [a, b, d]
    (fun t n => fMinMax (fcode et) lo (el (t.getV a) (fsz et) n) (el (t.getV b) (fsz et) n)) s
/-- VFMIN. -/
def execVfmin (et vm a b d : Nat) (s : State) : Out := vecMinMax (.vfmin et vm a b d) 4 et vm a b d true s
/-- VFMAX. -/
def execVfmax (et vm a b d : Nat) (s : State) : Out := vecMinMax (.vfmax et vm a b d) 4 et vm a b d false s

/-- A unary float instruction: `f` gives pattern and flags from the rounding mode and the operand. -/
def vecF1 (i : Instr) (L et vm a d : Nat) (f : Nat → Nat → Val → Nat × Nat) (s : State) : Out :=
  vecEl i 4 L (fsz et) vm d [a, d] (fun t n => f (fcode et) t.rm (readFmt (fcode et) (el (t.getV a) (fsz et) n)).1) s
/-- An exact result with its flags, rounded. -/
def rounded (c rm : Nat) (v : Val × Nat) : Nat × Nat := let r := roundFmt c v.1 rm; (r.1, v.2 ||| r.2)
/-- VFSQRT. -/
def execVfsqrt (et vm a d : Nat) (s : State) : Out :=
  vecF1 (.vfsqrt et vm a d) (latDiv et) et vm a d (fun c rm v => rounded c rm (vsqrt v)) s
/-- VFEXP2. -/
def execVfexp2 (et vm a d : Nat) (s : State) : Out :=
  vecF1 (.vfexp2 et vm a d) (if et = 3 then 24 else 16) et vm a d (fun c _ v => exp2Fmt c v) s
/-- VFLOG2. -/
def execVflog2 (et vm a d : Nat) (s : State) : Out :=
  vecF1 (.vflog2 et vm a d) (if et = 3 then 24 else 16) et vm a d (fun c _ v => log2Fmt c v) s
/-- VFRCP. -/
def execVfrcp (et vm a d : Nat) (s : State) : Out :=
  vecF1 (.vfrcp et vm a d) (latDiv et) et vm a d (fun c rm v => rounded c rm (vdiv (Val.ofInt 1) v)) s

/-! ### Selection, permutation, scalar operands (R202 to R206) -/

/-- VSEL: mask vm selects. -/
def execVsel (et vm a b d : Nat) (s : State) : Out :=
  vecEl (.vsel et vm a b d) 4 8 (isz et) 0 d [a, b, d]
    (fun t n => (el (t.getV (if guarded (t.getM vm) (isz et) n then a else b)) (isz et) n, 0)) s
/-- VPERM: element index from vb; 0 beyond the register. -/
def execVperm (et vm a b d : Nat) (s : State) : Out :=
  vecEl (.vperm et vm a b d) 4 8 (isz et) vm d [a, b, d] (fun t n =>
    let k := el (t.getV b) (isz et) n
    (if k < 128 / isz et then el (t.getV a) (isz et) k else 0, 0)) s
/-- A vector and an x register of the integer type. -/
def vecX (i : Instr) (L et vm a b d : Nat) (f : Nat → Nat → Nat → Nat) (s : State) : Out :=
  vecEl i 4 L (isz et) vm d [a, d] (fun t n =>
    (f (8 * isz et) (el (t.getV a) (isz et) n) ((t.getX b).toNat % 2 ^ (8 * isz et)), 0)) s
/-- VADDX. -/
def execVaddx (et vm a b d : Nat) (s : State) : Out := vecX (.vaddx et vm a b d) 8 et vm a b d eAdd s
/-- VMULX. -/
def execVmulx (et vm a b d : Nat) (s : State) : Out := vecX (.vmulx et vm a b d) (latM et) et vm a b d eMul s
/-- VFMULX: the scalar is the low bits of x[b] in the element's format. -/
def execVfmulx (et vm a b d : Nat) (s : State) : Out :=
  vecEl (.vfmulx et vm a b d) 4 (latM et) (fsz et) vm d [a, d] (fun t n =>
    let c := fcode et
    rounded c t.rm (vmul (readFmt c (el (t.getV a) (fsz et) n)).1
      (readFmt c ((t.getX b).toNat % 2 ^ (8 * fsz et))).1)) s
/-- VBCAST. -/
def execVbcast (et vm b d : Nat) (s : State) : Out :=
  vecEl (.vbcast et vm b d) 4 8 (isz et) vm d [d] (fun t _ => ((t.getX b).toNat, 0)) s
/-- VMVX: x[d] := element x[b] of va, sign-extended; 0 beyond the register. -/
def execVmvx (et a b d : Nat) (s : State) : Out :=
  vecChk (.vmvx et a b d) [a] [a] s (s.finishX d (if s.xn b < 128 / isz et
    then BitVec.ofNat 64 (sext64 (8 * isz et) (el (s.me.getV a) (isz et) (s.xn b))) else 0))
/-- VINSX: element x[a] of vd := x[b]; nothing beyond the register. -/
def execVinsx (et a b d : Nat) (s : State) : Out :=
  vecChk (.vinsx et a b d) [d] [d] s (s.finish fun t => t.setV d (vOf (8 * isz et) ((List.range (128 / isz et)).map fun n =>
    if n = (t.getX a).toNat then (t.getX b).toNat else el (t.getV d) (isz et) n)))
/-- VSLUP. -/
def execVslup (et vm a b d : Nat) (s : State) : Out :=
  vecEl (.vslup et vm a b d) 4 8 (isz et) vm d [a, d] (fun t n =>
    let k := (t.getX b).toNat
    (if k ≤ n then el (t.getV a) (isz et) (n - k) else 0, 0)) s
/-- VSLDN. -/
def execVsldn (et vm a b d : Nat) (s : State) : Out :=
  vecEl (.vsldn et vm a b d) 4 8 (isz et) vm d [a, d] (fun t n =>
    let k := (t.getX b).toNat
    (if n + k < 128 / isz et then el (t.getV a) (isz et) (n + k) else 0, 0)) s
/-- VID. -/
def execVid (et vm d : Nat) (s : State) : Out := vecEl (.vid et vm d) 4 8 (isz et) vm d [d] (fun _ n => (n, 0)) s

/-! ### Reductions (R207 to R209) -/

/-- A reduction: one value of `sz` bytes from the elements of va and their guards; every other element of vd is 0. -/
def vecRed (i : Instr) (L sz vm a d : Nat) (f : Nat → List (Nat × Bool) → Nat × Nat) (s : State) : Out :=
  vecChk i [a, d] [a] s (s.finish (fun t =>
    let r := f t.rm ((List.range (128 / sz)).map fun n => (el (t.getV a) sz n, guarded (t.getM vm) sz n))
    (t.setV d (vOf (8 * sz) [r.1])).raiseFlags r.2) L)
/-- An integer reduction by `f` from an identity over the selected elements. -/
def redI (f : Nat → Nat → Nat) (id : Nat) (xs : List (Nat × Bool)) : Nat × Nat :=
  (xs.foldl (fun r x => if x.2 then f r x.1 else r) id, 0)
/-- VREDSUM. -/
def execVredsum (et vm a d : Nat) (s : State) : Out :=
  vecRed (.vredsum et vm a d) 12 (isz et) vm a d (fun _ => redI (· + ·) 0) s
/-- VREDMAX: identity −2^(w−1). -/
def execVredmax (et vm a d : Nat) (s : State) : Out :=
  vecRed (.vredmax et vm a d) 12 (isz et) vm a d (fun _ => redI (eMax (8 * isz et)) (2 ^ (8 * isz et - 1))) s
/-- VREDMIN: identity 2^(w−1) − 1. -/
def execVredmin (et vm a d : Nat) (s : State) : Out :=
  vecRed (.vredmin et vm a d) 12 (isz et) vm a d (fun _ => redI (eMin (8 * isz et)) (2 ^ (8 * isz et - 1) - 1)) s
/-- Neighbouring elements added, each sum rounded (R208). -/
def pairSum (c rm : Nat) : List Nat → List (Nat × Nat)
  | x :: y :: r => rounded c rm (vadd rm (readFmt c x).1 (readFmt c y).1) :: pairSum c rm r
  | _ => []
/-- The tree of `k` levels: the sum and its flags. -/
def treeSum (c rm : Nat) : Nat → List Nat → Nat × Nat
  | 0, xs => (xs.headD 0, 0)
  | k + 1, xs =>
    let ys := pairSum c rm xs
    let r := treeSum c rm k (ys.map (·.1))
    (r.1, r.2 ||| orFlags ys)
/-- VFREDSUM. -/
def execVfredsum (et vm a d : Nat) (s : State) : Out :=
  vecRed (.vfredsum et vm a d) (if et = 3 then 20 else 16) (fsz et) vm a d (fun rm xs =>
    treeSum (fcode et) rm (128 / fsz et).log2 (xs.map fun x => if x.2 then x.1 else 2 ^ (8 * fsz et - 1))) s
/-- VFREDAMAX: among numbers, the larger magnitude is the larger pattern without its sign. -/
def execVfredamax (et vm a d : Nat) (s : State) : Out :=
  vecRed (.vfredamax et vm a d) (if et = 3 then 20 else 16) (fsz et) vm a d (fun _ xs =>
    let vs := (xs.filter (·.2)).map fun x => (readFmt (fcode et) x.1).1
    if vs.any Val.isNan then ((roundFmt (fcode et) (.nan false) 0).1, if vs.any Val.isSig then fNV else 0)
    else redI (fun r x => max r (x % 2 ^ (8 * fsz et - 1))) 0 xs) s

/-! ### Conversion and quantisation (R210 to R212) -/

/-- A conversion: a signalling NaN raises NV (07 R171). -/
def convert (c rm : Nat) (v : Val) : Nat × Nat :=
  let r := roundFmt c v rm
  (r.1, r.2 ||| if v.isSig then fNV else 0)
/-- A source element of et: float, or signed integer when `k` is 1. -/
def srcEl (k et : Nat) (v : VReg) (n : Nat) : Val :=
  if k = 1 then Val.ofInt (signed (8 * isz et) (el v (isz et) n)) else (readFmt (fcode et) (el v (fsz et) n)).1
/-- Bytes of a source element. -/
def srcSize (k et : Nat) : Nat := if k = 1 then isz et else fsz et
/-- VCVT. -/
def execVcvt (et k a fmt d : Nat) (s : State) : Out :=
  vecChk (.vcvt et k a fmt d) [a, d] [a] s (s.finish fun t =>
    let rs := (List.range (min (128 / srcSize k et) (1024 / fmtBits fmt))).map fun n => convert fmt t.rm (srcEl k et (t.getV a) n)
    (t.setV d (vOf (fmtBits fmt) (rs.map (·.1)))).raiseFlags (orFlags rs))
/-- Element j of the FP32 group at register r (R211). -/
def groupEl (t : Slot) (r j : Nat) : Nat := el (t.getV (r + j / 32)) 4 (j % 32)
/-- VQUANT: the exact quotient rounded once (07 R183). -/
def execVquant (sc a fmt d : Nat) (s : State) : Out :=
  vecChk (.vquant sc a fmt d) [a, d] (List.range' a 4) s (s.finish (fun t =>
    let y := (readFmt 0 ((t.getX sc).toNat % 2 ^ 32)).1
    let rs := (List.range 128).map fun j => rounded fmt t.rm (vdiv (readFmt 0 (groupEl t a j)).1 y)
    (t.setV d (vOf (fmtBits fmt) (rs.map (·.1)))).raiseFlags (orFlags rs)) 24)
/-- The packed element j of format code c in a register. -/
def packedEl (c : Nat) (v : VReg) (j : Nat) : Val × Nat := readFmt c (v.toNat / 2 ^ (fmtBits c * j) % 2 ^ fmtBits c)
/-- VDEQUANT. -/
def execVdequant (sc a fmt d : Nat) (s : State) : Out :=
  vecChk (.vdequant sc a fmt d) [a, d] [a] s (s.finish (fun t =>
    let y := (readFmt 0 ((t.getX sc).toNat % 2 ^ 32)).1
    let rs := (List.range 128).map fun j =>
      let q := packedEl fmt (t.getV a) j
      let r := rounded 0 t.rm (vmul q.1 y)
      (r.1, q.2 ||| r.2)
    let g (n : Nat) : VReg := vOf 32 (((rs.map (·.1)).drop (32 * n)).take 32)
    ((((t.setV d (g 0)).setV (d + 1) (g 1)).setV (d + 2) (g 2)).setV (d + 3) (g 3)).raiseFlags (orFlags rs)) 12)

/-! ### Masks (R213) -/

/-- MAND. -/
def execMand (a b d : Nat) (s : State) : Out := s.finish fun t => t.setM d (t.getM a &&& t.getM b)
/-- MOR. -/
def execMor (a b d : Nat) (s : State) : Out := s.finish fun t => t.setM d (t.getM a ||| t.getM b)
/-- MXOR. -/
def execMxor (a b d : Nat) (s : State) : Out := s.finish fun t => t.setM d (t.getM a ^^^ t.getM b)
/-- MANDN. -/
def execMandn (a b d : Nat) (s : State) : Out := s.finish fun t => t.setM d (t.getM a &&& ~~~(t.getM b))
/-- MPOP. -/
def execMpop (a d : Nat) (s : State) : Out :=
  s.finish fun t => t.setX d (BitVec.ofNat 64 ((List.range 128).foldl (fun n j => n + b2n ((t.getM a).getLsbD j)) 0))

/-! ### The 16-bit forms (R39, R214): vd := vd op vs2, two bytes long -/

/-- VADD_W_N. -/
def execVaddWN (d r : Nat) (s : State) : Out := vecI (.vaddWN d r) 2 8 2 0 d r d eAdd s
/-- VSUB_W_N. -/
def execVsubWN (d r : Nat) (s : State) : Out := vecI (.vsubWN d r) 2 8 2 0 d r d eSub s
/-- VAND_N. -/
def execVandN (d r : Nat) (s : State) : Out := vecI (.vandN d r) 2 8 0 0 d r d eAnd s
/-- VOR_N. -/
def execVorN (d r : Nat) (s : State) : Out := vecI (.vorN d r) 2 8 0 0 d r d eOr s
/-- VXOR_N. -/
def execVxorN (d r : Nat) (s : State) : Out := vecI (.vxorN d r) 2 8 0 0 d r d eXor s
/-- VFADD_F32_N. -/
def execVfaddF32N (d r : Nat) (s : State) : Out := vecF (.vfaddF32N d r) 2 8 2 0 d r d vadd s
/-- VFMUL_F32_N. -/
def execVfmulF32N (d r : Nat) (s : State) : Out := vecF (.vfmulF32N d r) 2 8 2 0 d r d (fun _ => vmul) s
/-- VFMAX_F32_N. -/
def execVfmaxF32N (d r : Nat) (s : State) : Out := vecMinMax (.vfmaxF32N d r) 2 2 0 d r d false s
/-- VFADD_BF16_N. -/
def execVfaddBf16N (d r : Nat) (s : State) : Out := vecF (.vfaddBf16N d r) 2 8 0 0 d r d vadd s
/-- VFMUL_BF16_N. -/
def execVfmulBf16N (d r : Nat) (s : State) : Out := vecF (.vfmulBf16N d r) 2 8 0 0 d r d (fun _ => vmul) s
/-- VFMAX_BF16_N. -/
def execVfmaxBf16N (d r : Nat) (s : State) : Out := vecMinMax (.vfmaxBf16N d r) 2 0 0 d r d false s
/-- VMAX_W_N. -/
def execVmaxWN (d r : Nat) (s : State) : Out := vecI (.vmaxWN d r) 2 8 2 0 d r d eMax s
/-- VMIN_W_N. -/
def execVminWN (d r : Nat) (s : State) : Out := vecI (.vminWN d r) 2 8 2 0 d r d eMin s
/-- VMV: vor.b of the source with itself. -/
def execVmv (d r : Nat) (s : State) : Out := vecI (.vmv d r) 2 8 0 0 r r d eOr s
/-- VFSUB_F32_N. -/
def execVfsubF32N (d r : Nat) (s : State) : Out := vecF (.vfsubF32N d r) 2 8 2 0 d r d vsub s
/-- VFSUB_BF16_N. -/
def execVfsubBf16N (d r : Nat) (s : State) : Out := vecF (.vfsubBf16N d r) 2 8 0 0 d r d vsub s

end Sys2Proof.Machine
end

