-- ==== Sys2Proof/Machine/Lacc.lean ====
section
/-! DEFINITION. The long accumulator (07 R184 to R186; 08 R215 to R220). -/
namespace Sys2Proof.Machine

/-- Value field and flags of an accumulator (07 R184): bits [639:0] and [643:640]. -/
def accVal (v : VReg) : Nat := v.toNat % 2 ^ 640
def accFlags (v : VReg) : Nat := bits v.toNat 640 4
/-- An accumulator; bits [1023:644] are 0. -/
def mkAcc (val fl : Nat) : VReg := BitVec.ofNat 1024 (val % 2 ^ 640 + fl % 16 * 2 ^ 640)
/-- Flags nan, pinf, ninf, ovf. -/
def aNAN : Nat := 1
def aPINF : Nat := 2
def aNINF : Nat := 4
def aOVF : Nat := 8

/-- The magnitude of a finite value is at least 2^338. -/
def accOver (m : Nat) (e : Int) : Bool := m != 0 && 338 ≤ e + (m.log2 : Int)
/-- What an addend adds to the value, which flags it sets, and the flags of fmode (07 R185). -/
def addend (v : Val) : Int × Nat × Nat :=
  match v with
  | .nan g => (0, aNAN, if g then fNV else 0)
  | .inf n => (0, if n then aNINF else aPINF, 0)
  | .fin n m e _ =>
    if accOver m e then (0, aOVF, 0)
    else
      let r := roundAt 1 n m e false (-300)
      (Val.num n r.1, 0, if r.2 then fNX else 0)
/-- The accumulator after addends; an addend may bring flags of its own. -/
def accAdd (acc : VReg) (vs : List (Val × Nat)) : VReg × Nat :=
  let rs := vs.map fun v => let r := addend v.1; (r.1, r.2.1, r.2.2 ||| v.2)
  (mkAcc (wrap 640 (accVal acc + rs.foldl (fun t r => t + r.1) (0 : Int))) (rs.foldl (fun f r => f ||| r.2.1) (accFlags acc)),
   rs.foldl (fun f r => f ||| r.2.2) 0)
/-- W of an update: 64-bit words of the value that change, plus 1 when a flag changes (R220). -/
def accW (old new : VReg) : Nat :=
  ((List.range 10).filter fun i => bits old.toNat (64 * i) 64 != bits new.toNat (64 * i) 64).length
    + b2n (accFlags old != accFlags new)

/-- An instruction of the accumulate unit (R220): held while the unit is held; `f` gives the result, flags and W. -/
def laccOp (i : Instr) (d : Nat) (rs : List Nat) (f : Slot → VReg × Nat × Nat) (s : State) : Out :=
  if s.cycle < (s.tile s.gta).laccFree then .next (s.holdOn .lacc)
  else vecChk i (d :: rs) rs s (
    let r := f s.me
    (s.updTile s.gta fun g => { g with laccFree := s.cycle + r.2.2 + 1 }).finish
      (fun t => (t.setV d r.1).raiseFlags r.2.1) (8 + r.2.2))

/-- LACC_CLR (R215). -/
def execLaccClr (d : Nat) (s : State) : Out := laccOp (.laccClr d) d [] (fun _ => (0, 0, 0)) s
/-- LACC_ADD (R216). -/
def execLaccAdd (et k a d : Nat) (s : State) : Out :=
  laccOp (.laccAdd et k a d) d [a, d] (fun t =>
    let r := accAdd (t.getV d) ((List.range (128 / srcSize k et)).map fun n => (srcEl k et (t.getV a) n, 0))
    (r.1, r.2, accW (t.getV d) r.1)) s
/-- LACC_MADD (R217). -/
def execLaccMadd (a b d : Nat) (s : State) : Out :=
  laccOp (.laccMadd a b d) d [a, b, d] (fun t =>
    let x (r n : Nat) := (readFmt 0 (el (t.getV r) 4 n)).1
    let r := accAdd (t.getV d) ((List.range 32).map fun n => vmul (x a n) (x b n))
    (r.1, r.2, accW (t.getV d) r.1)) s
/-- LACC_MERGE (R218). -/
def execLaccMerge (a d : Nat) (s : State) : Out :=
  laccOp (.laccMerge a d) d [a, d] (fun t =>
    let r := mkAcc (accVal (t.getV d) + accVal (t.getV a)) (accFlags (t.getV d) ||| accFlags (t.getV a))
    (r, 0, accW (t.getV d) r)) s
/-- The result of lacc.rd in format c (07 R186). -/
def accRead (c rm : Nat) (v : VReg) : Nat × Nat :=
  let f := accFlags v
  let both := tbit f 1 && tbit f 2
  if tbit f 0 || tbit f 3 || both then ((roundFmt c (.nan false) rm).1, if tbit f 3 || both then fNV else 0)
  else if tbit f 1 then roundFmt c (.inf false) rm
  else if tbit f 2 then roundFmt c (.inf true) rm
  else
    let x := signed 640 (accVal v)
    roundFmt c (.fin (x < 0) x.natAbs (-300) false) rm
/-- LACC_RD (R219). -/
def execLaccRd (a fmt d : Nat) (s : State) : Out :=
  laccOp (.laccRd a fmt d) d [a] (fun t =>
    let r := accRead fmt t.rm (t.getV a)
    (vOf (fmtBits fmt) [r.1], r.2, 11)) s

end Sys2Proof.Machine
end

