-- ==== Sys2Proof/Machine/Links.lean ====
section
/-! DEFINITION. Links to other packages and to the host: UALink requests and their answers (15 R386, R387), windows (R382, R383),
messages of other packages (R388), the host aperture (R385), CXL (R372, R374), and requests of another world (14 R353). -/
namespace Sys2Proof.Machine

/-! ### Outstanding UALink requests (R386) -/

/-- A request by its id. -/
def State.uaReq (s : State) (id : Nat) : Option UaReq := s.uareqs.find? fun r => r.id == id
/-- A request changed by `f`; one that has ended. -/
def State.updUa (s : State) (id : Nat) (f : UaReq → UaReq) : State := { s with uareqs := s.uareqs.map fun r => if r.id = id then f r else r }
def State.uaGone (s : State) (id : Nat) : State := { s with uareqs := s.uareqs.filter fun r => r.id != id }
/-- 20 microseconds, 10 microseconds and 2 milliseconds in cycles. -/
def uaTimeout : Nat := 30000
def busyDelay : Nat := 15000
def dupLife : Nat := 3000000

/-- UALINK_RETRANSMIT: no answer within 20 microseconds; up to 16 times. -/
def execUalinkRetransmit (id : Nat) (s : State) : Out :=
  match s.uaReq id with
  | none => .fault .notDue
  | some r =>
    if r.busy.isSome || 16 ≤ r.tries || s.cycle < r.sentAt + uaTimeout then .fault .notDue
    else .next (s.updUa id fun r => { r with tries := r.tries + 1, sentAt := s.cycle })
/-- The message of a sender that no answer reaches (R386, R253): a deferred ENGINE 24; nobody holds the carried capability any more
(log 98). -/
def State.msgLost (s : State) (m : Msg) : State :=
  let s := match s.cmds.find? fun c => c.id == m.id with
    | some c => (s.lateFault c cENGINE 24).updCmd m.id fun c => { c with fin := true }
    | none => s
  { s with msgs := s.msgs.filter fun x => x.id != m.id }
/-- Packet `p` of copy `id` fails at the peer with cause `c`, or no answer comes (ENGINE 24): beside the landing word's err bit the strand
takes the deferred fault (R384, R386), but for a poisoned word (13 R345). `read`: of the two windows, the source refused it. -/
def State.copyLost (s : State) (id p c v : Nat) (read : Bool) : State :=
  let o := match s.cmds.find? fun c => c.id == id with
    | some x => (match x.op with
      | .copy dst src _ _ _ _ => if read then src.o else dst.o
      | _ => 0)
    | none => 0
  s.packetLost id p (if c = cENGINE then some (c, v) else copyFault o (c, v))
/-- The operation of a request ends with cause `c` and tval `v`; a message bounces with ENGINE `code`, but for 24. -/
def State.uaFail (s : State) (r : UaReq) (c v code : Nat) : State :=
  let s := s.uaGone r.id
  match r.op with
  | .access k w => s.endWin k w (.fail c v)
  | .copyRead id p => s.copyLost id p c v true
  | .copyWrite id p => s.copyLost id p c v false
  | .message id => match s.msgs.find? fun m => m.id == id with
    | some m => State.farServe (if code = 24 then s.msgLost m
        else State.bounce (s.updMsg id fun m => { m with dest := m.stile }) { m with dest := m.stile } code)
    | none => s
/-- UALINK_REQUEST_TIMEOUT: after 16 retransmissions the access ends with ENGINE 24. -/
def execUalinkRequestTimeout (id : Nat) (s : State) : Out :=
  match s.uaReq id with
  | none => .fault .notDue
  | some r =>
    if r.busy.isSome || r.tries < 16 || s.cycle < r.sentAt + uaTimeout then .fault .notDue
    else .next (s.uaFail r cENGINE 24 24)
/-- BUSY_RETRY (R387): a request that was refused BUSY goes out again after 10 microseconds. -/
def execBusyRetry (id : Nat) (s : State) : Out :=
  match s.uaReq id with
  | none => .fault .notDue
  | some r => match r.busy with
    | none => .fault .notDue
    | some t =>
      if s.cycle < t + busyDelay then .fault .notDue
      else .next (s.updUa id fun r => { r with busy := none, sentAt := s.cycle })

/-- The sender's side of a message that another package has accepted: a byte copy frees the old object, an import that was sent is
freed, and an export stays until its window closes (R255, R382); the next message to that mailbox may leave (R260). -/
def State.msgSent (s : State) (m : Msg) : State :=
  let s := { s with msgs := s.msgs.filter fun x => x.id != m.id }
  let s := s.updCmd m.id fun c => { c with fin := true }
  State.farServe (if isWindow m.cap.o then (match s.winOf m.cap with
    | .ok e => if e.exported then s else s.freeWinEnt m.cap.o
    | .error _ => s)
  else if m.how = .copy then s.freeObj m.cap.o else s)
/-- The operation of a request is done at the peer; `data`: the bytes read. -/
def State.uaDone (s : State) (r : UaReq) (data : List Byte) : State :=
  let s := s.uaGone r.id
  match r.op with
  | .access k w =>
    (match (s.slot k).wins.find? fun x => x.id == w with
    | some x => (match x.st with
      | .wait (.remote _ _ (.load _ dst)) => s.endWin k w (.done (loadRes dst data))
      | _ => s.endWin k w (.done {}))
    | none => s)
  | .copyRead id p => match s.cmds.find? fun c => c.id == id with
    | some c => (match c.op with
      | .copy dst src land todo got acked =>
        let s := s.updCmd id fun c => { c with op := .copy dst src land todo (got ++ [(p, data)]) acked }
        if s.isLocal dst then s else s.copyOut id dst p data
      | _ => s)
    | none => s
  | .copyWrite id p => s.updCmd id fun c => { c with op := match c.op with
      | .copy dst src land todo got acked => .copy dst src land todo got (acked ++ [p])
      | o => o }
  | .message id => match s.msgs.find? fun m => m.id == id with
    | some m => s.msgSent m
    | none => s
/-- A peer's answer reaches the station: 0 done, 1 BUSY, 2 no room for a message, 16 to 63 a bounce, 64 and above the cause of a
refusal plus 64 (log 25). A message that finds no room is held (10 R261). -/
def State.uaAnswer (s : State) (id code : Nat) (data : List Byte) : Out :=
  match s.uaReq id with
  | none => .fault .notDue
  | some r =>
    if r.busy.isSome then .fault .notDue
    else if code = 0 then .next (s.uaDone r data)
    else if code < 16 then (match code, r.op with
      | 2, .message m => .next ((s.uaGone id).updMsg m fun x => { x with st := .held s.cycle 0 })
      | _, _ => .next (s.updUa id fun r => { r with busy := some s.cycle }))
    else if code < 64 then .next (s.uaFail r cENGINE code code)
    else
      let o := match r.op with
        | .access k w => (match (s.slot k).wins.find? fun x => x.id == w with
          | some x => (match x.st with
            | .wait (.remote _ o _) => o
            | _ => 0)
          | none => 0)
        | _ => 0
      .next (s.uaFail r (code - 64) o 24)

/-! ### Requests of other packages (R382, R383, R387, R388) -/

/-- DUPLICATE_CACHE_EXPIRY: an entry is held for exactly 2 milliseconds. -/
def execDuplicateCacheExpiry (st idx : Nat) (s : State) : Out :=
  let l := sget [] s.dups st
  match l[idx]? with
  | none => .fault .notDue
  | some e => if s.cycle < e.at_ + dupLife then .fault .notDue else .next { s with dups := sput [] s.dups st (l.eraseIdx idx) }

/-- The entries of a station's duplicate cache that 2 milliseconds have not yet ended (R387). -/
def State.liveDups (s : State) (st : Nat) : List DupEnt := (sget [] s.dups st).filter fun e => decide (s.cycle < e.at_ + dupLife)
/-- A request that must not be performed twice arrives at station `st` from station `pst` of package `pkg` under the id `id` (R387): one
that the duplicate cache holds gets its answer again, a full cache answers BUSY, and otherwise `k` performs it and its answer is kept. -/
def State.once (s : State) (st pkg pst id : Nat) (k : State → State × Nat × List Byte) : Out :=
  let l := s.liveDups st
  match l.find? fun e => e.pkg == pkg && e.st == pst && e.id == id with
  | some e => .next (s.answer (64 + st) e.code e.data)
  | none =>
    if 4096 ≤ l.length then .next (s.answer (64 + st) 1)
    else
      let r := k s
      let e : DupEnt := { pkg := pkg, st := pst, id := id, code := r.2.1, at_ := s.cycle, data := r.2.2 }
      .next (State.answer { r.1 with dups := sput [] r.1.dups st (l ++ [e]) } (64 + st) r.2.1 r.2.2)

/-- The exporter's side of a window access (R383): the state after it, the answer's code and its bytes; none while a granule is not
resident (05 R133). -/
def State.exporter (s : State) (st idx gen off len : Nat) (data : Option (List Byte)) : Option (State × Nat × List Byte) :=
  match s.exportAccess (winOid st idx) gen off len data with
  | .ok r => some (r.1, 0, r.2)
  | .error f =>
    if f.1 = cNOT_RESIDENT then none
    else some (s.exportHurt (winOid st idx) off len f, f.1 + 64, [])
/-- WINDOW_ACCESS_AT_EXPORTER (R383): the answer leaves on the station's channel. `wr`: 0 a read, 1 a write; 2 and more a write counted at a
landing word, which is not performed twice (R387): source package in [9:2], source station in [15:10], request id from bit 16 on
(log 42). -/
def execWindowAccessAtExporter (st idx gen off len wr v : Nat) (s : State) : Out :=
  if 64 ≤ st || 4096 ≤ idx then .fault .noSuchUnit
  else match s.exporter st idx gen off len (if wr = 0 then none else some (toBytes len v)) with
  | some r => if wr < 2 then .next (r.1.answer (64 + st) r.2.1 r.2.2)
    else s.once st (bits wr 2 8) (bits wr 10 6) (wr / 2 ^ 16) fun _ => r
  | none =>
    if 2 ≤ wr && (s.liveDups st).any fun e => e.pkg == bits wr 2 8 && e.st == bits wr 10 6 && e.id == wr / 2 ^ 16 then
      s.once st (bits wr 2 8) (bits wr 10 6) (wr / 2 ^ 16) fun s => (s, 0, [])
    else .fault .notDue

/-- A window capability arrives at station `st` for tile `g` (R382): an import of the entry `idx` with generation `gen` at station
`pst` of package `pkg`; at the exporter itself the window closes and the owner capability is delivered; the owner of an object whose key has been ended stays (14
R357; log 97). None: no entry is free, or the
export has gone. -/
def State.openWindow (s : State) (st pkg pst idx gen len rights g : Nat) : Option (State × Cap) :=
  if pkg = s.pkgno then
    let o := winOid pst idx
    let e := sget {} s.wtab o
    if !e.valid || !e.exported || e.gen ≠ gen then none
    else
      let s := s.closeExport o
      let s := if s.keyEnded (s.entry e.oid).keyid then s else s.updEntry e.oid fun x => { x with owner := g }
      some (s, s.wholeCap e.oid)
  else match s.freeWin st with
  | none => none
  | some i =>
    let o := winOid st i
    let e := sget {} s.wtab o
    some (s.putWinEnt o { gen := e.gen, len := len, pkg := pkg, pstat := pst, valid := true, pidx := idx, pgen := gen },
      Cap.mk' e.gen (rights ||| 8) o len 0)
/-- WINDOW_OPEN: `peer` packs package [7:0], station [13:8], generation [25:14], length [65:26], destination tile [77:66], rights
[85:78] and the request's source package [93:86], source station [99:94] and id [131:100] (log 42). The capability that is delivered
leaves on the station's channel. -/
def execWindowOpen (st idx peer : Nat) (s : State) : Out :=
  if 64 ≤ st || 4096 ≤ idx then .fault .noSuchUnit
  else s.once st (bits peer 86 8) (bits peer 94 6) (bits peer 100 32) fun s =>
    match s.openWindow st (bits peer 0 8) (bits peer 8 6) idx (bits peer 14 12) (bits peer 26 40) (bits peer 78 8) (bits peer 66 12) with
    | some r => (r.1, 0, toBytes 16 r.2.bits)
    | none => (s, 2, [])
/-- A peer has revoked its export: the import entry `o` of this package is freed, and its generation advances (R384). -/
def State.winRevoked (s : State) (o gen : Nat) : Out := match s.winEnt o with
  | some e => if e.valid && !e.exported && e.pgen == gen then .next (s.freeWinEnt o) else .fault .notDue
  | none => .fault .noSuchUnit

/-- The capability of an arriving message, made for its destination (R388): a window, or a new object that the bytes behind the payload
fill (R255); an ENGINE code when it cannot be delivered, none for lack of room. -/
def State.arriveCap (s : State) (m : Msg) (st : Nat) : Except (Option Nat) (State × Msg) :=
  if m.cap = .null then .ok (s, { m with how := .none })
  else if isWindow m.cap.o then
    match s.openWindow st (m.odesc % 256) (stationOf m.cap.o) (oidIdx m.cap.o) m.cap.g m.cap.l m.cap.rights.toNat m.dest with
    | some r => .ok (r.1, { m with cap := r.2, how := .rights })
    | none => .error none
  else
    let attr := m.odesc / 256
    let e : Entry := { len := m.cap.l, restartable := tbit attr 24, amo := tbit attr 23, pkey := bits attr 18 5 }
    match s.mboxArena m.dest m.mbox with
    | none => .error (some 22)
    | some a =>
      if e.amo && oidPort a.o ≠ 68 then .error (some 22)
      else match s.carve a e m.dest with
      | none => .error none
      | some (s, o) =>
        let n := m.pay.length - e.len
        let s := s.writeObj o (s.entry o) 0 (m.pay.drop n)
        let land := s.mboxLand m.dest m.mbox
        let s : State := if m.hurt then (s.poisonObj o).landMaybe land none m.id
          else (List.range ((e.len + 255) / 256)).foldl (fun (s : State) p => s.landMaybe land (some (min 256 (e.len - 256 * p))) m.id) s
        .ok (s, { m with pay := m.pay.take n, cap := { s.wholeCap o with rights := m.cap.rights }, how := .rights })
/-- The message without the bytes of an object that travels behind its payload. -/
def Msg.bare (m : Msg) : Msg :=
  if m.cap = .null || isWindow m.cap.o then m else { m with pay := m.pay.take (m.pay.length - m.cap.l) }
/-- The mailbox has no room for the message's record (10 R260). -/
def State.noRoom (s : State) (m : Msg) : Bool := match s.mbox m.dest m.mbox with
  | some (b, D) => (reserve (s.mbGet m.dest b 0 8) (s.mbGet m.dest b 8 8) (s.mbGet m.dest b 16 8) D m.bare.size).isNone
  | none => false
/-- The reservation of a message of another package (R388): the answer is a bounce, a refusal (2), or 0. -/
def State.arriveNew (s : State) (m : Msg) (st : Nat) : State × Nat :=
  if s.dieWorld (m.dest / 64) ≠ s.dieWorld (st / 8 * 8) || m.spkg = s.pkgno then (s, 23)
  else match s.bounceCode m with
  | some code => (s.bounced m code, code)
  | none =>
    if s.noRoom m then
      ((match s.mbox m.dest m.mbox with
        | some (b, _) => s.mbPut m.dest b 28 4 (s.mbGet m.dest b 28 4 + 1)
        | none => s), 2)
    else match s.arriveCap m st with
    | .error (some code) => (s, code)
    | .error none => (s, 2)
    | .ok (s', m') =>
      let m' := { m' with payDone := m'.pay.isEmpty, odesc := 0 }
      (State.reserveMsg { s' with msgs := s'.msgs ++ [m'], nextId := s.nextId + 1 } m', 0)
/-- A message of another package arrives at station `st` under the source station and request id `req` (R387, R388). -/
def State.arrive (s : State) (m : Msg) (st req : Nat) : Out :=
  if 64 ≤ st || 4096 ≤ m.dest then .fault .noSuchUnit
  else s.once st m.spkg (req / 2 ^ 32) (req % 2 ^ 32) fun s =>
    let m : Msg := { m with id := s.nextId, holder := 4096 + m.spkg, st := .sent, payDone := m.pay.isEmpty, ret := false, how := .none }
    let r := s.arriveNew m st
    (r.1, r.2, [])

/-! ### The host aperture (R385) and CXL (R372, R374) -/

/-- The host's channel for memory accesses: 0 done, 1 data marked poisoned, 2 dropped or refused, 0x100 retry, 0x101 unsupported. -/
def chHostMem : Nat := 50
/-- An access of the host's memory protocol to world `w`, which the states of R363 may turn away. -/
def hostMem (w : Nat) (s : State) (k : Out) : Out :=
  if !s.hasWorld w then .fault .notDue
  else match (s.world w).td with
  | .quiesced => .next (s.answer chHostMem 0x100)
  | .error => .next (s.answer chHostMem 0x101)
  | _ => k
/-- The object, its entry and the offset in it that an access to the aperture reaches; none: it fails the checks. -/
def State.aperHit (s : State) (w off len : Nat) (write : Bool) : Option (Nat × Nat) :=
  match (s.world w).aper.find? fun p => p.2.valid && decide (p.2.off ≤ off) && decide (off < p.2.off + aperSpan p.2.len) with
  | none => none
  | some (_, a) =>
    let x := off - a.off
    let e := s.entry a.oid
    if a.len < x + len || !(if write then a.write else a.read) || (s.checkExported a.oid write).isSome
        || !s.rangeHere a.oid e (a.base + x) len || (write && (s.refusedWrite a.oid e (a.base + x) len).isSome) then none
    else some (a.oid, a.base + x)
/-- APERTURE_READ. -/
def execApertureRead (w off len : Nat) (s : State) : Out :=
  hostMem w s (match s.aperHit w off len false with
    | some (o, x) =>
      let e := s.entry o
      if s.badIn o e x len ≠ 0 then .next ((s.poisonObj o).answer chHostMem 1)
      else .next (s.answer chHostMem 0 (s.readObj o e x len))
    | none => .next (s.answer chHostMem 1))
/-- APERTURE_WRITE (R385); the counter of refusals wraps (log 122). -/
def execApertureWrite (w off len v : Nat) (s : State) : Out :=
  hostMem w s (match s.aperHit w off len true with
    | some (o, x) => .next ((s.writeObj o (s.entry o) x (toBytes len v)).answer chHostMem 0)
    | none =>
      .next ((s.updWorld w fun x => { x with aperRefused := (x.aperRefused + 1) % 2 ^ 32 }).answer chHostMem 2))
/-- CXL_SNOOP (R374): the sector, by flat address ÷ 256, is written back before the answer. -/
def execCxlSnoop (sector : Nat) (s : State) : Out :=
  let sp := sector * 256 / 2 ^ 48
  if 8192 ≤ sp || sp % 128 ≠ 69 then .fault .noSuchUnit else .next ((s.secBack sector).answer chHostMem 0)
/-- CXL_LINK_TRAINING (R372): ×16 or ×8, at 64 GT/s or a lower speed; anything else is refused. -/
def execCxlLinkTraining (p width speed : Nat) (s : State) : Out :=
  if 2 ≤ p then .fault .noSuchUnit
  else if (width = 16 || width = 8) && speed ∈ [64, 32, 16, 8, 5, 2] then
    .next { s with cxl := sput 0 s.cxl p (if width = 16 && speed = 64 then 0 else width * 256 + speed) }
  else .next (s.answer chHostMem 2)
/-- Bytes that the host writes into the host mailbox window (R373): the request body alone takes plain writes. -/
def State.hostWrite (s : State) (w off : Nat) (data : List Byte) : Out :=
  if !s.hasWorld w || 65536 < off + data.length then .fault .noSuchUnit
  else match (s.world w).td with
  | .quiesced => .next (s.answer (chHost w) 0x100)
  | .error => .next (s.answer (chHost w) 0x101)
  | _ => if off < 0x1000 then .next s else .next { s with mem := mwrite s.mem (flat (spHost w) off) data }

/-! ### Requests of another world (14 R353) -/

/-- FOREIGN_WORLD_REQUEST: a port of `die`, which does not admit requests of the strand's world, drops a request of strand `k` on object
`oid`, which its world may not reach; the strand takes a deferred WORLD. -/
def execForeignWorldRequest (die k oid : Nat) (s : State) : Out :=
  if 64 ≤ die || sepKey ≤ k then .fault .noSuchUnit
  else if !(s.slot k).holds || !s.foreignDie (k / 1024) die || !s.foreign (k / 16) oid then .fault .notDue
  else .next ((State.refuseAt { s with free := s.free + 1 } (die * 4 + Config.meshEdge s.free % 4) (k / 16) oid).updSlot k fun t =>
    { t.endCounting with dfs := t.dfs ++ [(t.nextWid, cWORLD, oid, t.pc.toNat)] })

end Sys2Proof.Machine
end

