-- ==== Sys2Proof/Machine/Scalar.lean ====
section
/-! DEFINITION. The standard integer, multiply, divide, branch and jump instructions (03 R68 to R71). -/
namespace Sys2Proof.Machine

/-! ### Shared forms -/

/-- x[d] := f x[a] x[b]; the strand issues again after `L` cycles. -/
def aluRR (f : Word → Word → Word) (d a b : Nat) (s : State) (L : Nat := 8) : Out := s.finishX d (f (s.x a) (s.x b)) L
/-- x[d] := f x[a] sext(imm12). -/
def aluRI (f : Word → Word → Word) (d a imm : Nat) (s : State) : Out :=
  s.finishX d (f (s.x a) ((BitVec.ofNat 12 imm).signExtend 64))
/-- x[d] := f x[a] sh. -/
def aluSh (f : Word → Nat → Word) (d a sh : Nat) (s : State) : Out := s.finishX d (f (s.x a) sh)
/-- A W form: f on the low 32 bits, the result sign-extended. -/
def aluW (f : BitVec 32 → BitVec 32 → BitVec 32) (d a b : Nat) (s : State) (L : Nat := 8) : Out :=
  aluRR (fun x y => (f (x.setWidth 32) (y.setWidth 32)).signExtend 64) d a b s L
/-- A 32-bit shift by an immediate. -/
def aluShW (f : BitVec 32 → Nat → BitVec 32) (d a sh : Nat) (s : State) : Out :=
  aluSh (fun x n => (f (x.setWidth 32) n).signExtend 64) d a sh s
/-- A truth value as a register. -/
def ofBool (b : Bool) : Word := if b then 1 else 0
/-- imm20 ‖ 0x000 sign-extended from 32 bits. -/
def upper (imm : Nat) : Word := (BitVec.ofNat 32 (imm * 2 ^ 12)).signExtend 64

/-- A taken transfer to `t` with x[d] := pc + 4, or PC_RANGE with nothing written (03 R71). -/
def transfer (t : Word) (d : Nat) (s : State) : Out :=
  if t.toNat ≤ 0xFFFE then .next (s.upd fun u => (u.setX d (u.pc + 4)).jump t s.cycle) else s.trap cPC_RANGE t.toNat
/-- A branch: taken when `c`, else the next instruction (03 R71). -/
def branch (c : Bool) (off : Nat) (s : State) : Out :=
  if c then transfer (s.me.pc + (BitVec.ofNat 13 off).signExtend 64) 0 s else s.finish id

/-! ### Numbers -/

/-- Leading zeros of the low `n` bits. -/
def clzFrom (w : Word) : Nat → Nat
  | 0 => 0
  | n + 1 => if w.getLsbD n then 0 else clzFrom w n + 1
/-- Trailing zeros from bit `64 - n` on. -/
def ctzFrom (w : Word) : Nat → Nat
  | 0 => 0
  | n + 1 => if w.getLsbD (63 - n) then 0 else ctzFrom w n + 1
/-- Set bits among the low `n`. -/
def popFrom (w : Word) : Nat → Nat
  | 0 => 0
  | n + 1 => popFrom w n + b2n (w.getLsbD n)
/-- Bits [127:64] of a product of integers. -/
def mulHigh (x y : Int) : Word := BitVec.ofInt 64 (x * y / (2 ^ 64 : Nat))
/-- Signed quotient toward zero; by zero all ones, the overflow case the dividend (03 R69). -/
def sdivW {w : Nat} (x y : BitVec w) : BitVec w :=
  if y = 0 then BitVec.allOnes w else BitVec.ofInt w (x.toInt.tdiv y.toInt)
/-- Signed remainder with the sign of the dividend; by zero the dividend (03 R69). -/
def sremW {w : Nat} (x y : BitVec w) : BitVec w := if y = 0 then x else BitVec.ofInt w (x.toInt.tmod y.toInt)
/-- Unsigned quotient; by zero all ones (03 R69). -/
def udivW {w : Nat} (x y : BitVec w) : BitVec w := if y = 0 then BitVec.allOnes w else BitVec.ofNat w (x.toNat / y.toNat)
/-- Unsigned remainder; by zero the dividend (03 R69). -/
def uremW {w : Nat} (x y : BitVec w) : BitVec w := if y = 0 then x else BitVec.ofNat w (x.toNat % y.toNat)

/-! ### R68 -/

/-- LUI. -/
def execLui (d imm : Nat) (s : State) : Out := s.finishX d (upper imm)
/-- AUIPC: the pc is zero-extended from 16 bits. -/
def execAuipc (d imm : Nat) (s : State) : Out := s.finishX d ((s.me.pc.setWidth 16).setWidth 64 + upper imm)
/-- ADDI. -/
def execAddi (d a imm : Nat) (s : State) : Out := aluRI (· + ·) d a imm s
/-- SLTI. -/
def execSlti (d a imm : Nat) (s : State) : Out := aluRI (fun x y => ofBool (x.slt y)) d a imm s
/-- SLTIU. -/
def execSltiu (d a imm : Nat) (s : State) : Out := aluRI (fun x y => ofBool (x.ult y)) d a imm s
/-- XORI. -/
def execXori (d a imm : Nat) (s : State) : Out := aluRI (· ^^^ ·) d a imm s
/-- ORI. -/
def execOri (d a imm : Nat) (s : State) : Out := aluRI (· ||| ·) d a imm s
/-- ANDI. -/
def execAndi (d a imm : Nat) (s : State) : Out := aluRI (· &&& ·) d a imm s
/-- SLLI. -/
def execSlli (d a sh : Nat) (s : State) : Out := aluSh (· <<< ·) d a sh s
/-- SRLI. -/
def execSrli (d a sh : Nat) (s : State) : Out := aluSh (· >>> ·) d a sh s
/-- SRAI. -/
def execSrai (d a sh : Nat) (s : State) : Out := aluSh (fun x n => x.sshiftRight n) d a sh s
/-- CLZ. -/
def execClz (d a : Nat) (s : State) : Out := s.finishX d (BitVec.ofNat 64 (clzFrom (s.x a) 64))
/-- CTZ. -/
def execCtz (d a : Nat) (s : State) : Out := s.finishX d (BitVec.ofNat 64 (ctzFrom (s.x a) 64))
/-- CPOP. -/
def execCpop (d a : Nat) (s : State) : Out := s.finishX d (BitVec.ofNat 64 (popFrom (s.x a) 64))
/-- ADD. -/
def execAdd (d a b : Nat) (s : State) : Out := aluRR (· + ·) d a b s
/-- SUB. -/
def execSub (d a b : Nat) (s : State) : Out := aluRR (· - ·) d a b s
/-- SLL: by x[b][5:0]. -/
def execSll (d a b : Nat) (s : State) : Out := aluRR (fun x y => x <<< (y.toNat % 64)) d a b s
/-- SRL. -/
def execSrl (d a b : Nat) (s : State) : Out := aluRR (fun x y => x >>> (y.toNat % 64)) d a b s
/-- SRA. -/
def execSra (d a b : Nat) (s : State) : Out := aluRR (fun x y => x.sshiftRight (y.toNat % 64)) d a b s
/-- SLT. -/
def execSlt (d a b : Nat) (s : State) : Out := aluRR (fun x y => ofBool (x.slt y)) d a b s
/-- SLTU. -/
def execSltu (d a b : Nat) (s : State) : Out := aluRR (fun x y => ofBool (x.ult y)) d a b s
/-- XOR. -/
def execXor (d a b : Nat) (s : State) : Out := aluRR (· ^^^ ·) d a b s
/-- OR. -/
def execOr (d a b : Nat) (s : State) : Out := aluRR (· ||| ·) d a b s
/-- AND. -/
def execAnd (d a b : Nat) (s : State) : Out := aluRR (· &&& ·) d a b s
/-- ORN. -/
def execOrn (d a b : Nat) (s : State) : Out := aluRR (fun x y => x ||| ~~~y) d a b s
/-- ANDN. -/
def execAndn (d a b : Nat) (s : State) : Out := aluRR (fun x y => x &&& ~~~y) d a b s
/-- SH1ADD: x[b] + (x[a] << 1). -/
def execSh1add (d a b : Nat) (s : State) : Out := aluRR (fun x y => y + (x <<< 1)) d a b s
/-- SH2ADD. -/
def execSh2add (d a b : Nat) (s : State) : Out := aluRR (fun x y => y + (x <<< 2)) d a b s
/-- SH3ADD. -/
def execSh3add (d a b : Nat) (s : State) : Out := aluRR (fun x y => y + (x <<< 3)) d a b s
/-- MIN. -/
def execMin (d a b : Nat) (s : State) : Out := aluRR (fun x y => if x.slt y then x else y) d a b s
/-- MINU. -/
def execMinu (d a b : Nat) (s : State) : Out := aluRR (fun x y => if x.ult y then x else y) d a b s
/-- MAX. -/
def execMax (d a b : Nat) (s : State) : Out := aluRR (fun x y => if x.slt y then y else x) d a b s
/-- MAXU. -/
def execMaxu (d a b : Nat) (s : State) : Out := aluRR (fun x y => if x.ult y then y else x) d a b s
/-- ADDIW. -/
def execAddiw (d a imm : Nat) (s : State) : Out := aluRI (fun x y => ((x + y).setWidth 32).signExtend 64) d a imm s
/-- SLLIW. -/
def execSlliw (d a sh : Nat) (s : State) : Out := aluShW (· <<< ·) d a sh s
/-- SRLIW. -/
def execSrliw (d a sh : Nat) (s : State) : Out := aluShW (· >>> ·) d a sh s
/-- SRAIW. -/
def execSraiw (d a sh : Nat) (s : State) : Out := aluShW (fun x n => x.sshiftRight n) d a sh s
/-- ADDW. -/
def execAddw (d a b : Nat) (s : State) : Out := aluW (· + ·) d a b s
/-- SUBW. -/
def execSubw (d a b : Nat) (s : State) : Out := aluW (· - ·) d a b s
/-- SLLW: by x[b][4:0]. -/
def execSllw (d a b : Nat) (s : State) : Out := aluW (fun x y => x <<< (y.toNat % 32)) d a b s
/-- SRLW. -/
def execSrlw (d a b : Nat) (s : State) : Out := aluW (fun x y => x >>> (y.toNat % 32)) d a b s
/-- SRAW. -/
def execSraw (d a b : Nat) (s : State) : Out := aluW (fun x y => x.sshiftRight (y.toNat % 32)) d a b s

/-! ### R69, with the divider's interval of R70 -/

/-- MUL. -/
def execMul (d a b : Nat) (s : State) : Out := aluRR (· * ·) d a b s
/-- MULH: signed × signed. -/
def execMulh (d a b : Nat) (s : State) : Out := aluRR (fun x y => mulHigh x.toInt y.toInt) d a b s
/-- MULHSU: signed × unsigned. -/
def execMulhsu (d a b : Nat) (s : State) : Out := aluRR (fun x y => mulHigh x.toInt y.toNat) d a b s
/-- MULHU: unsigned × unsigned. -/
def execMulhu (d a b : Nat) (s : State) : Out := aluRR (fun x y => mulHigh x.toNat y.toNat) d a b s
/-- DIV. -/
def execDiv (d a b : Nat) (s : State) : Out := aluRR sdivW d a b s 40
/-- DIVU. -/
def execDivu (d a b : Nat) (s : State) : Out := aluRR udivW d a b s 40
/-- REM. -/
def execRem (d a b : Nat) (s : State) : Out := aluRR sremW d a b s 40
/-- REMU. -/
def execRemu (d a b : Nat) (s : State) : Out := aluRR uremW d a b s 40
/-- MULW. -/
def execMulw (d a b : Nat) (s : State) : Out := aluW (· * ·) d a b s
/-- DIVW. -/
def execDivw (d a b : Nat) (s : State) : Out := aluW sdivW d a b s 24
/-- DIVUW. -/
def execDivuw (d a b : Nat) (s : State) : Out := aluW udivW d a b s 24
/-- REMW. -/
def execRemw (d a b : Nat) (s : State) : Out := aluW sremW d a b s 24
/-- REMUW. -/
def execRemuw (d a b : Nat) (s : State) : Out := aluW uremW d a b s 24

/-! ### R71 -/

/-- JAL. -/
def execJal (d off : Nat) (s : State) : Out := transfer (s.me.pc + (BitVec.ofNat 21 off).signExtend 64) d s
/-- JALR: the target is computed before x[d] is written. -/
def execJalr (d a imm : Nat) (s : State) : Out :=
  transfer ((s.x a + (BitVec.ofNat 12 imm).signExtend 64) &&& ~~~1) d s
/-- BEQ. -/
def execBeq (a b off : Nat) (s : State) : Out := branch (s.x a == s.x b) off s
/-- BNE. -/
def execBne (a b off : Nat) (s : State) : Out := branch (s.x a != s.x b) off s
/-- BLT. -/
def execBlt (a b off : Nat) (s : State) : Out := branch ((s.x a).slt (s.x b)) off s
/-- BGE. -/
def execBge (a b off : Nat) (s : State) : Out := branch (!(s.x a).slt (s.x b)) off s
/-- BLTU. -/
def execBltu (a b off : Nat) (s : State) : Out := branch ((s.x a).ult (s.x b)) off s
/-- BGEU. -/
def execBgeu (a b off : Nat) (s : State) : Out := branch (!(s.x a).ult (s.x b)) off s

end Sys2Proof.Machine
end

