-- ==== Sys2Proof/Machine/Dispatch.lean ====
section
/-! DEFINITION. One arm for each constructor of `Instr`: a direct call of its meaning. -/
namespace Sys2Proof.Machine

/-- The meaning of an instruction or event. -/
def exec (i : Instr) (s : State) : Host.Outcome State Fault Refusal :=
  match i with
  | .lui d imm => Sys2Proof.Machine.execLui d imm s
  | .auipc d imm => Sys2Proof.Machine.execAuipc d imm s
  | .jal d off => Sys2Proof.Machine.execJal d off s
  | .jalr d a imm => Sys2Proof.Machine.execJalr d a imm s
  | .beq a b off => Sys2Proof.Machine.execBeq a b off s
  | .bne a b off => Sys2Proof.Machine.execBne a b off s
  | .blt a b off => Sys2Proof.Machine.execBlt a b off s
  | .bge a b off => Sys2Proof.Machine.execBge a b off s
  | .bltu a b off => Sys2Proof.Machine.execBltu a b off s
  | .bgeu a b off => Sys2Proof.Machine.execBgeu a b off s
  | .addi d a imm => Sys2Proof.Machine.execAddi d a imm s
  | .slti d a imm => Sys2Proof.Machine.execSlti d a imm s
  | .sltiu d a imm => Sys2Proof.Machine.execSltiu d a imm s
  | .xori d a imm => Sys2Proof.Machine.execXori d a imm s
  | .ori d a imm => Sys2Proof.Machine.execOri d a imm s
  | .andi d a imm => Sys2Proof.Machine.execAndi d a imm s
  | .slli d a sh => Sys2Proof.Machine.execSlli d a sh s
  | .srli d a sh => Sys2Proof.Machine.execSrli d a sh s
  | .srai d a sh => Sys2Proof.Machine.execSrai d a sh s
  | .clz d a => Sys2Proof.Machine.execClz d a s
  | .ctz d a => Sys2Proof.Machine.execCtz d a s
  | .cpop d a => Sys2Proof.Machine.execCpop d a s
  | .add d a b => Sys2Proof.Machine.execAdd d a b s
  | .sub d a b => Sys2Proof.Machine.execSub d a b s
  | .sll d a b => Sys2Proof.Machine.execSll d a b s
  | .slt d a b => Sys2Proof.Machine.execSlt d a b s
  | .sltu d a b => Sys2Proof.Machine.execSltu d a b s
  | .xor d a b => Sys2Proof.Machine.execXor d a b s
  | .srl d a b => Sys2Proof.Machine.execSrl d a b s
  | .sra d a b => Sys2Proof.Machine.execSra d a b s
  | .or d a b => Sys2Proof.Machine.execOr d a b s
  | .and d a b => Sys2Proof.Machine.execAnd d a b s
  | .orn d a b => Sys2Proof.Machine.execOrn d a b s
  | .andn d a b => Sys2Proof.Machine.execAndn d a b s
  | .mul d a b => Sys2Proof.Machine.execMul d a b s
  | .mulh d a b => Sys2Proof.Machine.execMulh d a b s
  | .mulhsu d a b => Sys2Proof.Machine.execMulhsu d a b s
  | .mulhu d a b => Sys2Proof.Machine.execMulhu d a b s
  | .div d a b => Sys2Proof.Machine.execDiv d a b s
  | .divu d a b => Sys2Proof.Machine.execDivu d a b s
  | .rem d a b => Sys2Proof.Machine.execRem d a b s
  | .remu d a b => Sys2Proof.Machine.execRemu d a b s
  | .sh1add d a b => Sys2Proof.Machine.execSh1add d a b s
  | .sh2add d a b => Sys2Proof.Machine.execSh2add d a b s
  | .sh3add d a b => Sys2Proof.Machine.execSh3add d a b s
  | .min d a b => Sys2Proof.Machine.execMin d a b s
  | .minu d a b => Sys2Proof.Machine.execMinu d a b s
  | .max d a b => Sys2Proof.Machine.execMax d a b s
  | .maxu d a b => Sys2Proof.Machine.execMaxu d a b s
  | .addiw d a imm => Sys2Proof.Machine.execAddiw d a imm s
  | .slliw d a sh => Sys2Proof.Machine.execSlliw d a sh s
  | .srliw d a sh => Sys2Proof.Machine.execSrliw d a sh s
  | .sraiw d a sh => Sys2Proof.Machine.execSraiw d a sh s
  | .addw d a b => Sys2Proof.Machine.execAddw d a b s
  | .subw d a b => Sys2Proof.Machine.execSubw d a b s
  | .sllw d a b => Sys2Proof.Machine.execSllw d a b s
  | .srlw d a b => Sys2Proof.Machine.execSrlw d a b s
  | .sraw d a b => Sys2Proof.Machine.execSraw d a b s
  | .mulw d a b => Sys2Proof.Machine.execMulw d a b s
  | .divw d a b => Sys2Proof.Machine.execDivw d a b s
  | .divuw d a b => Sys2Proof.Machine.execDivuw d a b s
  | .remw d a b => Sys2Proof.Machine.execRemw d a b s
  | .remuw d a b => Sys2Proof.Machine.execRemuw d a b s
  | .csrrw d csr a => Sys2Proof.Machine.execCsrrw d csr a s
  | .csrrs d csr a => Sys2Proof.Machine.execCsrrs d csr a s
  | .csrrc d csr a => Sys2Proof.Machine.execCsrrc d csr a s
  | .csrrwi d csr uimm => Sys2Proof.Machine.execCsrrwi d csr uimm s
  | .csrrsi d csr uimm => Sys2Proof.Machine.execCsrrsi d csr uimm s
  | .csrrci d csr uimm => Sys2Proof.Machine.execCsrrci d csr uimm s
  | .ldB la c imm d => Sys2Proof.Machine.execLdB la c imm d s
  | .ldH la c imm d => Sys2Proof.Machine.execLdH la c imm d s
  | .ldW la c imm d => Sys2Proof.Machine.execLdW la c imm d s
  | .ldD la c imm d => Sys2Proof.Machine.execLdD la c imm d s
  | .ldBu la c imm d => Sys2Proof.Machine.execLdBu la c imm d s
  | .ldHu la c imm d => Sys2Proof.Machine.execLdHu la c imm d s
  | .ldWu la c imm d => Sys2Proof.Machine.execLdWu la c imm d s
  | .vld la c imm d => Sys2Proof.Machine.execVld la c imm d s
  | .stB la c imm r => Sys2Proof.Machine.execStB la c imm r s
  | .stH la c imm r => Sys2Proof.Machine.execStH la c imm r s
  | .stW la c imm r => Sys2Proof.Machine.execStW la c imm r s
  | .stD la c imm r => Sys2Proof.Machine.execStD la c imm r s
  | .vst la c imm r => Sys2Proof.Machine.execVst la c imm r s
  | .vlds la c o d => Sys2Proof.Machine.execVlds la c o d s
  | .vsts la c o r => Sys2Proof.Machine.execVsts la c o r s
  | .vldx la c o d => Sys2Proof.Machine.execVldx la c o d s
  | .vstx la c o r => Sys2Proof.Machine.execVstx la c o r s
  | .vldt la c o d => Sys2Proof.Machine.execVldt la c o d s
  | .ldFe la c o d => Sys2Proof.Machine.execLdFe la c o d s
  | .ldFet la c o d => Sys2Proof.Machine.execLdFet la c o d s
  | .stFe la c o r => Sys2Proof.Machine.execStFe la c o r s
  | .stFeRel la c o r => Sys2Proof.Machine.execStFeRel la c o r s
  | .feClr la c o => Sys2Proof.Machine.execFeClr la c o s
  | .feProbe la c o d => Sys2Proof.Machine.execFeProbe la c o d s
  | .landArm la c o r => Sys2Proof.Machine.execLandArm la c o r s
  | .landWait la c o r => Sys2Proof.Machine.execLandWait la c o r s
  | .landGet la c o d => Sys2Proof.Machine.execLandGet la c o d s
  | .amoAdd la c r d => Sys2Proof.Machine.execAmoAdd la c r d s
  | .amoAnd la c r d => Sys2Proof.Machine.execAmoAnd la c r d s
  | .amoOr la c r d => Sys2Proof.Machine.execAmoOr la c r d s
  | .amoXor la c r d => Sys2Proof.Machine.execAmoXor la c r d s
  | .amoMin la c r d => Sys2Proof.Machine.execAmoMin la c r d s
  | .amoMax la c r d => Sys2Proof.Machine.execAmoMax la c r d s
  | .amoMinu la c r d => Sys2Proof.Machine.execAmoMinu la c r d s
  | .amoMaxu la c r d => Sys2Proof.Machine.execAmoMaxu la c r d s
  | .amoSwap la c r d => Sys2Proof.Machine.execAmoSwap la c r d s
  | .amoCas la c r d => Sys2Proof.Machine.execAmoCas la c r d s
  | .amoFadd la c r d => Sys2Proof.Machine.execAmoFadd la c r d s
  | .amoEnq la c r d => Sys2Proof.Machine.execAmoEnq la c r d s
  | .amoDeq la c r d => Sys2Proof.Machine.execAmoDeq la c r d s
  | .vadd et vm a b d => Sys2Proof.Machine.execVadd et vm a b d s
  | .vsub et vm a b d => Sys2Proof.Machine.execVsub et vm a b d s
  | .vmul et vm a b d => Sys2Proof.Machine.execVmul et vm a b d s
  | .vmulh et vm a b d => Sys2Proof.Machine.execVmulh et vm a b d s
  | .vmulhu et vm a b d => Sys2Proof.Machine.execVmulhu et vm a b d s
  | .vand et vm a b d => Sys2Proof.Machine.execVand et vm a b d s
  | .vor et vm a b d => Sys2Proof.Machine.execVor et vm a b d s
  | .vxor et vm a b d => Sys2Proof.Machine.execVxor et vm a b d s
  | .vsll et vm a b d => Sys2Proof.Machine.execVsll et vm a b d s
  | .vsrl et vm a b d => Sys2Proof.Machine.execVsrl et vm a b d s
  | .vsra et vm a b d => Sys2Proof.Machine.execVsra et vm a b d s
  | .vmin et vm a b d => Sys2Proof.Machine.execVmin et vm a b d s
  | .vmax et vm a b d => Sys2Proof.Machine.execVmax et vm a b d s
  | .vminu et vm a b d => Sys2Proof.Machine.execVminu et vm a b d s
  | .vmaxu et vm a b d => Sys2Proof.Machine.execVmaxu et vm a b d s
  | .vcmpeq et vm a b d => Sys2Proof.Machine.execVcmpeq et vm a b d s
  | .vcmplt et vm a b d => Sys2Proof.Machine.execVcmplt et vm a b d s
  | .vcmpltu et vm a b d => Sys2Proof.Machine.execVcmpltu et vm a b d s
  | .vcmple et vm a b d => Sys2Proof.Machine.execVcmple et vm a b d s
  | .vfadd et vm a b d => Sys2Proof.Machine.execVfadd et vm a b d s
  | .vfsub et vm a b d => Sys2Proof.Machine.execVfsub et vm a b d s
  | .vfmul et vm a b d => Sys2Proof.Machine.execVfmul et vm a b d s
  | .vfma et vm a b d => Sys2Proof.Machine.execVfma et vm a b d s
  | .vfmin et vm a b d => Sys2Proof.Machine.execVfmin et vm a b d s
  | .vfmax et vm a b d => Sys2Proof.Machine.execVfmax et vm a b d s
  | .vfdiv et vm a b d => Sys2Proof.Machine.execVfdiv et vm a b d s
  | .vfcmpeq et vm a b d => Sys2Proof.Machine.execVfcmpeq et vm a b d s
  | .vfcmplt et vm a b d => Sys2Proof.Machine.execVfcmplt et vm a b d s
  | .vfcmple et vm a b d => Sys2Proof.Machine.execVfcmple et vm a b d s
  | .vsel et vm a b d => Sys2Proof.Machine.execVsel et vm a b d s
  | .vperm et vm a b d => Sys2Proof.Machine.execVperm et vm a b d s
  | .vaddx et vm a b d => Sys2Proof.Machine.execVaddx et vm a b d s
  | .vmulx et vm a b d => Sys2Proof.Machine.execVmulx et vm a b d s
  | .vfmulx et vm a b d => Sys2Proof.Machine.execVfmulx et vm a b d s
  | .vbcast et vm b d => Sys2Proof.Machine.execVbcast et vm b d s
  | .vmvx et a b d => Sys2Proof.Machine.execVmvx et a b d s
  | .vinsx et a b d => Sys2Proof.Machine.execVinsx et a b d s
  | .vslup et vm a b d => Sys2Proof.Machine.execVslup et vm a b d s
  | .vsldn et vm a b d => Sys2Proof.Machine.execVsldn et vm a b d s
  | .vredsum et vm a d => Sys2Proof.Machine.execVredsum et vm a d s
  | .vredmax et vm a d => Sys2Proof.Machine.execVredmax et vm a d s
  | .vredmin et vm a d => Sys2Proof.Machine.execVredmin et vm a d s
  | .vfredsum et vm a d => Sys2Proof.Machine.execVfredsum et vm a d s
  | .vfredamax et vm a d => Sys2Proof.Machine.execVfredamax et vm a d s
  | .vfsqrt et vm a d => Sys2Proof.Machine.execVfsqrt et vm a d s
  | .vfexp2 et vm a d => Sys2Proof.Machine.execVfexp2 et vm a d s
  | .vflog2 et vm a d => Sys2Proof.Machine.execVflog2 et vm a d s
  | .vfrcp et vm a d => Sys2Proof.Machine.execVfrcp et vm a d s
  | .vcvt et k a fmt d => Sys2Proof.Machine.execVcvt et k a fmt d s
  | .vquant sc a fmt d => Sys2Proof.Machine.execVquant sc a fmt d s
  | .vdequant sc a fmt d => Sys2Proof.Machine.execVdequant sc a fmt d s
  | .laccClr d => Sys2Proof.Machine.execLaccClr d s
  | .laccAdd et k a d => Sys2Proof.Machine.execLaccAdd et k a d s
  | .laccMadd a b d => Sys2Proof.Machine.execLaccMadd a b d s
  | .laccMerge a d => Sys2Proof.Machine.execLaccMerge a d s
  | .laccRd a fmt d => Sys2Proof.Machine.execLaccRd a fmt d s
  | .mand a b d => Sys2Proof.Machine.execMand a b d s
  | .mor a b d => Sys2Proof.Machine.execMor a b d s
  | .mxor a b d => Sys2Proof.Machine.execMxor a b d s
  | .mandn a b d => Sys2Proof.Machine.execMandn a b d s
  | .mpop a d => Sys2Proof.Machine.execMpop a d s
  | .vid et vm d => Sys2Proof.Machine.execVid et vm d s
  | .vaddWN d r => Sys2Proof.Machine.execVaddWN d r s
  | .vsubWN d r => Sys2Proof.Machine.execVsubWN d r s
  | .vandN d r => Sys2Proof.Machine.execVandN d r s
  | .vorN d r => Sys2Proof.Machine.execVorN d r s
  | .vxorN d r => Sys2Proof.Machine.execVxorN d r s
  | .vfaddF32N d r => Sys2Proof.Machine.execVfaddF32N d r s
  | .vfmulF32N d r => Sys2Proof.Machine.execVfmulF32N d r s
  | .vfmaxF32N d r => Sys2Proof.Machine.execVfmaxF32N d r s
  | .vfaddBf16N d r => Sys2Proof.Machine.execVfaddBf16N d r s
  | .vfmulBf16N d r => Sys2Proof.Machine.execVfmulBf16N d r s
  | .vfmaxBf16N d r => Sys2Proof.Machine.execVfmaxBf16N d r s
  | .vmaxWN d r => Sys2Proof.Machine.execVmaxWN d r s
  | .vminWN d r => Sys2Proof.Machine.execVminWN d r s
  | .vmv d r => Sys2Proof.Machine.execVmv d r s
  | .vfsubF32N d r => Sys2Proof.Machine.execVfsubF32N d r s
  | .vfsubBf16N d r => Sys2Proof.Machine.execVfsubBf16N d r s
  | .cld a d => Sys2Proof.Machine.execCld a d s
  | .cst a b => Sys2Proof.Machine.execCst a b s
  | .cmv a d => Sys2Proof.Machine.execCmv a d s
  | .csplit a b d => Sys2Proof.Machine.execCsplit a b d s
  | .cjoin a d => Sys2Proof.Machine.execCjoin a d s
  | .cfrac a d => Sys2Proof.Machine.execCfrac a d s
  | .cunfrac a d => Sys2Proof.Machine.execCunfrac a d s
  | .cdrop a => Sys2Proof.Machine.execCdrop a s
  | .cinfo a imm d => Sys2Proof.Machine.execCinfo a imm d s
  | .cfill a b d => Sys2Proof.Machine.execCfill a b d s
  | .objNew a b d => Sys2Proof.Machine.execObjNew a b d s
  | .objFree a => Sys2Proof.Machine.execObjFree a s
  | .keyNew d => Sys2Proof.Machine.execKeyNew d s
  | .keyEnd la a d => Sys2Proof.Machine.execKeyEnd la a d s
  | .mxCfg a d => Sys2Proof.Machine.execMxCfg a d s
  | .mxWld la a imm => Sys2Proof.Machine.execMxWld la a imm s
  | .mxMma la a b d => Sys2Proof.Machine.execMxMma la a b d s
  | .mxZero la d => Sys2Proof.Machine.execMxZero la d s
  | .mxSt la a d => Sys2Proof.Machine.execMxSt la a d s
  | .mxSwap la a b => Sys2Proof.Machine.execMxSwap la a b s
  | .mxAfl la a b d => Sys2Proof.Machine.execMxAfl la a b d s
  | .mxWait la d => Sys2Proof.Machine.execMxWait la d s
  | .mxStat imm d => Sys2Proof.Machine.execMxStat imm d s
  | .mbSend la a b d => Sys2Proof.Machine.execMbSend la a b d s
  | .mbRecv la a imm d => Sys2Proof.Machine.execMbRecv la a imm d s
  | .mbPeek imm d => Sys2Proof.Machine.execMbPeek imm d s
  | .mvCopy la a b d => Sys2Proof.Machine.execMvCopy la a b d s
  | .rgPop la a imm d => Sys2Proof.Machine.execRgPop la a imm d s
  | .rgPush la a b d => Sys2Proof.Machine.execRgPush la a b d s
  | .rgDone a imm => Sys2Proof.Machine.execRgDone a imm s
  | .chSub la a b d => Sys2Proof.Machine.execChSub la a b d s
  | .chUnsub la a d => Sys2Proof.Machine.execChUnsub la a d s
  | .cdlNew a b d => Sys2Proof.Machine.execCdlNew a b d s
  | .cdlDec la a b => Sys2Proof.Machine.execCdlDec la a b s
  | .strNew a b d => Sys2Proof.Machine.execStrNew a b d s
  | .mig a => Sys2Proof.Machine.execMig a s
  | .tagDecl la a b d => Sys2Proof.Machine.execTagDecl la a b d s
  | .tagPub la a b d => Sys2Proof.Machine.execTagPub la a b d s
  | .barArr a d => Sys2Proof.Machine.execBarArr a d s
  | .barWait la a b d => Sys2Proof.Machine.execBarWait la a b d s
  | .slotBorrow a d => Sys2Proof.Machine.execSlotBorrow a d s
  | .slotRet a => Sys2Proof.Machine.execSlotRet a s
  | .xmvRd a imm d => Sys2Proof.Machine.execXmvRd a imm d s
  | .xmvWr a imm d => Sys2Proof.Machine.execXmvWr a imm d s
  | .strStop a => Sys2Proof.Machine.execStrStop a s
  | .strSave la a b => Sys2Proof.Machine.execStrSave la a b s
  | .strLoad la a b => Sys2Proof.Machine.execStrLoad la a b s
  | .strGo a => Sys2Proof.Machine.execStrGo a s
  | .rpt n b => Sys2Proof.Machine.execRpt n b s
  | .jseg a d => Sys2Proof.Machine.execJseg a d s
  | .ifetch la a b => Sys2Proof.Machine.execIfetch la a b s
  | .shk la a b d => Sys2Proof.Machine.execShk la a b d s
  | .edsig la a b d => Sys2Proof.Machine.execEdsig la a b d s
  | .edver la a b d => Sys2Proof.Machine.execEdver la a b d s
  | .bist la a b d => Sys2Proof.Machine.execBist la a b d s
  | .drbg d => Sys2Proof.Machine.execDrbg d s
  | .ecall => Sys2Proof.Machine.execEcall s
  | .ebreak => Sys2Proof.Machine.execEbreak s
  | .wfi => Sys2Proof.Machine.execWfi s
  | .tret => Sys2Proof.Machine.execTret s
  | .dret => Sys2Proof.Machine.execDret s
  | .cdlDone => Sys2Proof.Machine.execCdlDone s
  | .strExit => Sys2Proof.Machine.execStrExit s
  | .strYield => Sys2Proof.Machine.execStrYield s
  | .lookaheadWindowClose k w => Sys2Proof.Machine.execLookaheadWindowClose k w s
  | .trapEntry k => Sys2Proof.Machine.execTrapEntry k s
  | .watchdogExpiry k => Sys2Proof.Machine.execWatchdogExpiry k s
  | .waitLimitExpiry k w => Sys2Proof.Machine.execWaitLimitExpiry k w s
  | .barWaitLimitExpiry k w => Sys2Proof.Machine.execBarWaitLimitExpiry k w s
  | .timerExpiry k => Sys2Proof.Machine.execTimerExpiry k s
  | .yieldExpiry k => Sys2Proof.Machine.execYieldExpiry k s
  | .waitListRetry k w => Sys2Proof.Machine.execWaitListRetry k w s
  | .matrixCommandStart g => Sys2Proof.Machine.execMatrixCommandStart g s
  | .matrixCommandComplete g u => Sys2Proof.Machine.execMatrixCommandComplete g u s
  | .matrixCommandError g u => Sys2Proof.Machine.execMatrixCommandError g u s
  | .mxSwapPairing g => Sys2Proof.Machine.execMxSwapPairing g s
  | .moveCommandStart g => Sys2Proof.Machine.execMoveCommandStart g s
  | .moveCommandComplete id => Sys2Proof.Machine.execMoveCommandComplete id s
  | .ifetchLoadComplete id => Sys2Proof.Machine.execIfetchLoadComplete id s
  | .landingPacketCount id p => Sys2Proof.Machine.execLandingPacketCount id p s
  | .mailboxReservation id => Sys2Proof.Machine.execMailboxReservation id s
  | .mailboxReservationRetry id => Sys2Proof.Machine.execMailboxReservationRetry id s
  | .byteCopyComplete id => Sys2Proof.Machine.execByteCopyComplete id s
  | .messageComplete id => Sys2Proof.Machine.execMessageComplete id s
  | .ringSlotWrite id => Sys2Proof.Machine.execRingSlotWrite id s
  | .churnLoaderPush sub => Sys2Proof.Machine.execChurnLoaderPush sub s
  | .churnStorerWrite sub => Sys2Proof.Machine.execChurnStorerWrite sub s
  | .subscriptionEnd sub => Sys2Proof.Machine.execSubscriptionEnd sub s
  | .codeletDispatch g => Sys2Proof.Machine.execCodeletDispatch g s
  | .codeletAbort k => Sys2Proof.Machine.execCodeletAbort k s
  | .migratedStrandEntry g => Sys2Proof.Machine.execMigratedStrandEntry g s
  | .stopTakesEffect k => Sys2Proof.Machine.execStopTakesEffect k s
  | .tagDeclAtHome id => Sys2Proof.Machine.execTagDeclAtHome id s
  | .tagPubAtHome id => Sys2Proof.Machine.execTagPubAtHome id s
  | .completionNotice g idx => Sys2Proof.Machine.execCompletionNotice g idx s
  | .launchRequest w => Sys2Proof.Machine.execLaunchRequest w s
  | .heldLaunchStart => Sys2Proof.Machine.execHeldLaunchStart s
  | .runComplete idx => Sys2Proof.Machine.execRunComplete idx s
  | .completionReportNext w => Sys2Proof.Machine.execCompletionReportNext w s
  | .exportRequest w => Sys2Proof.Machine.execExportRequest w s
  | .revokeRequest w => Sys2Proof.Machine.execRevokeRequest w s
  | .hostTierGrant w => Sys2Proof.Machine.execHostTierGrant w s
  | .writeWrow w v => Sys2Proof.Machine.execWriteWrow w v s
  | .writeCertificateSlot w => Sys2Proof.Machine.execWriteCertificateSlot w s
  | .certWriteApply w => Sys2Proof.Machine.execCertWriteApply w s
  | .evictGranules w => Sys2Proof.Machine.execEvictGranules w s
  | .restoreGranules w => Sys2Proof.Machine.execRestoreGranules w s
  | .getTdispVersion w => Sys2Proof.Machine.execGetTdispVersion w s
  | .getTdispCapabilities w => Sys2Proof.Machine.execGetTdispCapabilities w s
  | .lockInterfaceRequest w => Sys2Proof.Machine.execLockInterfaceRequest w s
  | .getDeviceInterfaceReport w => Sys2Proof.Machine.execGetDeviceInterfaceReport w s
  | .getDeviceInterfaceState w => Sys2Proof.Machine.execGetDeviceInterfaceState w s
  | .startInterfaceRequest w => Sys2Proof.Machine.execStartInterfaceRequest w s
  | .stopInterfaceRequest w => Sys2Proof.Machine.execStopInterfaceRequest w s
  | .quiesce w => Sys2Proof.Machine.execQuiesce w s
  | .quiesceComplete w => Sys2Proof.Machine.execQuiesceComplete w s
  | .resume w => Sys2Proof.Machine.execResume w s
  | .tdispUnsupportedRequest w b => Sys2Proof.Machine.execTdispUnsupportedRequest w b s
  | .functionLevelReset w => Sys2Proof.Machine.execFunctionLevelReset w s
  | .ideIntegrityFailure w => Sys2Proof.Machine.execIdeIntegrityFailure w s
  | .lockedConfigWrite w => Sys2Proof.Machine.execLockedConfigWrite w s
  | .separatorStateError w => Sys2Proof.Machine.execSeparatorStateError w s
  | .firmwareActivation w digest => Sys2Proof.Machine.execFirmwareActivation w digest s
  | .spdmGetVersion t => Sys2Proof.Machine.execSpdmGetVersion t s
  | .spdmGetCapabilities t ver => Sys2Proof.Machine.execSpdmGetCapabilities t ver s
  | .spdmNegotiateAlgorithms t ver asym hash => Sys2Proof.Machine.execSpdmNegotiateAlgorithms t ver asym hash s
  | .spdmGetDigests t ver => Sys2Proof.Machine.execSpdmGetDigests t ver s
  | .spdmGetCertificate t ver slot off len => Sys2Proof.Machine.execSpdmGetCertificate t ver slot off len s
  | .spdmChallenge t ver slot => Sys2Proof.Machine.execSpdmChallenge t ver slot s
  | .spdmGetMeasurements t ver idx => Sys2Proof.Machine.execSpdmGetMeasurements t ver idx s
  | .spdmUnsupportedRequest t ver code => Sys2Proof.Machine.execSpdmUnsupportedRequest t ver code s
  | .mapRead die off len => Sys2Proof.Machine.execMapRead die off len s
  | .blackBoxRead die r => Sys2Proof.Machine.execBlackBoxRead die r s
  | .repairRecordRead idx => Sys2Proof.Machine.execRepairRecordRead idx s
  | .marginAccess reg wr v => Sys2Proof.Machine.execMarginAccess reg wr v s
  | .selfTest die word seed => Sys2Proof.Machine.execSelfTest die word seed s
  | .selfTestComplete die => Sys2Proof.Machine.execSelfTestComplete die s
  | .operatorWorld v => Sys2Proof.Machine.execOperatorWorld v s
  | .marginPointStart reg v => Sys2Proof.Machine.execMarginPointStart reg v s
  | .marginPointComplete reg errs => Sys2Proof.Machine.execMarginPointComplete reg errs s
  | .railOffsetWrite die v => Sys2Proof.Machine.execRailOffsetWrite die v s
  | .railOffsetApplied die => Sys2Proof.Machine.execRailOffsetApplied die s
  | .rptcWrite v => Sys2Proof.Machine.execRptcWrite v s
  | .wdogWrite v => Sys2Proof.Machine.execWdogWrite v s
  | .tdeltaWrite v => Sys2Proof.Machine.execTdeltaWrite v s
  | .fmodeWrite v => Sys2Proof.Machine.execFmodeWrite v s
  | .mxcfgWrite v => Sys2Proof.Machine.execMxcfgWrite v s
  | .registerWrite csr v => Sys2Proof.Machine.execRegisterWrite csr v s
  | .ualinkRetransmit id => Sys2Proof.Machine.execUalinkRetransmit id s
  | .ualinkRequestTimeout id => Sys2Proof.Machine.execUalinkRequestTimeout id s
  | .duplicateCacheExpiry st idx => Sys2Proof.Machine.execDuplicateCacheExpiry st idx s
  | .busyRetry id => Sys2Proof.Machine.execBusyRetry id s
  | .windowOpen st idx peer => Sys2Proof.Machine.execWindowOpen st idx peer s
  | .windowAccessAtExporter st idx gen off len wr v => Sys2Proof.Machine.execWindowAccessAtExporter st idx gen off len wr v s
  | .apertureRead w off len => Sys2Proof.Machine.execApertureRead w off len s
  | .apertureWrite w off len v => Sys2Proof.Machine.execApertureWrite w off len v s
  | .cxlSnoop sector => Sys2Proof.Machine.execCxlSnoop sector s
  | .foreignWorldRequest die k oid => Sys2Proof.Machine.execForeignWorldRequest die k oid s
  | .correctableError die cls res => Sys2Proof.Machine.execCorrectableError die cls res s
  | .uncorrectableError die cls res => Sys2Proof.Machine.execUncorrectableError die cls res s
  | .linkCrcFailure die lane replays => Sys2Proof.Machine.execLinkCrcFailure die lane replays s
  | .errorWindowBoundary die => Sys2Proof.Machine.execErrorWindowBoundary die s
  | .tileFence g => Sys2Proof.Machine.execTileFence g s
  | .keyEndZeroFillComplete port key => Sys2Proof.Machine.execKeyEndZeroFillComplete port key s
  | .powerThrottle die => Sys2Proof.Machine.execPowerThrottle die s
  | .coldReset => Sys2Proof.Machine.execColdReset s
  | .warmReset => Sys2Proof.Machine.execWarmReset s
  | .haltRequest k => Sys2Proof.Machine.execHaltRequest k s
  | .debugHalt k => Sys2Proof.Machine.execDebugHalt k s
  | .tileStop g => Sys2Proof.Machine.execTileStop g s
  | .tileResume g => Sys2Proof.Machine.execTileResume g s
  | .debugResume k => Sys2Proof.Machine.execDebugResume k s
  | .accessRegister k reg wr v => Sys2Proof.Machine.execAccessRegister k reg wr v s
  | .programBufferExecute k => Sys2Proof.Machine.execProgramBufferExecute k s
  | .throttleEnd die => Sys2Proof.Machine.execThrottleEnd die s
  | .traceBufferWrite g => Sys2Proof.Machine.execTraceBufferWrite g s
  | .cxlLinkTraining p width speed => Sys2Proof.Machine.execCxlLinkTraining p width speed s
  | .malformedRequest w => Sys2Proof.Machine.execMalformedRequest w s
  | .strandEntryRetry id => Sys2Proof.Machine.execStrandEntryRetry id s
  | .entropyHealthFailure => Sys2Proof.Machine.execEntropyHealthFailure s

end Sys2Proof.Machine
end

