-- ==== Sys2Proof/Machine/Trigger.lean ====
section
/-! DEFINITION. The triggers of the debug module (16 R393 to R395). -/
namespace Sys2Proof.Machine

/-! ### Triggers -/

/-- Bytes that an access reaches: the object, first offset, count, whether it reads and whether it writes. -/
abbrev Reach := Nat × Int × Nat × Bool × Bool

/-- What an instruction reaches, as the bounds check of 04 R86 computes it; engine transfers are not matched (R394). -/
def reach (t : Slot) (i : Instr) : List Reach :=
  let one (n : Nat) (r w : Bool) (sz : Nat) (a : Int) : Reach := ((t.getC n).o, a, sz, r, w)
  let mem (c imm sz : Nat) (r w : Bool) : List Reach := [one c r w sz (memOff (t.getC c) imm sz)]
  let at_ (c o sz : Nat) (r w : Bool) : List Reach := [one c r w sz (xOff (t.getC c) (t.getX o).toNat)]
  let st (c o : Nat) (r w : Bool) : List Reach :=
    (strided (t.getC c) (t.getX o).toNat (t.getX (o + 1)).toNat).map (one c r w (2 ^ bits (t.getX (o + 1)).toNat 62 2))
  let ix (c o : Nat) (r w : Bool) : List Reach := (indexed (t.getC c) (t.getV o)).map (one c r w 4)
  match i with
  | .ldB _ c imm _ => mem c imm 1 true false
  | .ldH _ c imm _ => mem c imm 2 true false
  | .ldW _ c imm _ => mem c imm 4 true false
  | .ldD _ c imm _ => mem c imm 8 true false
  | .ldBu _ c imm _ => mem c imm 1 true false
  | .ldHu _ c imm _ => mem c imm 2 true false
  | .ldWu _ c imm _ => mem c imm 4 true false
  | .stB _ c imm _ => mem c imm 1 false true
  | .stH _ c imm _ => mem c imm 2 false true
  | .stW _ c imm _ => mem c imm 4 false true
  | .stD _ c imm _ => mem c imm 8 false true
  | .vld _ c imm _ => mem c imm 128 true false
  | .vst _ c imm _ => mem c imm 128 false true
  | .vlds _ c o _ => st c o true false
  | .vsts _ c o _ => st c o false true
  | .vldx _ c o _ => ix c o true false
  | .vstx _ c o _ => ix c o false true
  | .vldt _ c o _ => at_ c o (127 * 128 + 1) true false
  | .ldFe _ c o _ => at_ c o 8 true false
  | .ldFet _ c o _ => at_ c o 8 true true
  | .stFe _ c o _ => at_ c o 8 false true
  | .stFeRel _ c o _ => at_ c o 8 false true
  | .feClr _ c o => at_ c o 8 false true
  | .feProbe _ c o _ => at_ c o 8 true false
  | .landArm _ c o _ => at_ c o 16 false true
  | .landWait _ c o _ => at_ c o 16 true false
  | .landGet _ c o _ => at_ c o 16 true false
  | .amoAdd _ c _ d => at_ c d 8 false true
  | .amoAnd _ c _ d => at_ c d 8 false true
  | .amoOr _ c _ d => at_ c d 8 false true
  | .amoXor _ c _ d => at_ c d 8 false true
  | .amoMin _ c _ d => at_ c d 8 false true
  | .amoMax _ c _ d => at_ c d 8 false true
  | .amoMinu _ c _ d => at_ c d 8 false true
  | .amoMaxu _ c _ d => at_ c d 8 false true
  | .amoSwap _ c _ d => at_ c d 8 false true
  | .amoCas _ c _ d => at_ c d 8 false true
  | .amoFadd _ c _ d => at_ c d 8 false true
  | .amoEnq _ c _ d => at_ c d 32 false true
  | .amoDeq _ c _ d => at_ c d 32 false true
  | .cdlNew c _ _ => [one c true true 64 (t.getC c).b]
  | .tagDecl _ c _ _ => [one c true false 64 (t.getC c).b]
  | _ => []

/-- Trigger `j` of tile `g` matches the instruction at the pc of slot `k` (R393, R394); none for the instruction: its length only. -/
def State.trigHit (s : State) (k : Nat) (i : Option Instr) (j : Nat) : Bool :=
  let T := s.tile (k / 16)
  let t := s.slot k
  let d1 := (sget 0 T.tdata1 j).toNat
  let d2 := (sget 0 T.tdata2 j).toNat
  let pc := t.pc.toNat
  let where_ := bits d1 32 16 = 0 || tbit d1 (32 + k % 16)
  let mode := match t.mode with
    | .u => tbit d1 3
    | .s => tbit d1 4
    | .m => false
    | .d => false
  tbit d1 2 && where_ && mode &&
    (if j < 4 then
      if tbit d1 23 then (sget {} T.ov (pc / 0x2000)).seg == bits d1 24 8 && pc % 0x2000 == bits d2 1 12 * 2
      else pc == bits d2 1 15 * 2
    else match i with
      | some i => (reach t i).any fun (r : Reach) => r.1 == d2 / 2 ^ 36 && decide (r.2.1 ≤ (d2 % 2 ^ 36 : Nat))
          && decide (((d2 % 2 ^ 36 : Nat) : Int) < r.2.1 + r.2.2.1) && ((tbit d1 7 && r.2.2.2.1) || (tbit d1 6 && r.2.2.2.2))
      | none => false)
/-- The trigger that fires on the instruction at the pc: the lowest that matches, none for the first instruction after a TRET or
DRET (R395). -/
def State.trigger (s : State) (k : Nat) (i : Option Instr) : Option Nat :=
  if (s.tile (k / 16)).tdata1.isEmpty || (s.slot k).noTrig then none else (List.range 6).find? fun j => s.trigHit k i j
/-- The trigger's record in the trace (R396, R398). -/
def State.traceTrig (s : State) (k j : Nat) : State :=
  if tbit (s.tile (k / 16)).trctl 0 && tbit (s.tile (k / 16)).trctl 3 then
    s.updTile (k / 16) fun t => t.trace s.tick (k % 16) (s.traceSt k) 1 (j * 2 ^ 16 + (s.slot k).pc.toNat % 2 ^ 16)
  else s

end Sys2Proof.Machine
end

