-- ==== Sys2Proof/Machine/Issue.lean ====
section
/-! DEFINITION. The issue of one instruction by a tile's core (03 R51 to R53): fetch, decode, triggers, skipped bodies of rpt (R76),
single step (16 R392) and the program buffer (03 R62). -/
namespace Sys2Proof.Machine

/-- The instruction at the pc of slot `k` has not issued: it is held. -/
def State.heldNow (s : State) (k : Nat) : Bool := match (s.slot k).hold with
  | some h => !h.why.parks
  | none => false

/-- What follows the issue of an instruction in slot `k`: the cycle is used, str.yield of the others, and a single step ends, unless `dbg`:
the instruction was one of the program buffer. -/
def State.afterIssue (s : State) (k w : Nat) (dbg : Bool := false) : State :=
  let g := k / 16
  let s := s.updTile g fun t => { t with issuedAt := s.cycle + 1 }
  let s := s.forSlots g (fun i t =>
    if t.yieldFor.contains i then t
    else if t.yieldFor.contains (k % 16) then { t with yieldFor := t.yieldFor.filter (· != k % 16) } else t) 16
  let s := s.updSlot k fun t =>
    if t.stepping && t.haltReq = 0 && !dbg then { t.endCounting with age := 0, haltReq := 4 } else { t with age := 0 }
  if vectorBits w then (s.updTile g fun t => { t with vecFree := max t.vecFree (s.slot k).nextAt }).count g 13 else s

/-- An outcome of slot `k`'s attempt to issue: an instruction that is held has not issued. -/
def issueEnd (k w : Nat) (o : Out) (dbg : Bool := false) : Out := match o with
  | .next s => .next (if s.heldNow k then s else s.afterIssue k w dbg)
  | x => x

/-- The instruction at the pc with bits `w`, or what takes its place, is done by `go`, unless a trigger fires (16 R395): BREAK, a halt, or
an interrupt beside it. -/
def State.fire (s : State) (i : Option Instr) (w : Nat) (go : State → Out) : Out :=
  let k := s.cur
  match s.trigger k i with
  | none => go s
  | some j =>
    let s := s.traceTrig k j
    match bits (sget 0 (s.tile (k / 16)).tdata1 j).toNat 12 4 with
    | 0 => issueEnd k w (s.trap cBREAK s.me.pc.toNat)
    | 1 => .next (s.upd fun t => { t.endCounting with haltReq := 2 + 8 * j, hold := none })
    | _ => go (s.upd (·.setTip 4))
/-- The instruction `i` with bits `w` at the pc of the executing strand, which a trigger does not meet while it is held. -/
def State.runTrig (s : State) (i : Instr) (w : Nat) : Out :=
  match exec i s with
  | .next s' => if s'.heldNow s.cur then .next s' else s.fire (some i) w fun s => issueEnd s.cur w (exec i s)
  | x => x

/-- An instruction that an rpt of count 0 passes over (03 R76): it takes an issue, writes nothing and is not counted by instret. -/
def State.passOver (s : State) (w len : Nat) : Out :=
  s.fire none w fun s => if w % 4 = 3 && bits w 2 3 = 7 then issueEnd s.cur w (s.trap cILLEGAL w) else pastIt s
where
  /-- The pc moves past it. -/
  pastIt (s : State) : Out :=
    issueEnd s.cur w (.next (s.upd fun t => { t with pc := t.pc + BitVec.ofNat 64 len, skip := t.skip - 1 }.issued 8 s.cycle))

/-- The fetched instruction executes, or raises ILLEGAL with its bits (02 R26). A vector instruction waits for the self-test of another slot
(17 R402). -/
def State.runWord (s : State) (w len : Nat) : Out :=
  if s.me.skip ≠ 0 && s.me.mode != .d then s.passOver w len
  else if vectorBits w && s.vecTested s.cur then .next (s.holdOn .vecTest)
  else match decode w with
  | .ok i => s.runTrig i w
  | .error _ => s.fire none w fun s => issueEnd s.cur w (s.trap cILLEGAL w)

/-- The next word of the program buffer in D mode (03 R62; 16): after the eighth, or a trap, the program ends and the debugger has
its answer. A 16-bit form lies in the low half of its word. -/
def State.runPbuf (s : State) (n : Nat) : Out :=
  let k := s.cur
  let w0 := sget 0 (s.tile s.gta).pbuf n
  let w := if ilen (w0 % 65536) = 2 then w0 % 65536 else w0
  let r := if vectorBits w && s.vecTested k then .next (s.holdOn .vecTest)
    else match decode w with
    | .ok i => exec i s
    | .error _ => s.trap cILLEGAL w
  match issueEnd k w r true with
  | .next s =>
    let t := s.slot k
    if t.mode != .d then .next (s.answer chDebug 0)
    else if t.dErr.isSome then .next (s.answer chDebug 3)
    else if t.hold.isSome then .next s
    else if n = 7 then .next ((s.updSlot k fun t => { t with pbPos := none }).answer chDebug 0)
    else .next (s.updSlot k fun t => { t with pbPos := some (n + 1) })
  | x => x

/-- Slot `k` issues: the fault of its dispatch first (11 R290), then the instruction at its pc. -/
def State.issueSlot (s : State) (k : Nat) : Out :=
  let s := { s with cur := k }
  let t := s.me
  match t.pbPos with
  | some n => s.runPbuf n
  | none =>
    match t.startFault with
    | some f => issueEnd k 0 ((s.upd fun t => { t with startFault := none }).trap f.1 f.2)
    | none =>
      match s.fetch s.gta t.pc.toNat with
      | .busy j => .next (s.holdOn (.fetch j))
      | .fault c v => issueEnd k 0 (s.trap c v)
      | .got w len => s.runWord w len

/-- The next instruction of slot `k` is held: an eligible slot enters Waiting in the cycle in which its instruction comes to wait (03 R51,
R55), whichever slot the core picks. -/
def State.tryHold (s : State) (k : Nat) : Option State :=
  if !s.eligible k then none
  else match s.issueSlot k with
  | .next s' => if s'.heldNow k then some s' else none
  | _ => none
/-- The first slot of tile `g` that comes to wait. -/
def State.tryTile (s : State) (g : Nat) : Option State := (List.range 16).findSome? fun i => s.tryHold (g * 16 + i)

/-- The core of tile `g` issues one instruction (03 R52, R53): the slot it picks, once a cycle. Before it, the slots whose next instruction
must wait enter Waiting, one in each step. -/
def State.issue (s : State) (g : Nat) : Out :=
  match s.tryTile g with
  | some s' => .next s'
  | none =>
    if (s.tile g).issuedAt = s.cycle + 1 then .fault .notDue
    else match s.pick g with
    | none => .fault .notDue
    | some k => s.issueSlot k

end Sys2Proof.Machine
end

