-- ==== Sys2Proof/Machine/Clock.lean ====
section
/-! DEFINITION. What moves next: expiries, the passing of a cycle (03 R52, R53; 12 R321, R332; 16 R399), the turns of the agenda, and the
default order when it is empty (log 5). -/
namespace Sys2Proof.Machine

/-! ### Expiries (12 R321, R332; 13 R342) -/

/-- The expiry of slot `k` that is due: it happens before anything else does (R321). -/
def State.slotExpiry (s : State) (k : Nat) (t : Slot) : Option State :=
  let go (o : Out) : Option State := match o with
    | .next s' => some s'
    | _ => none
  if !t.holds then none
  else if t.wdPend || (t.wdDue && !t.held && !t.stepping) then
    match go (execWatchdogExpiry k s) with
    | some s' => some s'
    | none => rest go
  else rest go
where
  /-- Timers and limits. -/
  rest (go : Out → Option State) : Option State :=
    if t.tmDue then go (execTimerExpiry k s)
    else match t.wins.find? Win.expired with
    | some w => (match w.st with
      | .wait (.bar ..) => go (execBarWaitLimitExpiry k w.id s)
      | _ => go (execWaitLimitExpiry k w.id s))
    | none => match t.hold with
      | some ⟨.barLead _ _, some 0, _⟩ => go (execWaitLimitExpiry k 0 s)
      | _ => none
/-- What happens in slot `k` before any expiry: a codelet halted by a double trap writes its commit buffer out (13 R337), a restartable
codelet that has met a granule that is not resident is aborted (05 R135), a WFI whose condition holds ends (03 R74), and a str.save
whose slot is ready writes its record (12 R327). -/
def State.slotDue (s : State) (k : Nat) (t : Slot) : Option State :=
  if s.frozen k then none
  else if t.stopped && t.restartable then some (s.cbufFlush k)
  else if t.restartable && !t.mode == .d && (s.late.any (·.1 == k) || t.wins.any fun w => match w.st with
      | .wait (.resident ..) => true
      | _ => false) then
    (match execCodeletAbort k s with
    | .next s' => some s'
    | _ => none)
  else if t.wfiEnds then some (s.updSlot k (·.unpark s.cycle))
  else t.wins.findSome? fun w => match w.st with
    | .wait (.save j c lkey) => if s.saveReady j then some (s.saveStep k w.id j c lkey) else none
    | _ => none
/-- What is due first in any slot. -/
def State.expiry (s : State) : Option State := (s.slots.findSome? fun p => (s.slotDue p.1 p.2).or (s.slotExpiry p.1 p.2)).or
  (s.keyEndsDue.or (s.winDue.head?.map fun d => { s.clearCounts d with winDue := s.winDue.filter (· != d) }))

/-! ### A cycle passes -/

/-- A count that the boundary ending tick `e` lowers: the tick of the posting is not counted. -/
def countDown (e post : Nat) (l : Option Nat) : Option Nat := match l with
  | some (n + 1) => if post < e then some n else some (n + 1)
  | x => x
/-- The boundary that ends tick `e` in a slot: limits, watchdog and timer of a strand that is not Halted (R321, R332, 13 R341). -/
def Slot.tickEnd (e : Nat) (t : Slot) : Slot :=
  if !t.holds || t.stopped || t.halted then t
  else
    let td := bits t.tip.toNat 32 32
    let w := t.wdog != 0 && decide (t.wdPost < e)
    let d := td != 0 && decide (t.tdPost < e)
    { t with wins := t.wins.map fun x => { x with lim := countDown e x.post x.lim }
             hold := t.hold.map fun h => { h with lim := countDown e h.post h.lim }
             wdog := if w then t.wdog - 1 else t.wdog
             wdPend := t.wdPend || (w && t.wdog == 1)
             tip := if d then BitVec.ofNat 64 (setBits t.tip.toNat 32 32 (td - 1)) else t.tip
             tmDue := t.tmDue || (d && td == 1) }
/-- Slot `k` waits for the accumulate unit (08 R220). -/
def State.laccHeld (s : State) (k : Nat) : Bool :=
  let t := s.slot k
  t.holds && !t.stopped && !t.halted && (t.hold.any fun h => h.why == .lacc) && !s.holdOver k .lacc
/-- Performance counters of a tile for the cycle that ends (16 R399). -/
def State.countCycle (s : State) (g : Nat) : State :=
  if (s.tile g).pcsel.isEmpty then s
  else
    let issued := (s.tile g).issuedAt == s.cycle + 1
    let s1 := if issued then s.count g 1 else if !(List.range 16).any (fun i => s.eligible (g * 16 + i)) then s.count g 2 else s
    let s1 := if s.unitOn g 1 then s1.count g 3 else s1
    let s1 := if s.unitOn g 0 then s1.count g 4 else s1
    let s1 := if (List.range 16).any fun i => s.laccHeld (g * 16 + i) then s1.count g 14 else s1
    if s.throttled g then s1.count g 15 else s1
/-- One cycle passes: ages grow, and are 0 in a slot that is not eligible (R52; log 118), counters count, and a tick may end: 15 cycles (00 R4). -/
def State.clock (s : State) : State :=
  let gs := s.tiles.map (·.1)
  let s := gs.foldl (fun (s : State) g => s.countCycle g) s
  let last := (s.cycle + 1) % 15 = 0
  let s := if last then gs.foldl (fun (s : State) g => s.traceStates g) s else s
  let e := s.tick
  let slot (p : Nat × Slot) : Nat × Slot :=
    let t : Slot := if p.2.holds then { p.2 with age := if s.eligible p.1 then p.2.age + 1 else 0, tipNow := 0, flagNow := 0 } else p.2
    let t := { t with wasFree := t.occ == .empty }
    (p.1, if last && !s.frozen p.1 then t.tickEnd e else t)
  { s with slots := s.slots.map slot, winDue := if last then s.windowsEnd else s.winDue, cycle := s.cycle + 1 }

/-! ### Turns -/

/-- The lowest tile that can issue in this cycle, or of which a slot comes to wait. -/
def State.nextTile (s : State) : Option Nat :=
  (s.tiles.find? fun p => (s.tryTile p.1).isSome || (p.2.issuedAt != s.cycle + 1 && (s.pick p.1).isSome)).map (·.1)

/-- A lookahead window whose operation has completed by a rule closes in this cycle: what R55 asks for holds. The answer of any other
operation may still be on its way (00 R4; log 47). -/
def State.closeDue (s : State) : Bool := s.slots.any fun p => p.2.wins.any fun w => w.prompt && match execLookaheadWindowClose p.1 w.id s with
  | .next _ => true
  | _ => false
/-- The step can happen. -/
def isNext : Out → Bool
  | .next _ => true
  | _ => false
/-- A boundary of slot `k` that a rule puts in this cycle: a trap, a stop or a halt takes effect (03 R60, 12 R323, 13 R336, 16 R389), the 64
cycles of str.yield or of a retry at a full wait list are over (11 R308, 05 R125). -/
def State.slotBound (s : State) (k : Nat) (t : Slot) : Bool :=
  t.holds && ([execTrapEntry k, execStopTakesEffect k, execDebugHalt k, execYieldExpiry k].any (fun f => isNext (f s))
    || t.wins.any fun w => isNext (execWaitListRetry k w.id s))
/-- The operands and results of the command lie in its tile's own pool. -/
def Cmd.own (c : Cmd) : Bool := (c.reads ++ c.writes).all (isOwn c.g)
/-- An engine of tile `g` starts the head of its queue in this cycle (09 R232, 10 R251), a swap of a tile on the diagonal among them (09 R248),
or a matrix command over the tile's own pool
completes (09 R238). -/
def State.engineBound (s : State) (g : Nat) : Bool :=
  [execMatrixCommandStart g, execMoveCommandStart g].any (fun f => isNext (f s)) || (mirror g == g && isNext (execMxSwapPairing g s))
    || s.cmds.any fun c => c.g == g && c.mx && c.running && decide (c.doneAt ≤ s.cycle) && c.own
/-- A retry or a timeout that a rule puts in this cycle: of a refused reservation or context (10 R261, 11 R310), and of a request to
another package (15 R386, R387). -/
def State.retryBound (s : State) : Bool :=
  s.msgs.any (fun m => (match m.st with
    | .held at_ _ => decide (at_ + 4096 ≤ s.cycle)
    | _ => false) && isNext (execMailboxReservationRetry m.id s))
    || s.migs.any (fun c => decide (c.at_ + 4096 ≤ s.cycle) && isNext (execStrandEntryRetry c.id s))
    || s.uareqs.any (fun r => [execUalinkRetransmit r.id, execUalinkRequestTimeout r.id, execBusyRetry r.id].any fun f => isNext (f s))
    || s.dups.any fun p => isNext (execDuplicateCacheExpiry p.1 0 s)
/-- Something remains that a rule puts in this cycle: latencies that are not called typical are bounds (00 R4; log 7). -/
def State.boundDue (s : State) : Bool :=
  s.closeDue || s.railDue || s.slots.any (fun p => s.slotBound p.1 p.2) || (s.cmds.map (·.g)).eraseDups.any s.engineBound || s.retryBound

/-- A turn is taken. An event of the tables is one that has no encoding; the Separator's core executes what has one. -/
def State.turn (s : State) : Turn → Out
  | .issue g => if 4096 ≤ g then .fault .noSuchUnit else s.issue g
  | .event e => if (encode e).isNone then exec e s else .fault .notDue
  | .send k w => match s.sendAtomic k w with
    | some s' => .next s'
    | none => .fault .notDue
  | .drained id => match s.moveDrained id with
    | some s' => .next s'
    | none => .fault .notDue
  | .answer id code data => s.uaAnswer id code data
  | .arrive m st req => s.arrive m st req
  | .headMoved id => s.headMoved id
  | .revoked o gen => s.winRevoked o gen
  | .hostWrite w off data => s.hostWrite w off data
  | .extend i digest => if i < 5 || 8 ≤ i || !s.up then .fault .notDue else .next (s.extend i (toBytes 64 digest))
  | .certWrite slot off data => s.certWrite slot off data
  | .clock => if s.nextTile.isSome || s.boundDue then .fault .notDue else .next s.clock
  | .notice g => if 4096 ≤ g then .fault .noSuchUnit else .next (s.tileEvent g 4)
  | .sep i => if (encode i).isNone || s.romFail ≠ 0 then .fault .notDue else exec i { s with cur := sepKey }

/-! ### The default order (log 5) -/

/-- The first of the steps that can happen now. -/
def State.firstOf (s : State) : List (State → Out) → Option State
  | [] => none
  | f :: fs => match f s with
    | .next s' => some s'
    | _ => s.firstOf fs
/-- Steps of a slot. -/
def slotSteps (k : Nat) (t : Slot) : List (State → Out) :=
  (t.wins.map fun w => execLookaheadWindowClose k w.id) ++
    (if t.holds then
      [execTrapEntry k, execStopTakesEffect k, execDebugHalt k, execYieldExpiry k, execCodeletAbort k]
        ++ t.wins.flatMap fun w => [execWaitListRetry k w.id, fun s => s.turn (.send k w.id)]
    else [])
/-- Steps of an engine command. -/
def cmdSteps (c : Cmd) : List (State → Out) :=
  if c.mx then
    [execMatrixCommandStart c.g, execMxSwapPairing c.g, execMatrixCommandComplete c.g 0, execMatrixCommandComplete c.g 1]
      ++ (List.range 2).map fun u => fun (s : State) => match s.onUnit c.g u with
        | some d => if d.doneAt ≤ s.cycle && !s.mxClean d then execMatrixCommandError c.g u s else .fault .notDue
        | none => .fault .notDue
  else
    [execMoveCommandStart c.g, fun s => s.turn (.drained c.id), execRingSlotWrite c.id, execIfetchLoadComplete c.id, execMoveCommandComplete c.id]
      ++ match c.op with
        | .copy _ _ _ todo _ _ => todo.map fun p => execLandingPacketCount c.id p
        | _ => []
/-- Steps of a message. -/
def msgSteps (m : Msg) : List (State → Out) :=
  [execMailboxReservation m.id, execMailboxReservationRetry m.id, execLandingPacketCount m.id 0]
    ++ (if m.how = .owner then [execLandingPacketCount m.id 1] else m.todo.map fun q => execLandingPacketCount m.id (q + 1))
    ++ [execByteCopyComplete m.id, execMessageComplete m.id]
/-- Steps of the package as a whole. -/
def State.packageSteps (s : State) : List (State → Out) :=
  (s.subs.flatMap fun p => [execChurnLoaderPush p.1, execChurnStorerWrite p.1, execSubscriptionEnd p.1])
    ++ (s.tiles.flatMap fun p => [execCodeletDispatch p.1, execMigratedStrandEntry p.1, execTraceBufferWrite p.1])
    ++ (s.migs.map fun c => execStrandEntryRetry c.id)
    ++ (s.treqs.map fun r => if r.decl then execTagDeclAtHome r.id else execTagPubAtHome r.id)
    ++ (s.runs.flatMap fun p => (p.2.notify.map fun g => execCompletionNotice g p.1) ++ [execRunComplete p.1])
    ++ [execHeldLaunchStart]
    ++ (s.zfill.map fun z => execKeyEndZeroFillComplete z.1 z.2.1)
    ++ (s.uareqs.flatMap fun r => [execUalinkRetransmit r.id, execUalinkRequestTimeout r.id, execBusyRetry r.id])
    ++ (s.dups.map fun p => execDuplicateCacheExpiry p.1 0)
    ++ (s.tests.map fun p => execSelfTestComplete p.1)
    ++ (s.railsNew.map fun p => execRailOffsetApplied p.1)
    ++ [execCertWriteApply 8]
    ++ (s.worlds.flatMap fun p => [execQuiesceComplete p.1, execCertWriteApply p.1])
/-- What happens when the agenda is empty: the first step of the units that can happen, else the lowest tile that can issue, else a
cycle passes. -/
def State.defaultTurn (s : State) : Out :=
  match s.firstOf (s.slots.flatMap (fun p => slotSteps p.1 p.2) ++ s.cmds.flatMap cmdSteps ++ s.msgs.flatMap msgSteps ++ s.packageSteps) with
  | some s' => .next s'
  | none => match s.nextTile with
    | some g => s.issue g
    | none => .next s.clock

end Sys2Proof.Machine
end

