-- ==== Sys2Proof/Machine/Step.lean ====
section
/-! DEFINITION. One step of the package, and the placing of an instruction where the next step fetches it. -/
namespace Sys2Proof.Machine

/-- One step: an expiry that is due, else the first turn of the agenda, else the default order (log 5). -/
def step (s : State) : Host.Outcome State Fault Refusal :=
  match s.expiry with
  | some s' => .next s'
  | none => match s.agenda with
    | [] => s.defaultTurn
    | t :: ts => State.turn { s with agenda := ts } t

/-- The state with an instruction placed at the pc of slot 0 of tile 0, which holds a persistent strand with 32 vector registers and
issues next: what a launch of a one-tile run leaves there (log 6). -/
def State.withFetchWord (s : State) (nbits w : Nat) : State :=
  let s := { s with mem := mwrite s.mem (flat (spOverlay 0) 0) (toBytes 4 (w % 2 ^ nbits)), agenda := [.issue 0] }
  let s := s.updTile 0 fun t =>
    { t with pword := 0x401, issuedAt := 0, ov := sput {} t.ov 0 { seg := 0, valid := true, landed := true } }
  s.updSlot 0 fun t => { t with occ := .persistent, pc := 0, nextAt := s.cycle }

end Sys2Proof.Machine
end

