-- ==== Sys2Proof/Safety.lean ====
section
/-! DEFINITION. The terms in which claims speak of a step: what is the same before and after, what one instruction writes, when
nothing keeps an instruction from issuing, and the canonical form of the state. -/
namespace Sys2Proof.Machine

/-! ### What is the same before and after -/

/-- Only the executing strand's slot differs. -/
def OnlyMe (s t : State) : Prop := t = { s with slots := t.slots } ∧ ∀ k, k ≠ s.cur → t.slot k = s.slot k
/-- Every byte of memory reads as before. -/
def SameMem (s t : State) : Prop := ∀ a, mget t.mem a = mget s.mem a
/-- Every integer register of the executing strand. -/
def SameX (s t : State) : Prop := ∀ n, t.x n = s.x n
/-- Every capability register, both copies of c15. -/
def SameC (s t : State) : Prop := (∀ n, t.c n = s.c n) ∧ t.me.c = s.me.c ∧ t.me.c15s = s.me.c15s
/-- Every vector register. -/
def SameV (s t : State) : Prop := (∀ n, t.me.getV n = s.me.getV n) ∧ t.me.badv = s.me.badv
/-- Every mask register. -/
def SameM (s t : State) : Prop := ∀ n, t.me.getM n = s.me.getM n
/-- The flags and the rounding mode. -/
def SameF (s t : State) : Prop := t.me.fmode = s.me.fmode
/-- The mode and every special register but fmode, rptc and instret, the trap registers among them; rptc outside a repeat. -/
def SameSpecials (s t : State) : Prop :=
  let a := s.me
  let b := t.me
  b.mode = a.mode ∧ b.mxcfg = a.mxcfg ∧ b.wlim = a.wlim ∧ b.lkey = a.lkey ∧ (a.rptLive = false → b.rptc = a.rptc) ∧
    b.tvec = a.tvec ∧ b.trpc = a.trpc ∧ b.tcause = a.tcause ∧ b.tval = a.tval ∧ b.tstat = a.tstat ∧ b.tscratch = a.tscratch ∧
    b.wdog = a.wdog ∧ b.tie = a.tie ∧ b.tip = a.tip ∧ b.dcsr = a.dcsr ∧ b.dpc = a.dpc ∧ b.dscratch0 = a.dscratch0 ∧
    b.occ = a.occ ∧ b.refusal = a.refusal

/-! ### What an instruction writes -/

/-- x[d] := v and no other integer register; x0 discards the write. -/
def WroteX (s t : State) (d : Nat) (v : Word) : Prop := ∀ n, t.x n = if n = d ∧ d ≠ 0 then v else s.x n
/-- c[d] := v and no other capability register; c0 discards the write. -/
def WroteC (s t : State) (d : Nat) (v : Cap) : Prop := ∀ n, t.c n = if n = d ∧ d ≠ 0 then v else s.c n
/-- m[d] := v and no other mask register; m0 discards the write. -/
def WroteM (s t : State) (d : Nat) (v : Mask) : Prop := ∀ n, t.me.getM n = if n = d ∧ d ≠ 0 then v else s.me.getM n
/-- No vector register but v[d] changes. -/
def OnlyV (s t : State) (d : Nat) : Prop := ∀ n, n ≠ d → t.me.getV n = s.me.getV n
/-- The instruction has completed: instret counts it and, outside a repeat, the pc is past its `len` bytes. -/
def Advanced (s t : State) (len : Nat) : Prop :=
  t.me.instret = s.me.instret + 1 ∧ (s.me.rptLive = false → t.me.pc = s.me.pc + BitVec.ofNat 64 len)
/-- The window that the instruction has opened; it has issued and the pc is past its 4 bytes outside a repeat. -/
def Opened (s t : State) (la : Nat) (i : Instr) (st : WinSt) : Prop :=
  (∃ w, t.me.wins.getLast? = some w ∧ w.id = s.me.nextWid ∧ w.addr = s.me.pc.toNat ∧ some w.ibits = encode i ∧ w.left = la ∧
      w.counting = true ∧ w.issued = 0 ∧ w.st = st) ∧
    t.me.wins.length = s.me.wins.length + 1 ∧ t.me.nextWid = s.me.nextWid + 1 ∧
    (s.me.rptLive = false → t.me.pc = s.me.pc + 4)
/-- What every instruction that only works on its strand's registers leaves: everything outside the strand, memory, the special
registers; and it has completed. -/
def Local (s t : State) (len : Nat) : Prop := OnlyMe s t ∧ SameMem s t ∧ SameSpecials s t ∧ Advanced s t len
/-- An instruction that writes x[d] and nothing else. -/
def LocalX (s t : State) (d : Nat) (v : Word) : Prop :=
  Local s t 4 ∧ WroteX s t d v ∧ SameC s t ∧ SameV s t ∧ SameM s t ∧ SameF s t
/-- What an instruction that opens a window leaves in its own strand: it writes its results when the window closes. -/
def Pending (s t : State) : Prop := SameX s t ∧ SameC s t ∧ SameV s t ∧ SameM s t ∧ SameF s t ∧ SameSpecials s t ∧
  t.me.instret = s.me.instret

/-! ### Nothing keeps an instruction from issuing -/

/-- A fifth window would not be opened (03 R55). -/
def RoomForWindow (s : State) : Prop := s.me.wins.length < 4
/-- No earlier operation of the strand holds an access with that capability (05 R128, 09 R235, 10 R252, 15 R383). -/
def AccessFree (s : State) (c : Cap) (write : Bool) : Prop :=
  s.heldBy c write = false ∧ (isWindow c.o && s.me.wins.any (Win.remoteOn c.o)) = false

/-! ### Canonical form -/

/-- Memory and the table of slots are in canonical form. -/
def State.Canonical (s : State) : Prop := Memory.wf s.mem = true

end Sys2Proof.Machine
end

