-- ==== Sys2Proof/Certificates/Slice0/Obligations.lean ====
section
/-! DEFINITION. The statements for the provers, and the tables and predicates that they quantify over. -/
namespace Sys2Proof.Claim
end Sys2Proof.Claim
open Sys2Proof Sys2Proof.Machine Sys2Proof.Claim

/-! ### Tables: a constructor with the value that the spec gives its destination -/

/-- x[d] := the value, and nothing else of the strand, its tile, memory or any other unit. -/
def Sys2Proof.Claim.Gives (i : Instr) (s : State) (d : Nat) (v : Word) : Prop := ∃ t, exec i s = .next t ∧ LocalX s t d v
/-- sext of the low 32 bits. -/
def Sys2Proof.Claim.sext32 (w : Word) : Word := (w.setWidth 32).signExtend 64
/-- sext of a 12-bit immediate. -/
def Sys2Proof.Claim.sext12 (imm : Nat) : Word := (BitVec.ofNat 12 imm).signExtend 64
/-- A condition as 1 or 0. -/
def Sys2Proof.Claim.oneIf (p : Prop) [Decidable p] : Word := if p then 1 else 0

/-- Register and register (03 R68). -/
def Sys2Proof.Claim.tableRR : List ((Nat → Nat → Nat → Instr) × (Word → Word → Word)) := [
  (.add, fun x y => x + y), (.sub, fun x y => x - y),
  (.sll, fun x y => x <<< (y.toNat % 64)), (.srl, fun x y => x >>> (y.toNat % 64)),
  (.sra, fun x y => x.sshiftRight (y.toNat % 64)),
  (.slt, fun x y => oneIf (x.toInt < y.toInt)), (.sltu, fun x y => oneIf (x.toNat < y.toNat)),
  (.xor, fun x y => x ^^^ y), (.or, fun x y => x ||| y), (.and, fun x y => x &&& y),
  (.andn, fun x y => x &&& ~~~y), (.orn, fun x y => x ||| ~~~y),
  (.sh1add, fun x y => y + (x <<< 1)), (.sh2add, fun x y => y + (x <<< 2)), (.sh3add, fun x y => y + (x <<< 3)),
  (.min, fun x y => if x.toInt ≤ y.toInt then x else y), (.max, fun x y => if x.toInt ≤ y.toInt then y else x),
  (.minu, fun x y => if x.toNat ≤ y.toNat then x else y), (.maxu, fun x y => if x.toNat ≤ y.toNat then y else x),
  (.addw, fun x y => sext32 (x + y)), (.subw, fun x y => sext32 (x - y)),
  (.sllw, fun x y => sext32 (x <<< (y.toNat % 32))),
  (.srlw, fun x y => ((x.setWidth 32) >>> (y.toNat % 32)).signExtend 64),
  (.sraw, fun x y => ((x.setWidth 32).sshiftRight (y.toNat % 32)).signExtend 64)]
/-- Register and 12-bit immediate (03 R68). -/
def Sys2Proof.Claim.tableRI : List ((Nat → Nat → Nat → Instr) × (Word → Word → Word)) := [
  (.addi, fun x y => x + y), (.slti, fun x y => oneIf (x.toInt < y.toInt)), (.sltiu, fun x y => oneIf (x.toNat < y.toNat)),
  (.xori, fun x y => x ^^^ y), (.ori, fun x y => x ||| y), (.andi, fun x y => x &&& y),
  (.addiw, fun x y => sext32 (x + y))]
/-- Register and shift amount (03 R68). -/
def Sys2Proof.Claim.tableSh : List ((Nat → Nat → Nat → Instr) × (Word → Nat → Word)) := [
  (.slli, fun x n => x <<< n), (.srli, fun x n => x >>> n), (.srai, fun x n => x.sshiftRight n),
  (.slliw, fun x n => ((x.setWidth 32) <<< n).signExtend 64), (.srliw, fun x n => ((x.setWidth 32) >>> n).signExtend 64),
  (.sraiw, fun x n => ((x.setWidth 32).sshiftRight n).signExtend 64)]

/-- 03 R68: what ADD to SRAW with register operands write, and that they write nothing else; x0 discards the write. -/
def Sys2Proof.Claim.RegisterArithmetic : Prop :=
  ∀ p ∈ tableRR, ∀ (s : State) (d a b : Nat), Gives (p.1 d a b) s d (p.2 (s.x a) (s.x b))

/-- 03 R68: the immediate forms, LUI and AUIPC. -/
def Sys2Proof.Claim.ImmediateArithmetic : Prop :=
  (∀ p ∈ tableRI, ∀ (s : State) (d a imm : Nat), Gives (p.1 d a imm) s d (p.2 (s.x a) (sext12 imm))) ∧
  (∀ p ∈ tableSh, ∀ (s : State) (d a sh : Nat), Gives (p.1 d a sh) s d (p.2 (s.x a) sh)) ∧
  (∀ (s : State) (d imm : Nat), Gives (.lui d imm) s d ((BitVec.ofNat 32 (imm * 2 ^ 12)).signExtend 64)) ∧
  (∀ (s : State) (d imm : Nat), Gives (.auipc d imm) s d
    ((s.me.pc.setWidth 16).setWidth 64 + (BitVec.ofNat 32 (imm * 2 ^ 12)).signExtend 64))

/-- 03 R68: CLZ, CTZ and CPOP, said by what the count counts; CLZ(0) = CTZ(0) = 64. -/
def Sys2Proof.Claim.BitCounts : Prop :=
  ∀ (s : State) (d a : Nat),
    (∃ n, n ≤ 64 ∧ Gives (.clz d a) s d (BitVec.ofNat 64 n) ∧ (∀ i, 64 - n ≤ i → (s.x a).getLsbD i = false) ∧
      (n < 64 → (s.x a).getLsbD (63 - n) = true)) ∧
    (∃ n, n ≤ 64 ∧ Gives (.ctz d a) s d (BitVec.ofNat 64 n) ∧ (∀ i, i < n → (s.x a).getLsbD i = false) ∧
      (n < 64 → (s.x a).getLsbD n = true)) ∧
    Gives (.cpop d a) s d (BitVec.ofNat 64 ((List.range 64).countP fun i => (s.x a).getLsbD i))

/-- 03 R68: what ADD to SRAW with register operands write, and that they write nothing else; x0 discards the write. 03 R68: the
immediate forms, LUI and AUIPC. 03 R68: CLZ, CTZ and CPOP, said by what the count counts; CLZ(0) = CTZ(0) = 64. -/
def Obligations.IntegerArithmetic : Prop := RegisterArithmetic ∧ ImmediateArithmetic ∧ BitCounts


/-- 03 R69: the products. -/
def Sys2Proof.Claim.Products : Prop :=
  ∀ (s : State) (d a b : Nat),
    Gives (.mul d a b) s d (BitVec.ofNat 64 ((s.x a).toNat * (s.x b).toNat)) ∧
    Gives (.mulw d a b) s d (sext32 (BitVec.ofNat 64 ((s.x a).toNat * (s.x b).toNat))) ∧
    Gives (.mulh d a b) s d ((BitVec.ofInt 128 ((s.x a).toInt * (s.x b).toInt)).extractLsb' 64 64) ∧
    Gives (.mulhsu d a b) s d ((BitVec.ofInt 128 ((s.x a).toInt * (s.x b).toNat)).extractLsb' 64 64) ∧
    Gives (.mulhu d a b) s d ((BitVec.ofNat 128 ((s.x a).toNat * (s.x b).toNat)).extractLsb' 64 64)

/-- 03 R69: what a signed division of `w` bits gives: quotient and remainder of the dividend x and the divisor y. -/
def Sys2Proof.Claim.SignedDivision (w : Nat) (x y q r : BitVec w) : Prop :=
  (y = 0 → q = BitVec.allOnes w ∧ r = x) ∧
  (x = BitVec.intMin w ∧ y = BitVec.allOnes w → q = x ∧ r = 0) ∧
  (y ≠ 0 → ¬(x = BitVec.intMin w ∧ y = BitVec.allOnes w) →
    x.toInt = q.toInt * y.toInt + r.toInt ∧ r.toInt.natAbs < y.toInt.natAbs ∧ (0 ≤ x.toInt → 0 ≤ r.toInt) ∧ (x.toInt ≤ 0 → r.toInt ≤ 0))
/-- The same unsigned. -/
def Sys2Proof.Claim.UnsignedDivision (w : Nat) (x y q r : BitVec w) : Prop :=
  (y = 0 → q = BitVec.allOnes w ∧ r = x) ∧
  (y ≠ 0 → x.toNat = q.toNat * y.toNat + r.toNat ∧ r.toNat < y.toNat)

/-- 03 R69: the divisions, with the results of the two exceptional cases. -/
def Sys2Proof.Claim.Divisions : Prop :=
  ∀ (s : State) (d a b : Nat),
    (∃ q r, SignedDivision 64 (s.x a) (s.x b) q r ∧ Gives (.div d a b) s d q ∧ Gives (.rem d a b) s d r) ∧
    (∃ q r, UnsignedDivision 64 (s.x a) (s.x b) q r ∧ Gives (.divu d a b) s d q ∧ Gives (.remu d a b) s d r) ∧
    (∃ q r, SignedDivision 32 ((s.x a).setWidth 32) ((s.x b).setWidth 32) q r ∧
      Gives (.divw d a b) s d (q.signExtend 64) ∧ Gives (.remw d a b) s d (r.signExtend 64)) ∧
    (∃ q r, UnsignedDivision 32 ((s.x a).setWidth 32) ((s.x b).setWidth 32) q r ∧
      Gives (.divuw d a b) s d (q.signExtend 64) ∧ Gives (.remuw d a b) s d (r.signExtend 64))

/-- 03 R70, R52: the cycle before which the strand does not issue again. -/
def Sys2Proof.Claim.IssueIntervals : Prop :=
  ∀ (s : State) (d a b : Nat),
    (∀ c ∈ [Instr.div, .divu, .rem, .remu], ∃ t, exec (c d a b) s = .next t ∧ t.me.nextAt = s.cycle + 40) ∧
    (∀ c ∈ [Instr.divw, .divuw, .remw, .remuw], ∃ t, exec (c d a b) s = .next t ∧ t.me.nextAt = s.cycle + 24) ∧
    (∀ c ∈ [Instr.mul, .mulh, .mulhsu, .mulhu, .mulw, .add], ∃ t, exec (c d a b) s = .next t ∧ t.me.nextAt = s.cycle + 8)

/-- 03 R69: the products. 03 R69: the divisions, with the results of the two exceptional cases. 03 R70, R52: the cycle before
which the strand does not issue again. -/
def Obligations.MultiplyAndDivide : Prop := Products ∧ Divisions ∧ IssueIntervals


/-- No repeat is active any more; a transfer out of one leaves rptc 0 (03 R78). -/
def Sys2Proof.Claim.EndsRepeat (s t : State) : Prop := t.me.rptLive = false ∧ (s.me.rptLive = true → t.me.rptc = 0)
/-- A taken transfer to `t` with x[d] := pc + 4, which ends a live repeat, or PC_RANGE with nothing written (03 R71, R78). -/
def Sys2Proof.Claim.Transfers (i : Instr) (s : State) (d : Nat) (target : Word) : Prop :=
  (target.toNat ≤ 0xFFFE → ∃ t, exec i s = .next t ∧ t.me.pc = target ∧ t.me.instret = s.me.instret + 1 ∧ WroteX s t d (s.me.pc + 4) ∧
    EndsRepeat s t ∧ OnlyMe s t ∧ SameMem s t ∧ SameC s t ∧ SameV s t ∧ SameM s t ∧ SameF s t ∧ SameSpecials s t) ∧
  (0xFFFE < target.toNat → exec i s = .next (s.raise cPC_RANGE target.toNat))

/-- 03 R71, R78: JAL and JALR; the target of JALR comes from the old x[a]; either ends a live repeat. -/
def Sys2Proof.Claim.Jumps : Prop :=
  ∀ (s : State) (d a off imm : Nat),
    Transfers (.jal d off) s d (s.me.pc + (BitVec.ofNat 21 off).signExtend 64) ∧
    Transfers (.jalr d a imm) s d ((s.x a + sext12 imm) &&& ~~~1)

/-- Branches with their conditions (03 R71). -/
def Sys2Proof.Claim.tableBr : List ((Nat → Nat → Nat → Instr) × (Word → Word → Bool)) := [
  (.beq, fun x y => x = y), (.bne, fun x y => x ≠ y), (.blt, fun x y => x.toInt < y.toInt), (.bge, fun x y => y.toInt ≤ x.toInt),
  (.bltu, fun x y => x.toNat < y.toNat), (.bgeu, fun x y => y.toNat ≤ x.toNat)]
/-- 03 R71, R78: the branches, taken and not taken; a taken one ends a live repeat. -/
def Sys2Proof.Claim.Branches : Prop :=
  ∀ p ∈ tableBr, ∀ (s : State) (a b off : Nat),
    (p.2 (s.x a) (s.x b) = true → Transfers (p.1 a b off) s 0 (s.me.pc + (BitVec.ofNat 13 off).signExtend 64)) ∧
    (p.2 (s.x a) (s.x b) = false → ∃ t, exec (p.1 a b off) s = .next t ∧ Local s t 4 ∧ SameX s t ∧ SameC s t ∧ SameV s t ∧ SameM s t ∧
      SameF s t)

/-- 03 R71, R78: JAL and JALR; the target of JALR comes from the old x[a]; either ends a live repeat. 03 R71, R78: the branches,
taken and not taken; a taken one ends a live repeat. -/
def Obligations.ControlTransfers : Prop := Jumps ∧ Branches


/-- What a CSR instruction of the register address `csr` writes, from the old value: none where it writes nothing (03 R72). -/
def Sys2Proof.Claim.csrNew (s : State) : Instr → Option (Nat × Nat × (Word → Option Word))
  | .csrrw d csr a => some (d, csr, fun _ => some (s.x a))
  | .csrrs d csr a => some (d, csr, fun o => if a = 0 then none else some (o ||| s.x a))
  | .csrrc d csr a => some (d, csr, fun o => if a = 0 then none else some (o &&& ~~~(s.x a)))
  | .csrrwi d csr u => some (d, csr, fun _ => some (BitVec.ofNat 64 u))
  | .csrrsi d csr u => some (d, csr, fun o => if u = 0 then none else some (o ||| BitVec.ofNat 64 u))
  | .csrrci d csr u => some (d, csr, fun o => if u = 0 then none else some (o &&& ~~~(BitVec.ofNat 64 u)))
  | _ => none

/-- The CSRs of 02 R49, each with the rights of U and of S, where a dash is no right at all. -/
def Sys2Proof.Claim.csrTable : List (Nat × Acc × Acc) := [
  (0xC00, .ro, .ro), (0xC01, .ro, .ro), (0xC02, .ro, .ro), (0xCC0, .ro, .ro), (0xCC1, .ro, .ro), (0xCC2, .ro, .ro), (0xCC3, .ro, .ro),
  (0xCC4, .ro, .ro), (0xCC5, .ro, .ro), (0xCC6, .ro, .rw), (0xCC7, .ro, .rw), (0xCC8, .ro, .ro), (0x8C0, .rw, .rw), (0x8C1, .rw, .rw),
  (0x8C2, .rw, .rw), (0x8C3, .rw, .rw), (0x8C4, .ro, .rw), (0x5C0, .no, .rw), (0x5C1, .no, .rw), (0x5C2, .no, .rw), (0x5C3, .no, .rw),
  (0x5C4, .no, .rw), (0x5C5, .no, .rw), (0x5C6, .no, .rw), (0x5C7, .no, .rw), (0x5C8, .no, .rw), (0x5C9, .no, .rw), (0x7A0, .no, .rw),
  (0x7A1, .no, .rw), (0x7A2, .no, .rw), (0x7B0, .no, .no), (0x7B1, .no, .no), (0x7B2, .no, .no)]
/-- 02 R49: the addresses that have a CSR, with the rights of U and S; M has those of S, and D every right. -/
def Sys2Proof.Claim.CsrMap : Prop :=
  (∀ p ∈ csrTable, csrAccess p.1 = some p.2) ∧
  (∀ a, (∀ p ∈ csrTable, p.1 ≠ a) → csrAccess a = none) ∧
  (∀ p : Acc × Acc, csrRight .u p = p.1 ∧ csrRight .s p = p.2 ∧ csrRight .m p = p.2 ∧ csrRight .d p = .rw)

/-- 02 R49, 03 R73: what each CSR reads: slot, tile, rank, run id, partition word, the world that the row of the die carries (0 on a row
that carries none: log 49), the package number, the counts of the tile and of the strand, and the strand's registers. `cycle` counts from
the tile's reset and `rtick` from the package's, but for what D mode has written there (log 49). -/
def Sys2Proof.Claim.CsrValues : Prop :=
  ∀ s : State,
    csrRead s 0xC00 = BitVec.ofNat 64 (s.cycle - (s.tile s.gta).resetAt) + (s.tile s.gta).cycleAdj ∧
    csrRead s 0xC01 = BitVec.ofNat 64 s.tick + (s.tile s.gta).rtickAdj ∧ csrRead s 0xC02 = s.me.instret ∧
    csrRead s 0xCC0 = BitVec.ofNat 64 (s.cur % 16) ∧ csrRead s 0xCC1 = BitVec.ofNat 64 (s.cur / 16) ∧
    csrRead s 0xCC2 = BitVec.ofNat 64 (s.tile s.gta).rank ∧ csrRead s 0xCC3 = BitVec.ofNat 64 (s.tile s.gta).runid ∧
    csrRead s 0xCC4 = BitVec.ofNat 64 (s.tile s.gta).pword ∧
    (∀ w, s.wrow / 2 ^ (s.cur / 16 / 64 / 8 * 4) % 16 = 8 + w → csrRead s 0xCC5 = BitVec.ofNat 64 w) ∧
    (s.wrow / 2 ^ (s.cur / 16 / 64 / 8 * 4) % 16 < 8 → csrRead s 0xCC5 = 0) ∧
    csrRead s 0xCC6 = (s.tile s.gta).bfcnt ∧ csrRead s 0xCC7 = (s.tile s.gta).tagfb ∧ csrRead s 0xCC8 = BitVec.ofNat 64 s.pkgno ∧
    csrRead s 0x8C0 = s.me.fmode ∧ csrRead s 0x8C1 = s.me.mxcfg ∧ csrRead s 0x8C2 = s.me.wlim ∧ csrRead s 0x8C3 = s.me.lkey ∧
    csrRead s 0x8C4 = s.me.rptc ∧ csrRead s 0x5C0 = s.me.tvec ∧ csrRead s 0x5C1 = s.me.trpc ∧ csrRead s 0x5C2 = s.me.tcause ∧
    csrRead s 0x5C3 = s.me.tval ∧ csrRead s 0x5C4 = s.me.tstat ∧ csrRead s 0x5C5 = s.me.tscratch ∧ csrRead s 0x5C6 = s.me.wdog ∧
    csrRead s 0x5C7 = (s.tile s.gta).slotmask ∧ csrRead s 0x5C8 = s.me.tie ∧ csrRead s 0x5C9 = s.me.tip ∧
    csrRead s 0x7A0 = BitVec.ofNat 64 (s.tile s.gta).tselect ∧
    csrRead s 0x7A1 = sget 0 (s.tile s.gta).tdata1 (s.tile s.gta).tselect
      ||| BitVec.ofNat 64 ((if (s.tile s.gta).tselect < 4 then 1 else 2) * 2 ^ 60) ∧
    csrRead s 0x7A2 = sget 0 (s.tile s.gta).tdata2 (s.tile s.gta).tselect ∧
    csrRead s 0x7B0 = s.me.dcsr ∧ csrRead s 0x7B1 = s.me.dpc ∧ csrRead s 0x7B2 = s.me.dscratch0

/-- 03 R72, 02 R49: a CSR instruction reads the CSR into x[d] and writes it; MODE for an access that its mode does not have, ILLEGAL
for an address without a CSR. The frame: what is not the CSR is as before. -/
def Sys2Proof.Claim.CsrInstructions : Prop :=
  ∀ (s : State) (i : Instr) (d csr : Nat) (f : Word → Option Word), csrNew s i = some (d, csr, f) →
    (csrAccess csr = none → exec i s = .next (s.raise cILLEGAL ((encode i).getD 0))) ∧
    (∀ p, csrAccess csr = some p →
      (csrRight s.me.mode p = .no ∨ (csrRight s.me.mode p = .ro ∧ f (csrRead s csr) ≠ none) →
        exec i s = .next (s.raise cMODE ((encode i).getD 0))) ∧
      (csrRight s.me.mode p ≠ .no → f (csrRead s csr) = none → Gives i s d (csrRead s csr)) ∧
      (csrRight s.me.mode p = .rw → ∀ v, f (csrRead s csr) = some v →
        ∃ t, exec i s = .next t ∧ WroteX s t d (csrRead s csr) ∧ SameC s t ∧ SameV s t ∧ SameM s t ∧ SameMem s t ∧ Advanced s t 4 ∧
          t.me = ((if csrOfTile csr then s.me else s.me.csrWrite csr v s.tick).setX d (csrRead s csr)).retire 4 8 s.cycle ∧
          (∀ k, k ≠ s.cur → t.slot k = s.slot k) ∧ t = { s with slots := t.slots, tiles := t.tiles } ∧
          t.tile s.gta = (if csrOfTile csr then (s.tile s.gta).csrWrite csr v s.cycle s.tick else s.tile s.gta) ∧
          (∀ g, g ≠ s.gta → t.tile g = s.tile g)))

/-- 02 R49: the addresses that have a CSR, with the rights of U and S; M has those of S, and D every right. 02 R49, 03 R73: what
each CSR reads: slot, tile, rank, run id, partition word, the world that the row of the die carries (0 on a row that carries none:
log 49), the package number, the counts of the tile and of the strand, and the strand's registers. `cycle` counts from the tile's
reset and `rtick` from the package's, but for what D mode has written there (log 49). 03 R72, 02 R49: a CSR instruction reads the
CSR into x[d] and writes it; MODE for an access that its mode does not have, ILLEGAL for an address without a CSR. The frame: what
is not the CSR is as before. -/
def Obligations.CsrAccess : Prop := CsrMap ∧ CsrValues ∧ CsrInstructions


/-- What a write of a CSR leaves in it: fmode and mxcfg keep their other fields, and their rounding mode where 5 to 7 is written
(07 R175, R180; 09 R222, R223); wlim, lkey, tvec, tscratch and wdog; a bit of tip or a flag of fmode that hardware has set in
this cycle stays set (03 R72); the registers of R65 are as before. -/
def Sys2Proof.Claim.CsrWriteFields : Prop :=
  ∀ (t : Slot) (v : Word) (n : Nat),
    (t.csrWrite 0x8C0 v n).fmode = (t.fmode &&& ~~~0x3F7#64) ||| (v &&& 0x3F0#64) |||
      (if v.toNat % 8 < 5 then v &&& 7#64 else t.fmode &&& 7#64) ||| (t.fmode &&& BitVec.ofNat 64 t.flagNow &&& 0x3F0#64) ∧
    (t.csrWrite 0x8C1 v n).mxcfg = (t.mxcfg &&& ~~~0x1FFFFFF#64) ||| (v &&& 0x1FC7FFF#64) |||
      (if v.toNat / 2 ^ 15 % 8 < 5 then v &&& 0x38000#64 else t.mxcfg &&& 0x38000#64) ∧
    (t.csrWrite 0x8C2 v n).wlim = v ∧ (t.csrWrite 0x8C3 v n).lkey = v ∧
    (t.csrWrite 0x5C0 v n).tvec = v &&& 0x1FFFFF#64 ∧ (t.csrWrite 0x5C5 v n).tscratch = v ∧
    (t.csrWrite 0x5C6 v n).wdog = v ∧
    (t.csrWrite 0x5C9 v n).tip = (t.tip &&& ~~~0xFFFFFFFF0000001E#64) ||| (v &&& 0xFFFFFFFF0000001E#64) |||
      (t.tip &&& BitVec.ofNat 64 t.tipNow &&& 0x1E#64) ∧
    ∀ a, (t.csrWrite a v n).x = t.x ∧ (t.csrWrite a v n).c = t.c ∧ (t.csrWrite a v n).v = t.v ∧ (t.csrWrite a v n).m = t.m ∧
      (t.csrWrite a v n).mode = t.mode ∧ (t.csrWrite a v n).pc = t.pc

/-- The register-write events have the effect of the CSR instruction's write on the executing strand, and nothing else. -/
def Sys2Proof.Claim.RegisterWriteEvents : Prop :=
  ∀ (s : State) (v : Nat),
    exec (.fmodeWrite v) s = .next (s.upd (·.csrWrite 0x8C0 (BitVec.ofNat 64 v) s.tick)) ∧
    exec (.mxcfgWrite v) s = .next (s.upd (·.csrWrite 0x8C1 (BitVec.ofNat 64 v) s.tick)) ∧
    exec (.wdogWrite v) s = .next (s.upd fun t => { t with wdog := BitVec.ofNat 64 v, wdPost := s.tick }) ∧
    exec (.rptcWrite v) s = .next (s.upd fun t =>
      { t with rptc := (t.rptc &&& 0x000060E000000000#64) ||| (BitVec.ofNat 64 v &&& 0xFFFF9F1FFFFFFFFF#64), rptLive := false }) ∧
    (∃ w : Word, w.toNat / 2 ^ 32 = v % 2 ^ 32 ∧ w.toNat % 2 ^ 32 = s.me.tip.toNat % 2 ^ 32 ∧
      exec (.tdeltaWrite v) s = .next (s.upd fun t => { t with tip := w, tdPost := s.tick }))

/-- What a write of a CSR leaves in it: fmode and mxcfg keep their other fields, and their rounding mode where 5 to 7 is written
(07 R175, R180; 09 R222, R223); wlim, lkey, tvec, tscratch and wdog; a bit of tip or a flag of fmode that hardware has set in this
cycle stays set (03 R72); the registers of R65 are as before. The register-write events have the effect of the CSR instruction's
write on the executing strand, and nothing else. -/
def Obligations.RegisterWrites : Prop := CsrWriteFields ∧ RegisterWriteEvents


/-! ### Vector instructions -/

/-- The registers `rs` lie in the strand's file and those of `reads` hold no uncorrectable error (02 R32, 08 R196). -/
def Sys2Proof.Claim.VFile (s : State) (rs reads : List Nat) : Prop :=
  (∀ r ∈ rs, r < 16 ∨ (s.tile s.gta).v32 = true) ∧ ∀ r ∈ reads, tbit s.me.badv r = false
/-- The old elements of v[d] are read where a mask guards the write (08 R193). -/
def Sys2Proof.Claim.oldOf (vm d : Nat) : List Nat := if vm = 0 then [] else [d]
/-- An instruction of `len` bytes that may write v[d] and the flags, and nothing else. -/
def Sys2Proof.Claim.LocalV (s t : State) (len d : Nat) : Prop :=
  Local s t len ∧ SameX s t ∧ SameC s t ∧ SameM s t ∧ OnlyV s t d
/-- Element n of `sz` bytes of v[d] becomes `(f n).1` where its guard bit is 1 and keeps its value elsewhere; the flags of the guarded
elements are ORed into fmode (08 R193, 07 R180). -/
def Sys2Proof.Claim.Elementwise (i : Instr) (len sz vm d : Nat) (f : Nat → Nat × Nat) (s : State) : Prop :=
  ∃ t, exec i s = .next t ∧ LocalV s t len d ∧
    (∀ n, n < 128 / sz → el (t.me.getV d) sz n =
      if (s.me.getM vm).getLsbD (n * sz) then (f n).1 % 2 ^ (8 * sz) else el (s.me.getV d) sz n) ∧
    t.me.fmode = s.me.fmode ||| BitVec.ofNat 64 (orFlags ((List.range (128 / sz)).map fun n =>
      if (s.me.getM vm).getLsbD (n * sz) then f n else (0, 0)))
/-- The same without flags. -/
def Sys2Proof.Claim.ElementwiseI (i : Instr) (len sz vm d : Nat) (f : Nat → Nat) (s : State) : Prop :=
  ∃ t, exec i s = .next t ∧ LocalV s t len d ∧ SameF s t ∧
    ∀ n, n < 128 / sz → el (t.me.getV d) sz n =
      if (s.me.getM vm).getLsbD (n * sz) then f n % 2 ^ (8 * sz) else el (s.me.getV d) sz n
/-- Element n of v[r]. -/
def Sys2Proof.Claim.velem (s : State) (r sz n : Nat) : Nat := el (s.me.getV r) sz n

/-- Integer element functions of a width and two elements; the result counts modulo 2^w (08 R197). -/
def Sys2Proof.Claim.tableVI : List ((Nat → Nat → Nat → Nat → Nat → Instr) × (Nat → Nat → Nat → Nat)) := [
  (.vadd, fun _ x y => x + y), (.vsub, fun w x y => x + 2 ^ w - y), (.vmul, fun _ x y => x * y),
  (.vmulh, fun w x y => wrap w (signed w x * signed w y / (2 ^ w : Nat))), (.vmulhu, fun w x y => x * y / 2 ^ w),
  (.vand, fun _ x y => x &&& y), (.vor, fun _ x y => x ||| y), (.vxor, fun _ x y => x ^^^ y),
  (.vsll, fun w x y => x * 2 ^ (y % w)), (.vsrl, fun w x y => x / 2 ^ (y % w)),
  (.vsra, fun w x y => wrap w (signed w x / (2 ^ (y % w) : Nat))),
  (.vmin, fun w x y => if signed w x ≤ signed w y then x else y), (.vmax, fun w x y => if signed w x ≤ signed w y then y else x),
  (.vminu, fun _ x y => if x ≤ y then x else y), (.vmaxu, fun _ x y => if x ≤ y then y else x)]
/-- The 16-bit integer forms: element type, function of vd and vs (08 R214). -/
def Sys2Proof.Claim.tableVN : List ((Nat → Nat → Instr) × Nat × (Nat → Nat → Nat → Nat)) := [
  (.vaddWN, 2, fun _ x y => x + y), (.vsubWN, 2, fun w x y => x + 2 ^ w - y), (.vandN, 0, fun _ x y => x &&& y),
  (.vorN, 0, fun _ x y => x ||| y), (.vxorN, 0, fun _ x y => x ^^^ y),
  (.vmaxWN, 2, fun w x y => if signed w x ≤ signed w y then y else x), (.vminWN, 2, fun w x y => if signed w x ≤ signed w y then x else y)]

/-- 08 R197, R193: the integer element instructions, element by element, and what they leave. -/
def Sys2Proof.Claim.VectorInteger : Prop :=
  (∀ p ∈ tableVI, ∀ (s : State) (et vm a b d : Nat), et < 4 → VFile s [a, b, d] ([a, b] ++ oldOf vm d) →
    ElementwiseI (p.1 et vm a b d) 4 (2 ^ et) vm d (fun n => p.2 (8 * 2 ^ et) (velem s a (2 ^ et) n) (velem s b (2 ^ et) n)) s) ∧
  (∀ p ∈ tableVN, ∀ (s : State) (d r : Nat), VFile s [d, r] [d, r] →
    ElementwiseI (p.1 d r) 2 (2 ^ p.2.1) 0 d
      (fun n => p.2.2 (8 * 2 ^ p.2.1) (velem s d (2 ^ p.2.1) n) (velem s r (2 ^ p.2.1) n)) s) ∧
  (∀ (s : State) (d r : Nat), VFile s [d, r] [r] → ElementwiseI (.vmv d r) 2 1 0 d (fun n => velem s r 1 n) s)

/-- A compare of elements of `sz` bytes into m[d]: the mask bits of a guarded element become its result, the others keep their value;
flags are ORed into fmode (08 R198). -/
def Sys2Proof.Claim.Compares (i : Instr) (sz vm d : Nat) (f : Nat → Bool × Nat) (s : State) : Prop :=
  ∃ t m, exec i s = .next t ∧ Local s t 4 ∧ SameX s t ∧ SameC s t ∧ SameV s t ∧ WroteM s t d m ∧
    (∀ j, j < 128 → m.getLsbD j =
      if (s.me.getM vm).getLsbD (j / sz * sz) then (f (j / sz)).1 else (s.me.getM d).getLsbD j) ∧
    t.me.fmode = s.me.fmode ||| BitVec.ofNat 64 (((List.range (128 / sz)).map fun n =>
      if (s.me.getM vm).getLsbD (n * sz) then (f n).2 else 0).foldl (· ||| ·) 0)
/-- Integer compares (08 R198). -/
def Sys2Proof.Claim.tableVC : List ((Nat → Nat → Nat → Nat → Nat → Instr) × (Nat → Nat → Nat → Bool)) := [
  (.vcmpeq, fun _ x y => x = y), (.vcmplt, fun w x y => signed w x < signed w y), (.vcmpltu, fun _ x y => x < y),
  (.vcmple, fun w x y => signed w x ≤ signed w y)]
/-- Float compares: which orders hold, and whether a quiet NaN raises NV (08 R198). -/
def Sys2Proof.Claim.tableVFC : List ((Nat → Nat → Nat → Nat → Nat → Instr) × (Ordering → Bool) × Bool) := [
  (.vfcmpeq, (fun o => o = .eq), false), (.vfcmplt, (fun o => o = .lt), true), (.vfcmple, (fun o => o ≠ .gt), true)]
/-- The value of element n of v[r] in the float type et. -/
def Sys2Proof.Claim.fval (s : State) (et r n : Nat) : Val := (readFmt (fcode et) (velem s r (fsz et) n)).1

/-- 08 R198: the compares. A float compare with a NaN operand is false, and raises NV for a signalling NaN, or for any but vfcmpeq. -/
def Sys2Proof.Claim.VectorCompares : Prop :=
  (∀ p ∈ tableVC, ∀ (s : State) (et vm a b d : Nat), et < 4 → VFile s [a, b] [a, b] →
    Compares (p.1 et vm a b d) (2 ^ et) vm d (fun n => (p.2 (8 * 2 ^ et) (velem s a (2 ^ et) n) (velem s b (2 ^ et) n), 0)) s) ∧
  (∀ p ∈ tableVFC, ∀ (s : State) (et vm a b d : Nat), et < 4 → VFile s [a, b] [a, b] →
    Compares (p.1 et vm a b d) (fsz et) vm d (fun n =>
      if (fval s et a n).isNan || (fval s et b n).isNan then
        (false, if p.2.2 || (fval s et a n).isSig || (fval s et b n).isSig then fNV else 0)
      else (p.2.1 ((fval s et a n).cmp (fval s et b n)), 0)) s)

/-- 08 R197, R193: the integer element instructions, element by element, and what they leave. 08 R198: the compares. A float
compare with a NaN operand is false, and raises NV for a signalling NaN, or for any but vfcmpeq. -/
def Obligations.VectorIntegers : Prop := VectorInteger ∧ VectorCompares


/-- An exact result with its flags rounded once to format c under rm (07 R176). -/
def Sys2Proof.Claim.roundsTo (c rm : Nat) (v : Val × Nat) : Nat × Nat := ((roundFmt c v.1 rm).1, v.2 ||| (roundFmt c v.1 rm).2)
/-- Float element functions of two operands (08 R199, R201): the exact result and its own flags. -/
def Sys2Proof.Claim.tableVF : List ((Nat → Nat → Nat → Nat → Nat → Instr) × (Nat → Val → Val → Val × Nat)) := [
  (.vfadd, fun rm x y => vadd rm x y), (.vfsub, fun rm x y => vadd rm x y.neg), (.vfmul, fun _ x y => vmul x y),
  (.vfdiv, fun _ x y => vdiv x y)]
/-- The 16-bit float forms: element type and function of vd and vs (08 R214). -/
def Sys2Proof.Claim.tableVFN : List ((Nat → Nat → Instr) × Nat × (Nat → Val → Val → Val × Nat)) := [
  (.vfaddF32N, 2, fun rm x y => vadd rm x y), (.vfsubF32N, 2, fun rm x y => vadd rm x y.neg), (.vfmulF32N, 2, fun _ x y => vmul x y),
  (.vfaddBf16N, 0, fun rm x y => vadd rm x y), (.vfsubBf16N, 0, fun rm x y => vadd rm x y.neg), (.vfmulBf16N, 0, fun _ x y => vmul x y)]
/-- The smaller (`lo`) or the larger of two elements, −0 below +0; a NaN gives the other operand, and NV when it signals (08 R200). -/
def Sys2Proof.Claim.minMax (c : Nat) (lo : Bool) (x y : Nat) : Nat × Nat :=
  let a := (readFmt c x).1
  let b := (readFmt c y).1
  let less := a.cmp b = .lt ∨ (a.cmp b = .eq ∧ a.isNeg = true ∧ b.isNeg = false)
  (if a.isNan && b.isNan then (roundFmt c (.nan false) 0).1
    else if a.isNan then y else if b.isNan then x
    else if (less ∧ lo = true) ∨ (¬less ∧ lo = false) then x else y,
   if a.isSig || b.isSig then fNV else 0)

/-- 08 R199 to R201: the float element instructions with vector operands, one rounding each. -/
def Sys2Proof.Claim.VectorFloat : Prop :=
  (∀ p ∈ tableVF, ∀ (s : State) (et vm a b d : Nat), et < 4 → VFile s [a, b, d] ([a, b] ++ oldOf vm d) →
    Elementwise (p.1 et vm a b d) 4 (fsz et) vm d
      (fun n => roundsTo (fcode et) s.me.rm (p.2 s.me.rm (fval s et a n) (fval s et b n))) s) ∧
  (∀ p ∈ tableVFN, ∀ (s : State) (d r : Nat), VFile s [d, r] [d, r] →
    Elementwise (p.1 d r) 2 (fsz p.2.1) 0 d
      (fun n => roundsTo (fcode p.2.1) s.me.rm (p.2.2 s.me.rm (fval s p.2.1 d n) (fval s p.2.1 r n))) s) ∧
  (∀ (s : State) (et vm a b d : Nat), et < 4 → VFile s [a, b, d] [a, b, d] →
    Elementwise (.vfma et vm a b d) 4 (fsz et) vm d
      (fun n => roundsTo (fcode et) s.me.rm (vfma s.me.rm (fval s et a n) (fval s et b n) (fval s et d n))) s) ∧
  (∀ p ∈ [(Instr.vfmin, true), (Instr.vfmax, false)], ∀ (s : State) (et vm a b d : Nat), et < 4 →
    VFile s [a, b, d] ([a, b] ++ oldOf vm d) → Elementwise (p.1 et vm a b d) 4 (fsz et) vm d
      (fun n => minMax (fcode et) p.2 (velem s a (fsz et) n) (velem s b (fsz et) n)) s) ∧
  (∀ p ∈ [(Instr.vfmaxF32N, 2), (Instr.vfmaxBf16N, 0)], ∀ (s : State) (d r : Nat), VFile s [d, r] [d, r] →
    Elementwise (p.1 d r) 2 (fsz p.2) 0 d
      (fun n => minMax (fcode p.2) false (velem s d (fsz p.2) n) (velem s r (fsz p.2) n)) s)

/-- 08 R201, R203 to R206: the unary float instructions, and those with a scalar operand. -/
def Sys2Proof.Claim.VectorUnaryAndScalar : Prop :=
  (∀ (s : State) (et vm a d : Nat), et < 4 → VFile s [a, d] ([a] ++ oldOf vm d) →
    Elementwise (.vfsqrt et vm a d) 4 (fsz et) vm d (fun n => roundsTo (fcode et) s.me.rm (vsqrt (fval s et a n))) s ∧
    Elementwise (.vfrcp et vm a d) 4 (fsz et) vm d (fun n => roundsTo (fcode et) s.me.rm (vdiv (Val.ofInt 1) (fval s et a n))) s ∧
    Elementwise (.vfexp2 et vm a d) 4 (fsz et) vm d (fun n => exp2Fmt (fcode et) (fval s et a n)) s ∧
    Elementwise (.vflog2 et vm a d) 4 (fsz et) vm d (fun n => log2Fmt (fcode et) (fval s et a n)) s) ∧
  (∀ (s : State) (et vm a b d : Nat), et < 4 → VFile s [a, d] ([a] ++ oldOf vm d) →
    ElementwiseI (.vaddx et vm a b d) 4 (2 ^ et) vm d (fun n => velem s a (2 ^ et) n + (s.x b).toNat) s ∧
    ElementwiseI (.vmulx et vm a b d) 4 (2 ^ et) vm d (fun n => velem s a (2 ^ et) n * (s.x b).toNat) s ∧
    Elementwise (.vfmulx et vm a b d) 4 (fsz et) vm d (fun n => roundsTo (fcode et) s.me.rm
      (vmul (fval s et a n) (readFmt (fcode et) ((s.x b).toNat % 2 ^ (8 * fsz et))).1)) s ∧
    ElementwiseI (.vslup et vm a b d) 4 (2 ^ et) vm d
      (fun n => if (s.x b).toNat ≤ n then velem s a (2 ^ et) (n - (s.x b).toNat) else 0) s ∧
    ElementwiseI (.vsldn et vm a b d) 4 (2 ^ et) vm d
      (fun n => if n + (s.x b).toNat < 128 / 2 ^ et then velem s a (2 ^ et) (n + (s.x b).toNat) else 0) s) ∧
  (∀ (s : State) (et vm b d : Nat), et < 4 → VFile s [d] (oldOf vm d) →
    ElementwiseI (.vbcast et vm b d) 4 (2 ^ et) vm d (fun _ => (s.x b).toNat) s ∧
    ElementwiseI (.vid et vm d) 4 (2 ^ et) vm d (fun n => n) s)

/-- 08 R199 to R201: the float element instructions with vector operands, one rounding each. 08 R201, R203 to R206: the unary
float instructions, and those with a scalar operand. -/
def Obligations.VectorFloats : Prop := VectorFloat ∧ VectorUnaryAndScalar


/-- 08 R202, R204: selection by a mask, permutation, and the two that move one element. -/
def Sys2Proof.Claim.VectorSelection : Prop :=
  (∀ (s : State) (et vm a b d : Nat), et < 4 → VFile s [a, b, d] [a, b] →
    ElementwiseI (.vsel et vm a b d) 4 (2 ^ et) 0 d
      (fun n => if (s.me.getM vm).getLsbD (n * 2 ^ et) then velem s a (2 ^ et) n else velem s b (2 ^ et) n) s) ∧
  (∀ (s : State) (et vm a b d : Nat), et < 4 → VFile s [a, b, d] ([a, b] ++ oldOf vm d) →
    ElementwiseI (.vperm et vm a b d) 4 (2 ^ et) vm d (fun n =>
      if velem s b (2 ^ et) n < 128 / 2 ^ et then velem s a (2 ^ et) (velem s b (2 ^ et) n) else 0) s) ∧
  (∀ (s : State) (et a b d : Nat), et < 4 → VFile s [a] [a] →
    Gives (.vmvx et a b d) s d (if (s.x b).toNat < 128 / 2 ^ et then
      BitVec.ofInt 64 (signed (8 * 2 ^ et) (velem s a (2 ^ et) (s.x b).toNat)) else 0)) ∧
  (∀ (s : State) (et a b d : Nat), et < 4 → VFile s [d] [d] →
    ElementwiseI (.vinsx et a b d) 4 (2 ^ et) 0 d
      (fun n => if n = (s.x a).toNat then (s.x b).toNat else velem s d (2 ^ et) n) s)

/-- v[d] := r with every other bit 0, flags ORed into fmode, nothing else (08 R207 to R209, R219). -/
def Sys2Proof.Claim.Reduces (i : Instr) (s : State) (d r fl : Nat) : Prop :=
  ∃ t, exec i s = .next t ∧ LocalV s t 4 d ∧ (t.me.getV d).toNat = r ∧ t.me.fmode = s.me.fmode ||| BitVec.ofNat 64 fl
/-- The guarded elements of v[a]. -/
def Sys2Proof.Claim.selected (s : State) (sz vm a : Nat) : List Nat :=
  ((List.range (128 / sz)).filter fun n => (s.me.getM vm).getLsbD (n * sz)).map (velem s a sz)

/-- 08 R207 to R209: the reductions: a sum modulo 2^w, a maximum and a minimum with their identities, the tree of float sums in which an
unselected element counts as −0, and the largest magnitude. -/
def Sys2Proof.Claim.VectorReductions : Prop :=
  (∀ (s : State) (et vm a d : Nat), et < 4 → VFile s [a, d] [a] →
    Reduces (.vredsum et vm a d) s d ((selected s (2 ^ et) vm a).sum % 2 ^ (8 * 2 ^ et)) 0 ∧
    (∃ r, Reduces (.vredmax et vm a d) s d r 0 ∧ r < 2 ^ (8 * 2 ^ et) ∧
      (∀ x ∈ selected s (2 ^ et) vm a, signed (8 * 2 ^ et) x ≤ signed (8 * 2 ^ et) r) ∧
      (r ∈ selected s (2 ^ et) vm a ∨ r = 2 ^ (8 * 2 ^ et - 1))) ∧
    (∃ r, Reduces (.vredmin et vm a d) s d r 0 ∧ r < 2 ^ (8 * 2 ^ et) ∧
      (∀ x ∈ selected s (2 ^ et) vm a, signed (8 * 2 ^ et) r ≤ signed (8 * 2 ^ et) x) ∧
      (r ∈ selected s (2 ^ et) vm a ∨ r = 2 ^ (8 * 2 ^ et - 1) - 1))) ∧
  (∀ (s : State) (et vm a d : Nat), et < 4 → VFile s [a, d] [a] →
    (let r := treeSum (fcode et) s.me.rm (128 / fsz et).log2 ((List.range (128 / fsz et)).map fun n =>
        if (s.me.getM vm).getLsbD (n * fsz et) then velem s a (fsz et) n else 2 ^ (8 * fsz et - 1))
     Reduces (.vfredsum et vm a d) s d (r.1 % 2 ^ (8 * fsz et)) r.2) ∧
    (∃ r, r < 2 ^ (8 * fsz et) ∧
      (let xs := selected s (fsz et) vm a
       let vs := xs.map fun x => (readFmt (fcode et) x).1
       if vs.any Val.isNan then Reduces (.vfredamax et vm a d) s d r (if vs.any Val.isSig then fNV else 0) ∧
          r = (roundFmt (fcode et) (.nan false) 0).1 % 2 ^ (8 * fsz et)
       else Reduces (.vfredamax et vm a d) s d r 0 ∧ (∀ x ∈ xs, x % 2 ^ (8 * fsz et - 1) ≤ r) ∧
          (r = 0 ∨ r ∈ xs.map (· % 2 ^ (8 * fsz et - 1))))))

/-- 08 R202, R204: selection by a mask, permutation, and the two that move one element. 08 R207 to R209: the reductions: a sum
modulo 2^w, a maximum and a minimum with their identities, the tree of float sums in which an unselected element counts as −0, and
the largest magnitude. -/
def Obligations.VectorSelectionAndReductions : Prop := VectorSelection ∧ VectorReductions


/-- Element n of `w` bits of v[r], elements packed in order from bit 0 (07 R168). -/
def Sys2Proof.Claim.packed (s : State) (r w n : Nat) : Nat := (s.me.getV r).toNat / 2 ^ (w * n) % 2 ^ w
/-- A source element of vcvt: a float of type et, or a signed integer when k is 1 (08 R210). -/
def Sys2Proof.Claim.cvtSource (s : State) (et k a n : Nat) : Val :=
  if k = 1 then Val.ofInt (signed (8 * 2 ^ et) (velem s a (2 ^ et) n)) else fval s et a n
/-- Bytes of a source element. -/
def Sys2Proof.Claim.cvtSize (et k : Nat) : Nat := if k = 1 then 2 ^ et else fsz et

/-- Element n of the group of registers at v[a], divided by the scale in x[sc] and rounded once to the format (08 R211). -/
def Sys2Proof.Claim.quantised (s : State) (fmt a sc n : Nat) : Nat × Nat :=
  roundsTo fmt s.me.rm (vdiv (readFmt 0 (velem s (a + n / 32) 4 (n % 32))).1 (readFmt 0 (s.xn sc % 2 ^ 32)).1)
/-- Packed element n of v[a] times the scale in x[sc], rounded once to FP32 (08 R212). -/
def Sys2Proof.Claim.dequantised (s : State) (fmt a sc n : Nat) : Nat × Nat :=
  let q := readFmt fmt (packed s a (fmtBits fmt) n)
  let p := vmul q.1 (readFmt 0 (s.xn sc % 2 ^ 32)).1
  roundsTo 0 s.me.rm (p.1, q.2 ||| p.2)
/-- 08 R210 to R212: conversion, quantisation by a scale and its inverse; the elements beyond those converted are 0. -/
def Obligations.VectorConversions : Prop :=
  (∀ (s : State) (et k a fmt d : Nat), et < 4 → k < 2 → vcvtCode fmt = true → VFile s [a, d] [a] →
    ∃ t, exec (.vcvt et k a fmt d) s = .next t ∧ LocalV s t 4 d ∧
      (∀ n, n < min (128 / cvtSize et k) (1024 / fmtBits fmt) →
        packed t d (fmtBits fmt) n = (roundFmt fmt (cvtSource s et k a n) s.me.rm).1 % 2 ^ fmtBits fmt) ∧
      (∀ j, min (128 / cvtSize et k) (1024 / fmtBits fmt) * fmtBits fmt ≤ j → (t.me.getV d).getLsbD j = false) ∧
      t.me.fmode = s.me.fmode ||| BitVec.ofNat 64 (orFlags ((List.range (min (128 / cvtSize et k) (1024 / fmtBits fmt))).map fun n =>
        let v := cvtSource s et k a n
        (0, (roundFmt fmt v s.me.rm).2 ||| if v.isSig then fNV else 0)))) ∧
  (∀ (s : State) (sc a fmt d : Nat), quantCode fmt = true → VFile s [a, d] [a, a + 1, a + 2, a + 3] →
    ∃ t, exec (.vquant sc a fmt d) s = .next t ∧ LocalV s t 4 d ∧
      (∀ n, n < 128 → packed t d (fmtBits fmt) n = (quantised s fmt a sc n).1 % 2 ^ fmtBits fmt) ∧
      t.me.fmode = s.me.fmode ||| BitVec.ofNat 64 (orFlags ((List.range 128).map (quantised s fmt a sc)))) ∧
  (∀ (s : State) (sc a fmt d : Nat), quantCode fmt = true → VFile s [a, d] [a] →
    ∃ t, exec (.vdequant sc a fmt d) s = .next t ∧ Local s t 4 ∧ SameX s t ∧ SameC s t ∧ SameM s t ∧
      (∀ r, ¬(d ≤ r ∧ r ≤ d + 3) → t.me.getV r = s.me.getV r) ∧
      (∀ n, n < 128 → velem t (d + n / 32) 4 (n % 32) = (dequantised s fmt a sc n).1 % 2 ^ 32) ∧
      t.me.fmode = s.me.fmode ||| BitVec.ofNat 64 (orFlags ((List.range 128).map (dequantised s fmt a sc))))

/-- 08 R213: the mask instructions; m0 discards a write. -/
def Sys2Proof.Claim.Masks : Prop :=
  (∀ p ∈ [(Instr.mand, fun x y : Mask => x &&& y), (Instr.mor, fun x y => x ||| y), (Instr.mxor, fun x y => x ^^^ y),
      (Instr.mandn, fun x y => x &&& ~~~y)], ∀ (s : State) (a b d : Nat),
    ∃ t, exec (p.1 a b d) s = .next t ∧ Local s t 4 ∧ SameX s t ∧ SameC s t ∧ SameV s t ∧ SameF s t ∧
      WroteM s t d (p.2 (s.me.getM a) (s.me.getM b))) ∧
  (∀ (s : State) (a d : Nat), Gives (.mpop a d) s d (BitVec.ofNat 64 ((List.range 128).countP fun j => (s.me.getM a).getLsbD j)))

/-- The long accumulator of v[d] is free to update (08 R220): the tile's unit is not held in this cycle. -/
def Sys2Proof.Claim.UnitFree (s : State) : Prop := (s.tile s.gta).laccFree ≤ s.cycle
/-- v[d] := r, flags ORed into fmode, and the unit held for W more cycles; nothing else (08 R220). -/
def Sys2Proof.Claim.Accumulates (i : Instr) (s : State) (d : Nat) (r : VReg) (fl W : Nat) : Prop :=
  ∃ t, exec i s = .next t ∧ t.me.getV d = r ∧ OnlyV s t d ∧ SameX s t ∧ SameC s t ∧ SameM s t ∧ SameMem s t ∧ SameSpecials s t ∧
    Advanced s t 4 ∧ t.me.fmode = s.me.fmode ||| BitVec.ofNat 64 fl ∧ t.me.nextAt = s.cycle + 8 + W ∧
    (t.tile s.gta).laccFree = s.cycle + W + 1 ∧ (∀ g, g ≠ s.gta → t.tile g = s.tile g) ∧ (∀ k, k ≠ s.cur → t.slot k = s.slot k) ∧
    t = { s with slots := t.slots, tiles := t.tiles }

/-- 08 R215 to R219: clearing, adding, multiply-adding and merging accumulators, and reading one in a format. -/
def Sys2Proof.Claim.LongAccumulator : Prop :=
  ∀ (s : State), UnitFree s →
    (∀ d, VFile s [d] [] → Accumulates (.laccClr d) s d 0 0 0) ∧
    (∀ et k a d, et < 4 → VFile s [d, a, d] [a, d] →
      let r := accAdd (s.me.getV d) ((List.range (128 / cvtSize et k)).map fun n => (cvtSource s et k a n, 0))
      Accumulates (.laccAdd et k a d) s d r.1 r.2 (accW (s.me.getV d) r.1)) ∧
    (∀ a b d, VFile s [d, a, b, d] [a, b, d] →
      let r := accAdd (s.me.getV d) ((List.range 32).map fun n => vmul (fval s 2 a n) (fval s 2 b n))
      Accumulates (.laccMadd a b d) s d r.1 r.2 (accW (s.me.getV d) r.1)) ∧
    (∀ a d, VFile s [d, a, d] [a, d] →
      let r := mkAcc (accVal (s.me.getV d) + accVal (s.me.getV a)) (accFlags (s.me.getV d) ||| accFlags (s.me.getV a))
      Accumulates (.laccMerge a d) s d r 0 (accW (s.me.getV d) r)) ∧
    (∀ a fmt d, laccCode fmt = true → VFile s [d, a] [a] →
      let r := accRead fmt s.me.rm (s.me.getV a)
      Accumulates (.laccRd a fmt d) s d (BitVec.ofNat 1024 (r.1 % 2 ^ fmtBits fmt)) r.2 11)

/-- 08 R213: the mask instructions; m0 discards a write. 08 R215 to R219: clearing, adding, multiply-adding and merging
accumulators, and reading one in a format. -/
def Obligations.MasksAndAccumulator : Prop := Masks ∧ LongAccumulator


/-! ### Loads, stores, full/empty words, landing words, atomics -/

/-- Slots other than the strand's are as before, but for waits that a change of memory has ended (05 R130). -/
def Sys2Proof.Claim.OthersButWins (s t : State) : Prop :=
  ∀ k, k ≠ s.cur → { t.slot k with wins := [] } = { s.slot k with wins := [] }
/-- [a, a + n) lies in the range of the capability. -/
def Sys2Proof.Claim.InRange (c : Cap) (a : Int) (n : Nat) : Prop := (c.b : Int) ≤ a ∧ a + n ≤ c.top
/-- Everything that an access through c at its issue and at its port asks (04 R86, R87): not null, the right `r`, no wait, a port that
is no window, steps 1 to 8. -/
def Sys2Proof.Claim.MayAccess (s : State) (c : Cap) (r : Nat) (write : Bool) : Prop :=
  RoomForWindow s ∧ AccessFree s c write ∧ c ≠ .null ∧ c.has r = true ∧ isWindow c.o = false ∧
    s.check18 c s.gta s.me.lkey write = none
/-- The bytes [a, a + n) are in range, resident and without an uncorrectable error. -/
def Sys2Proof.Claim.Readable (s : State) (c : Cap) (a : Int) (n : Nat) : Prop :=
  InRange c a n ∧ s.rangeHere c.o (s.entry c.o) a.toNat n = true ∧ s.badIn c.o (s.entry c.o) a.toNat n = 0
/-- The bytes are in range, resident, hold no capability or live descriptor, and their sectors have versions left. -/
def Sys2Proof.Claim.Writable (s : State) (c : Cap) (a : Int) (n : Nat) : Prop :=
  InRange c a n ∧ s.rangeHere c.o (s.entry c.o) a.toNat n = true ∧ s.refusedWrite c.o (s.entry c.o) a.toNat n = none ∧
    s.versionEnd c.o (s.entry c.o) a.toNat n = false
/-- The bytes that a load of `parts` sees: through the strand's commit buffer and its tile's L1, else the port's (05 R114, R134). -/
def Sys2Proof.Claim.seen (s : State) (c : Cap) (parts : List (Nat × Nat)) : List Byte := (s.loadParts s.cur c (s.entry c.o) parts).1
/-- A load's outcome: the window that will write `r`, nothing of the strand or of memory changed. -/
def Sys2Proof.Claim.Loads (i : Instr) (s : State) (la : Nat) (r : Res) : Prop :=
  ∃ t, exec i s = .next t ∧ Pending s t ∧ Opened s t la i (.done r) ∧ SameMem s t ∧ t.entries = s.entries ∧ t.fe = s.fe ∧
    ∀ k, k ≠ s.cur → t.slot k = s.slot k
/-- Scalar loads: size and extension (05 R139). -/
def Sys2Proof.Claim.tableLd : List ((Nat → Nat → Nat → Nat → Instr) × Nat × Bool) := [
  (.ldB, 1, true), (.ldH, 2, true), (.ldW, 4, true), (.ldD, 8, true), (.ldBu, 1, false), (.ldHu, 2, false), (.ldWu, 4, false)]

/-- 05 R138, R139: a scalar load reads its bytes at c.base + sext(imm8) × size and will write them, least significant first, sign- or
zero-extended, when its window closes. -/
def Sys2Proof.Claim.ScalarLoads : Prop :=
  ∀ p ∈ tableLd, ∀ (s : State) (la c imm d : Nat),
    MayAccess s (s.c c) rR false → Readable s (s.c c) (memOff (s.c c) imm p.2.1) p.2.1 →
    (memOff (s.c c) imm p.2.1).toNat % p.2.1 = 0 →
    Loads (p.1 la c imm d) s la
      { xs := [(d, (if p.2.2 then BitVec.ofInt 64 (signed (8 * p.2.1) (ofBytes (seen s (s.c c) [((memOff (s.c c) imm p.2.1).toNat, p.2.1)])))
        else BitVec.ofNat 64 (ofBytes (seen s (s.c c) [((memOff (s.c c) imm p.2.1).toNat, p.2.1)]))))] }

/-- 05 R140 to R143: the vector loads with their element offsets; element i of the register is the i-th part read. -/
def Sys2Proof.Claim.VectorLoads : Prop :=
  ∀ (s : State) (la c d : Nat), (d < 16 ∨ (s.tile s.gta).v32 = true) → MayAccess s (s.c c) rR false →
    (∀ imm, Readable s (s.c c) (memOff (s.c c) imm 128) 128 → (memOff (s.c c) imm 128).toNat % 8 = 0 →
      Loads (.vld la c imm d) s la { vs := [(d, BitVec.ofNat 1024 (ofBytes (seen s (s.c c) [((memOff (s.c c) imm 128).toNat, 128)])))] }) ∧
    (∀ o, (∀ a ∈ strided (s.c c) (s.xn o) (s.xn (o + 1)),
        Readable s (s.c c) a (strideSize s o) ∧ a.toNat % strideSize s o = 0) →
      Loads (.vlds la c o d) s la { vs := [(d, BitVec.ofNat 1024 (ofBytes (seen s (s.c c)
        ((strided (s.c c) (s.xn o) (s.xn (o + 1))).map fun a => (a.toNat, strideSize s o)))))] }) ∧
    (∀ o, tbit s.me.badv o = false → (∀ a ∈ indexed (s.c c) (s.me.getV o), Readable s (s.c c) a 4 ∧ a.toNat % 4 = 0) →
      Loads (.vldx la c o d) s la { vs := [(d, BitVec.ofNat 1024 (ofBytes (seen s (s.c c)
        ((indexed (s.c c) (s.me.getV o)).map fun a => (a.toNat, 4)))))] }) ∧
    (∀ o, InRange (s.c c) (xOff (s.c c) (s.xn o)) (127 * 128 + 1) →
      (∀ j, j < 128 → Readable s (s.c c) (xOff (s.c c) (s.xn o) + (128 * j : Nat)) 1) →
      Loads (.vldt la c o d) s la { vs := [(d, BitVec.ofNat 1024 (ofBytes (seen s (s.c c)
        ((List.range 128).map fun j => ((xOff (s.c c) (s.xn o)).toNat + 128 * j, 1)))))] })

/-- 05 R113, R139, 12 R328: at the tile's own port a load sees the bytes of the pool, capability bytes as zeros, when its strand buffers
nothing. -/
def Sys2Proof.Claim.OwnPoolBytes : Prop :=
  ∀ (s : State) (c : Cap) (off n : Nat), isOwn s.gta c.o = true → s.gta < 4096 → s.me.cbuf = [] →
    (s.entry c.o).base + off + n ≤ 2 ^ 48 →
    (s.markedIn 0 (flat (oidSp c.o) ((s.entry c.o).base + off)) n = false →
      seen s c [(off, n)] = mbytes s.mem (flat (oidSp c.o) ((s.entry c.o).base + off)) n) ∧
    (seen s c [(off, n)]).length = n ∧
    ∀ i, i < n → (seen s c [(off, n)]).getD i 0 =
      if s.marked 0 (flat (oidSp c.o) ((s.entry c.o).base + off + i)) then 0
      else mget s.mem (flat (oidSp c.o) ((s.entry c.o).base + off + i))

/-- 05 R138, R139: a scalar load reads its bytes at c.base + sext(imm8) × size and will write them, least significant first, sign-
or zero-extended, when its window closes. 05 R140 to R143: the vector loads with their element offsets; element i of the register
is the i-th part read. 05 R113, R139, 12 R328: at the tile's own port a load sees the bytes of the pool, capability bytes as
zeros, when its strand buffers nothing. -/
def Obligations.LoadInstructions : Prop := ScalarLoads ∧ VectorLoads ∧ OwnPoolBytes


/-- The parts of a store as an SRAM object takes them: memory after it (05 R139 to R142). -/
def Sys2Proof.Claim.storedAt (s : State) (c : Cap) (parts : List (Nat × List Byte)) : List Host.Cell :=
  parts.foldl (fun m p => mwrite m (flat (oidSp c.o) ((s.entry c.o).base + p.1)) p.2) s.mem
/-- A store's outcome at an SRAM object of a strand that is not restartable: its bytes are in memory, every other byte is as before,
and the strand has only a window more. -/
def Sys2Proof.Claim.Stores (i : Instr) (s : State) (la : Nat) (c : Cap) (parts : List (Nat × List Byte)) : Prop :=
  ∃ t, exec i s = .next t ∧ Pending s t ∧ Opened s t la i (.done {}) ∧ t.entries = s.entries ∧ t.fe = s.fe ∧ OthersButWins s t ∧
    (∀ a, mget t.mem a = mget (storedAt s c parts) a) ∧
    ∀ a, (∀ p ∈ parts, a < flat (oidSp c.o) ((s.entry c.o).base + p.1) ∨
      flat (oidSp c.o) ((s.entry c.o).base + p.1) + p.2.length ≤ a) → mget t.mem a = mget s.mem a
/-- Scalar stores and their sizes (05 R139). -/
def Sys2Proof.Claim.tableSt : List ((Nat → Nat → Nat → Nat → Instr) × Nat) := [(.stB, 1), (.stH, 2), (.stW, 4), (.stD, 8)]
/-- Element i of `e` bytes of a register. -/
def Sys2Proof.Claim.velBytes (v : VReg) (i e : Nat) : List Byte := toBytes e (el v e i)

/-- Every store instruction through c[c] whose bytes may be written, with the parts that it stores, ascending elements in order (05 R139 to
R142). -/
def Sys2Proof.Claim.EveryStore (s : State) (la c : Nat) (P : Instr → List (Nat × List Byte) → Prop) : Prop :=
  (∀ p ∈ tableSt, ∀ imm r, Writable s (s.c c) (memOff (s.c c) imm p.2) p.2 → (memOff (s.c c) imm p.2).toNat % p.2 = 0 →
    P (p.1 la c imm r) [((memOff (s.c c) imm p.2).toNat, toBytes p.2 (s.x r).toNat)]) ∧
  (∀ imm r, VFile s [r] [r] → Writable s (s.c c) (memOff (s.c c) imm 128) 128 → (memOff (s.c c) imm 128).toNat % 8 = 0 →
    P (.vst la c imm r) [((memOff (s.c c) imm 128).toNat, toBytes 128 (s.me.getV r).toNat)]) ∧
  (∀ o r, VFile s [r] [r] → (∀ a ∈ strided (s.c c) (s.xn o) (s.xn (o + 1)),
      Writable s (s.c c) a (strideSize s o) ∧ a.toNat % strideSize s o = 0) →
    P (.vsts la c o r) ((List.range (128 / strideSize s o)).zipWith
      (fun i a => (a.toNat, velBytes (s.me.getV r) i (strideSize s o))) (strided (s.c c) (s.xn o) (s.xn (o + 1))))) ∧
  (∀ o r, VFile s [r] [o, r] → (∀ a ∈ indexed (s.c c) (s.me.getV o), Writable s (s.c c) a 4 ∧ a.toNat % 4 = 0) →
    P (.vstx la c o r) ((List.range 32).zipWith
      (fun i a => (a.toNat, velBytes (s.me.getV r) i 4)) (indexed (s.c c) (s.me.getV o))))

/-- 05 R139 to R142: stores to tile and cluster SRAM. -/
def Obligations.SramStores : Prop :=
  ∀ (s : State) (la c : Nat), MayAccess s (s.c c) rW true → isSram (s.c c).o = true → s.me.restartable = false →
    EveryStore s la c fun i parts => Stores i s la (s.c c) parts

/-- 05 R116, 14 R355: a store, scalar or vector, to an object of HBM or of the host tier without an extent map: under the object's key tag
each byte of the storage reads as the last part that covers it says, and every other byte as before; other storages are untouched. -/
def Sys2Proof.Claim.HbmStores : Prop :=
  ∀ (s : State) (la c : Nat), MayAccess s (s.c c) rW true → isSram (s.c c).o = false → s.me.restartable = false →
    (s.entry (s.c c).o).ext = false →
    EveryStore s la c fun i parts => (∀ p ∈ parts, (s.entry (s.c c).o).base + p.1 + p.2.length ≤ 2 ^ 40) →
      ∃ t, exec i s = .next t ∧ Pending s t ∧ Opened s t la i (.done {}) ∧ OthersButWins s t ∧
        (let sp := oidSp (s.c c).o
         let tag := s.tagOf (s.entry (s.c c).o)
         (∀ b, b < 2 ^ 40 → t.secByte sp tag b = parts.foldl (fun v p =>
            let a := (s.entry (s.c c).o).base + p.1
            if a ≤ b ∧ b < a + p.2.length then p.2.getD (b - a) 0 else v) (s.secByte sp tag b)) ∧
         ∀ b, b / 2 ^ 48 ≠ spL2 sp → mget t.mem b = mget s.mem b)

/-- Bytes of the commit buffer that a store's parts use: 8 and the part's bytes in doublewords, for each part (05 R134; each element of
vsts and vstx is a store of its own, log 95). -/
def Sys2Proof.Claim.bufferUse (parts : List (Nat × List Byte)) : Nat := (parts.map fun p => 8 + 8 * ((p.2.length + 7) / 8)).sum
/-- 05 R134: in a restartable codelet a store, scalar or vector, to a restartable object of another port waits in the commit buffer while
there is room: memory does not change. Each element of a vsts or vstx is a store of its own there (log 95). -/
def Sys2Proof.Claim.BufferedStores : Prop :=
  ∀ (s : State) (la c : Nat),
    MayAccess s (s.c c) rW true → s.me.restartable = true → isOwn s.gta (s.c c).o = false → (s.entry (s.c c).o).restartable = true →
    EveryStore s la c fun i parts => s.me.cbufUsed + bufferUse parts ≤ 4096 →
      ∃ t, exec i s = .next t ∧ Pending s t ∧ Opened s t la i (.done {}) ∧ SameMem s t ∧ OnlyMe s t ∧
        t.me.cbuf = s.me.cbuf ++ parts.map (fun p => .st (s.c c) p.1 p.2) ∧ t.me.cbufUsed = s.me.cbufUsed + bufferUse parts

/-- 05 R116, 14 R355: a store, scalar or vector, to an object of HBM or of the host tier without an extent map: under the object's
key tag each byte of the storage reads as the last part that covers it says, and every other byte as before; other storages are
untouched. 05 R134: in a restartable codelet a store, scalar or vector, to a restartable object of another port waits in the
commit buffer while there is room: memory does not change. Each element of a vsts or vstx is a store of its own there (log 95). -/
def Obligations.OtherStores : Prop := HbmStores ∧ BufferedStores


/-- A load or store of one range: the right that it needs, its bytes and their alignment, whether it names a vector register, and which
vector registers it reads (05 R139, R140). -/
def Sys2Proof.Claim.tableOne : List ((Nat → Nat → Nat → Nat → Instr) × Nat × Nat × Nat × Bool × (Nat → List Nat)) :=
  tableLd.map (fun p => (p.1, rR, p.2.1, p.2.1, false, fun _ => [])) ++ tableSt.map (fun p => (p.1, rW, p.2, p.2, false, fun _ => [])) ++
    [(.vld, rR, 128, 8, true, fun _ => []), (.vst, rW, 128, 8, true, fun d => [d])]
/-- A vector load or store of elements: the right, the offsets and the size of its elements from its register o, and the vector registers
it reads (05 R141 to R143). -/
def Sys2Proof.Claim.tableElems :
    List ((Nat → Nat → Nat → Nat → Instr) × Nat × (State → Cap → Nat → List Int) × (State → Nat → Nat) × (Nat → Nat → List Nat)) := [
  (.vlds, rR, fun s c o => strided c (s.xn o) (s.xn (o + 1)), strideSize, fun _ _ => []),
  (.vsts, rW, fun s c o => strided c (s.xn o) (s.xn (o + 1)), strideSize, fun _ d => [d]),
  (.vldx, rR, fun s c o => indexed c (s.me.getV o), fun _ _ => 4, fun o _ => [o]),
  (.vstx, rW, fun s c o => indexed c (s.me.getV o), fun _ _ => 4, fun o d => [o, d]),
  (.vldt, rR, fun s c o => (List.range 128).map fun (j : Nat) => xOff c (s.xn o) + 128 * j, fun _ _ => 1, fun _ _ => [])]
/-- Steps 1 and 2 of 04 R86 for the capability in c[c] and the right r. -/
def Sys2Proof.Claim.CapFaults (i : Instr) (s : State) (c r : Nat) : Prop :=
  (s.c c = .null → exec i s = .next (s.raise cCAP_NULL c)) ∧
  (s.c c ≠ .null → (s.c c).has r = false → exec i s = .next (s.raise cCAP_RIGHTS ((s.c c).rights.toNat * 256 + c)))
/-- The first offset of `as` that is not good, `bad` its fault. -/
def Sys2Proof.Claim.FirstBad (as : List Int) (good : Int → Prop) (fault : Int → Prop) : Prop :=
  ∀ (j : Nat) (a : Int), as[j]? = some a → ¬good a → (∀ (k : Nat) (x : Int), k < j → as[k]? = some x → good x) → fault a
/-- 04 R86, 05 R139 to R143: the checks of loads and stores at issue, scalar and vector, in their order, and the fault that each raises with
its tval: for one range the lowest byte outside the capability's (13 R430, where R138 has the offset: log 94), for elements the offset
of the first that fails, every bound before every alignment; then MCHECK for a vector register that holds an error; and before all of
them ILLEGAL for one beyond the file. -/
def Sys2Proof.Claim.AccessFaults : Prop :=
  (∀ p ∈ tableOne, ∀ (s : State) (la c imm d : Nat),
    (p.2.2.2.2.1 = true → 16 ≤ d → (s.tile s.gta).v32 = false →
      exec (p.1 la c imm d) s = .next (s.raise cILLEGAL ((encode (p.1 la c imm d)).getD 0))) ∧
    (RoomForWindow s → AccessFree s (s.c c) (p.2.1 == rW) → (p.2.2.2.2.1 = true → d < 16 ∨ (s.tile s.gta).v32 = true) →
      CapFaults (p.1 la c imm d) s c p.2.1 ∧
      (s.c c ≠ .null → (s.c c).has p.2.1 = true →
        let a := memOff (s.c c) imm p.2.2.1
        (a < (s.c c).b → exec (p.1 la c imm d) s = .next (s.raise cCAP_BOUNDS (wrap 64 a))) ∧
        ((s.c c).b ≤ a → ((s.c c).top : Int) < a + p.2.2.1 →
          exec (p.1 la c imm d) s = .next (s.raise cCAP_BOUNDS (wrap 64 (max a (s.c c).top)))) ∧
        (InRange (s.c c) a p.2.2.1 → wrap 64 a % p.2.2.2.1 ≠ 0 →
          exec (p.1 la c imm d) s = .next (s.raise cMISALIGNED (wrap 64 a))) ∧
        (InRange (s.c c) a p.2.2.1 → wrap 64 a % p.2.2.2.1 = 0 → (p.2.2.2.2.2 d).any (tbit s.me.badv) = true →
          exec (p.1 la c imm d) s = .next (s.raise cMCHECK 1))))) ∧
  (∀ p ∈ tableElems, ∀ (s : State) (la c o d : Nat),
    (16 ≤ d → (s.tile s.gta).v32 = false →
      exec (p.1 la c o d) s = .next (s.raise cILLEGAL ((encode (p.1 la c o d)).getD 0))) ∧
    (RoomForWindow s → AccessFree s (s.c c) (p.2.1 == rW) → d < 16 ∨ (s.tile s.gta).v32 = true →
      CapFaults (p.1 la c o d) s c p.2.1 ∧
      (s.c c ≠ .null → (s.c c).has p.2.1 = true →
        let as := p.2.2.1 s (s.c c) o
        let e := p.2.2.2.1 s o
        FirstBad as (InRange (s.c c) · e) (fun a => exec (p.1 la c o d) s = .next (s.raise cCAP_BOUNDS (wrap 64 a))) ∧
        ((∀ a ∈ as, InRange (s.c c) a e) →
          FirstBad as (wrap 64 · % e = 0) (fun a => exec (p.1 la c o d) s = .next (s.raise cMISALIGNED (wrap 64 a)))) ∧
        ((∀ a ∈ as, InRange (s.c c) a e ∧ wrap 64 a % e = 0) → (p.2.2.2.2 o d).any (tbit s.me.badv) = true →
          exec (p.1 la c o d) s = .next (s.raise cMCHECK 1)))))

/-- 04 R87, 13 R338: a load or store of one range that the port refuses is a deferred fault: a window that fails when it closes. -/
def Sys2Proof.Claim.PortRefusals : Prop :=
  ∀ p ∈ tableOne, ∀ (s : State) (la c imm d : Nat) (f : Nat × Nat),
    RoomForWindow s → AccessFree s (s.c c) (p.2.1 == rW) → s.c c ≠ .null → (s.c c).has p.2.1 = true → isWindow (s.c c).o = false →
    (p.2.2.2.2.1 = true → d < 16 ∨ (s.tile s.gta).v32 = true) → (p.2.2.2.2.2 d).any (tbit s.me.badv) = false →
    InRange (s.c c) (memOff (s.c c) imm p.2.2.1) p.2.2.1 → (memOff (s.c c) imm p.2.2.1).toNat % p.2.2.2.1 = 0 →
    s.check18 (s.c c) s.gta s.me.lkey (p.2.1 == rW) = some f →
    ∃ t, exec (p.1 la c imm d) s = .next t ∧ Pending s t ∧ Opened s t la (p.1 la c imm d) (.fail f.1 f.2) ∧ SameMem s t

/-- 04 R86, 05 R139 to R143: the checks of loads and stores at issue, scalar and vector, in their order, and the fault that each
raises with its tval: for one range the lowest byte outside the capability's (13 R430, where R138 has the offset: log 94), for
elements the offset of the first that fails, every bound before every alignment; then MCHECK for a vector register that holds an
error; and before all of them ILLEGAL for one beyond the file. 04 R87, 13 R338: a load or store of one range that the port refuses
is a deferred fault: a window that fails when it closes. -/
def Obligations.AccessRefusals : Prop := AccessFaults ∧ PortRefusals


/-- Everything that a full/empty or landing instruction asks of its operand of `size` bytes at c.base + x[o] (05 R124). -/
def Sys2Proof.Claim.MaySync (s : State) (c : Cap) (x size : Nat) (rs : List Nat) (write : Bool) : Prop :=
  RoomForWindow s ∧ s.heldBy c write = false ∧ c ≠ .null ∧ rs.any c.has = true ∧ isSram c.o = true ∧ InRange c (xOff c x) size ∧
    (c.b + x) % size = 0 ∧ s.check18 c s.gta s.me.lkey write = none ∧ s.badIn c.o (s.entry c.o) (c.b + x) size = 0 ∧
    s.stoppedAt (s.feAddr c (c.b + x)) = none
/-- The flat address of the word that the instruction names. -/
def Sys2Proof.Claim.wordAt (s : State) (c : Cap) (x : Nat) : Nat := s.feAddr c (c.b + x)
/-- The outcome of a full/empty instruction that its port performs at once. -/
def Sys2Proof.Claim.Performs (i : Instr) (s : State) (la a : Nat) (r : Res) (full : Bool) (v : Option Word) : Prop :=
  ∃ t, exec i s = .next t ∧ Pending s t ∧ Opened s t la i (.done r) ∧ OthersButWins s t ∧ t.feBit a = full ∧
    (∀ b, b / 8 ≠ a / 8 → t.feBit b = s.feBit b) ∧ (∀ w, v = some w → mbytes t.mem a 8 = toBytes 8 w.toNat) ∧
    (∀ b, v = none ∨ b < a ∨ a + 8 ≤ b → mget t.mem b = mget s.mem b)

/-- 05 R125 to R128: the full/empty instructions on a word in the state that they need and without a waiter; what each does to the
word, its bit and the register that it will write. -/
def Sys2Proof.Claim.FullEmpty : Prop :=
  ∀ (s : State) (la c o : Nat), s.amoBusy s.cur = false → sget [] s.waits (oidSp (s.c c).o) = [] →
    (∀ d, s.me.occ ≠ .codelet → MaySync s (s.c c) (s.xn o) 8 [rR] false → s.feBit (wordAt s (s.c c) (s.xn o)) = true →
      Performs (.ldFe la c o d) s la (wordAt s (s.c c) (s.xn o))
        { xs := [(d, BitVec.ofNat 64 (mnat s.mem (wordAt s (s.c c) (s.xn o)) 8))], acquire := true } true none) ∧
    (∀ d, s.me.occ ≠ .codelet → MaySync s (s.c c) (s.xn o) 8 [rW] true → s.feBit (wordAt s (s.c c) (s.xn o)) = true →
      Performs (.ldFet la c o d) s la (wordAt s (s.c c) (s.xn o))
        { xs := [(d, BitVec.ofNat 64 (mnat s.mem (wordAt s (s.c c) (s.xn o)) 8))], acquire := true } false none) ∧
    (∀ r, s.me.occ ≠ .codelet → MaySync s (s.c c) (s.xn o) 8 [rW, rL] true → s.feBit (wordAt s (s.c c) (s.xn o)) = false →
      s.refusedWrite (s.c c).o (s.entry (s.c c).o) ((s.c c).b + s.xn o) 8 = none →
      Performs (.stFe la c o r) s la (wordAt s (s.c c) (s.xn o)) {} true (some (s.x r)) ∧
      (s.drains s.cur s.nextId = false →
        Performs (.stFeRel la c o r) s la (wordAt s (s.c c) (s.xn o)) {} true (some (s.x r)))) ∧
    (MaySync s (s.c c) (s.xn o) 8 [rW] true → s.me.restartable = false ∨ isOwn s.gta (s.c c).o = true →
      Performs (.feClr la c o) s la (wordAt s (s.c c) (s.xn o)) {} false none) ∧
    (∀ d, MaySync s (s.c c) (s.xn o) 8 [rR] false →
      Performs (.feProbe la c o d) s la (wordAt s (s.c c) (s.xn o))
        { xs := [(d, if s.feBit (wordAt s (s.c c) (s.xn o)) then 1 else 0)] } (s.feBit (wordAt s (s.c c) (s.xn o))) none)

/-- The full/empty instructions that may wait: operation, rights, whether the port counts a write, the state of the word that makes it wait,
and what the window carries of the register: the value that it stores and the register that it writes (05 R125). -/
def Sys2Proof.Claim.tableFe : List ((Nat → Nat → Nat → Nat → Instr) × FeOp × List Nat × Bool × Bool × (State → Nat → Word × Nat)) := [
  (.ldFe, .ld, [rR], false, false, fun _ d => (0, d)), (.ldFet, .ldt, [rW], true, false, fun _ d => (0, d)),
  (.stFe, .st, [rW, rL], true, true, fun s r => (s.x r, 0)), (.stFeRel, .stRel, [rW, rL], true, true, fun s r => (s.x r, 0))]
/-- 05 R125 to R127: on a word in the other state ld.fe, ld.fet, st.fe and st.fe.rel wait: the window stands on the port's wait list, bounded
by wlim; st.fe.rel first waits for the strand's engine commands; a codelet raises ILLEGAL. -/
def Sys2Proof.Claim.FullEmptyWaits : Prop :=
  ∀ p ∈ tableFe, ∀ (s : State) (la c o d : Nat),
    (s.me.occ = .codelet → exec (p.1 la c o d) s = .next (s.raise cILLEGAL ((encode (p.1 la c o d)).getD 0))) ∧
    (s.me.occ ≠ .codelet → s.amoBusy s.cur = false → MaySync s (s.c c) (s.xn o) 8 p.2.2.1 p.2.2.2.1 →
      (p.2.2.2.2.1 = true → s.refusedWrite (s.c c).o (s.entry (s.c c).o) ((s.c c).b + s.xn o) 8 = none) →
      s.feBit (wordAt s (s.c c) (s.xn o)) = p.2.2.2.2.1 →
      ((p.2.1 = .stRel → s.drains s.cur s.nextId = false) → (sget [] s.waits (oidSp (s.c c).o)).length < 64 →
        ∃ t w, exec (p.1 la c o d) s = .next t ∧ Pending s t ∧ OnlyMe ({ s with waits := t.waits } : State) t ∧
          t.me.wins.getLast? = some w ∧
          w.st = .wait (.fe p.2.1 (s.c c) ((s.c c).b + s.xn o) (p.2.2.2.2.2 s d).1 (p.2.2.2.2.2 s d).2 true false 0) ∧
          w.lim = (if s.me.wlim = 0 then none else some s.me.wlim.toNat) ∧
          sget [] t.waits (oidSp (s.c c).o) = sget [] s.waits (oidSp (s.c c).o) ++ [(s.cur, s.me.nextWid)]) ∧
      (p.2.1 = .stRel → s.drains s.cur s.nextId = true →
        ∃ t, exec (p.1 la c o d) s = .next t ∧ Pending s t ∧ OnlyMe s t ∧ Opened s t la (p.1 la c o d)
          (.wait (.fe .stRel (s.c c) ((s.c c).b + s.xn o) (s.x d) 0 false false s.nextId))))

/-- 05 R125 to R128: the full/empty instructions on a word in the state that they need and without a waiter; what each does to the
word, its bit and the register that it will write. 05 R125 to R127: on a word in the other state ld.fe, ld.fet, st.fe and
st.fe.rel wait: the window stands on the port's wait list, bounded by wlim; st.fe.rel first waits for the strand's engine
commands; a codelet raises ILLEGAL. -/
def Obligations.FullEmptyWords : Prop := FullEmpty ∧ FullEmptyWaits


/-- 05 R130: land.arm sets the target, clears count, err and ovf, keeps gen and marks the pair armed unless the target is 0. -/
def Sys2Proof.Claim.LandingArm : Prop :=
  ∀ (s : State) (la c o r : Nat),
    MaySync s (s.c c) (s.xn o) 16 [rW] true → s.refusedWrite (s.c c).o (s.entry (s.c c).o) ((s.c c).b + s.xn o) 16 = none →
    s.me.restartable = false ∨ isOwn s.gta (s.c c).o = true →
    ∃ t, exec (.landArm la c o r) s = .next t ∧ Pending s t ∧ Opened s t la (.landArm la c o r) (.done {}) ∧ OthersButWins s t ∧
      bits (t.land0 (wordAt s (s.c c) (s.xn o))) 0 56 = (s.x r).toNat % 2 ^ 56 ∧
      bits (t.land0 (wordAt s (s.c c) (s.xn o))) 56 8 = bits (s.land0 (wordAt s (s.c c) (s.xn o))) 56 8 ∧
      t.land1 (wordAt s (s.c c) (s.xn o)) = (if (s.x r).toNat % 2 ^ 56 = 0 then 0 else 2 ^ 56) ∧
      ∀ a, a < wordAt s (s.c c) (s.xn o) ∨ wordAt s (s.c c) (s.xn o) + 16 ≤ a → mget t.mem a = mget s.mem a

/-- 05 R130: land.get will write both words; land.wait will write word 0 at once where gen differs from x[r][7:0] or err is set, and
else waits, bounded by wlim; a codelet raises ILLEGAL for it. -/
def Sys2Proof.Claim.LandingWords : Prop :=
  ∀ (s : State) (la c o r : Nat), MaySync s (s.c c) (s.xn o) 16 [rR] false →
    Loads (.landGet la c o r) s la { xs := [(r, BitVec.ofNat 64 (s.land0 (wordAt s (s.c c) (s.xn o)))),
        (r + 1, BitVec.ofNat 64 (s.land1 (wordAt s (s.c c) (s.xn o))))] } ∧
    (s.me.occ = .codelet → exec (.landWait la c o r) s = .next (s.raise cILLEGAL ((encode (.landWait la c o r)).getD 0))) ∧
    (s.me.occ ≠ .codelet →
      (bits (s.land0 (wordAt s (s.c c) (s.xn o))) 56 8 ≠ (s.x r).toNat % 256 ∨ tbit (s.land1 (wordAt s (s.c c) (s.xn o))) 58 = true) →
      ∃ t, exec (.landWait la c o r) s = .next t ∧ Pending s t ∧ SameMem s t ∧
        Opened s t la (.landWait la c o r)
          (.done { xs := [(r, BitVec.ofNat 64 (s.land0 (wordAt s (s.c c) (s.xn o))))], acquire := true })) ∧
    (s.me.occ ≠ .codelet → bits (s.land0 (wordAt s (s.c c) (s.xn o))) 56 8 = (s.x r).toNat % 256 →
      tbit (s.land1 (wordAt s (s.c c) (s.xn o))) 58 = false →
      ∃ t w, exec (.landWait la c o r) s = .next t ∧ Pending s t ∧ SameMem s t ∧
        Opened s t la (.landWait la c o r) (.wait (.land (s.c c) ((s.c c).b + s.xn o) (s.xn r) r)) ∧
        t.me.wins.getLast? = some w ∧ w.lim = if s.me.wlim = 0 then none else some s.me.wlim.toNat)

/-- 05 R129: counting n bytes at a pair: below the target, or at a pair that is not armed, the count grows by n; otherwise gen advances
once for each time that the count holds the target, the rest stays in the count, the target and the armed bit are kept, and ovf is
set if the count had passed the target. A failed packet sets err. A count that reaches bytes of a capability or of a live descriptor is
refused (11 R285), and one at a pair with a poisoned word poisons the object and counts nothing (13 R345). -/
def Sys2Proof.Claim.LandingCounts : Prop :=
  ∀ (s : State) (a id : Nat), s.stoppedAt a = none → (s.noWrite a 16 = true → ∀ n, s.landCount a n id = s) ∧
  (s.noWrite a 16 = false → s.badWords a 16 = true → ∀ n, SameMem s (s.landCount a n id) ∧
    ∀ o, s.objectAt (a / 2 ^ 48) (a % 2 ^ 48) = some o → ((s.landCount a n id).entry o).poison = true) ∧
  (s.noWrite a 16 = false → s.badWords a 16 = false →
    (∀ n, bits (s.land1 a) 0 56 + n < 2 ^ 56 →
      let w0 := s.land0 a
      let w1 := s.land1 a
      let c := bits w1 0 56 + n
      let t := s.landCount a (some n) id
      (c < bits w0 0 56 ∨ tbit w1 56 = false ∨ bits w0 0 56 = 0 → t.land0 a = w0 ∧ bits (t.land1 a) 0 56 = c) ∧
      (tbit w1 56 = true → bits w0 0 56 ≠ 0 → bits w0 0 56 ≤ c →
        bits (t.land0 a) 56 8 = (bits w0 56 8 + c / bits w0 0 56) % 256 ∧ bits (t.land0 a) 0 56 = bits w0 0 56 ∧
        bits (t.land1 a) 0 56 = c % bits w0 0 56 ∧ tbit (t.land1 a) 56 = true ∧
        (bits w0 0 56 < c → tbit (t.land1 a) 57 = true))) ∧
    tbit ((s.landCount a none id).land1 a) 58 = true ∧ (s.landCount a none id).land0 a = s.land0 a)

/-- 05 R130: land.arm sets the target, clears count, err and ovf, keeps gen and marks the pair armed unless the target is 0. 05
R130: land.get will write both words; land.wait will write word 0 at once where gen differs from x[r][7:0] or err is set, and else
waits, bounded by wlim; a codelet raises ILLEGAL for it. 05 R129: counting n bytes at a pair: below the target, or at a pair that
is not armed, the count grows by n; otherwise gen advances once for each time that the count holds the target, the rest stays in
the count, the target and the armed bit are kept, and ovf is set if the count had passed the target. A failed packet sets err. A
count that reaches bytes of a capability or of a live descriptor is refused (11 R285), and one at a pair with a poisoned word
poisons the object and counts nothing (13 R345). -/
def Obligations.LandingPairs : Prop := LandingArm ∧ LandingWords ∧ LandingCounts


/-- The word atomics: the new value from the old one, x[s] and x[s + 1] (06 R163). -/
def Sys2Proof.Claim.tableAmo : List ((Nat → Nat → Nat → Nat → Instr) × (Word → Word → Word → Word)) := [
  (.amoAdd, fun o a _ => o + a), (.amoAnd, fun o a _ => o &&& a), (.amoOr, fun o a _ => o ||| a), (.amoXor, fun o a _ => o ^^^ a),
  (.amoMin, fun o a _ => if o.toInt ≤ a.toInt then o else a), (.amoMax, fun o a _ => if o.toInt ≤ a.toInt then a else o),
  (.amoMinu, fun o a _ => if o.toNat ≤ a.toNat then o else a), (.amoMaxu, fun o a _ => if o.toNat ≤ a.toNat then a else o),
  (.amoSwap, fun _ a _ => a), (.amoCas, fun o a b => if o = a then b else o)]
/-- Everything that an atomic on `size` bytes asks of its strand, capability and object (06 R154, R158, R160, R163). -/
def Sys2Proof.Claim.MayAmo (s : State) (c : Cap) (x size : Nat) : Prop :=
  RoomForWindow s ∧ s.amoBusy s.cur = false ∧ s.syncBusy s.cur = false ∧ s.heldBy c true = false ∧ s.me.restartable = false ∧
    c ≠ .null ∧ c.has rA = true ∧ oidPort c.o = 68 ∧ InRange c (xOff c x) size ∧ (c.b + x) % size = 0 ∧
    s.check18 c s.gta s.me.lkey true = none ∧ (s.entry c.o).amo = true ∧ s.rangeHere c.o (s.entry c.o) (c.b + x) size = true ∧
    s.badIn c.o (s.entry c.o) (c.b + x) size = 0 ∧ s.versionEnd c.o (s.entry c.o) (c.b + x) size = false
/-- One lane of amo.fadd: an FP32 sum rounded once (06 R164). -/
def Sys2Proof.Claim.faddLane (rm : Nat) (o a i : Nat) : Nat × Nat :=
  roundsTo 0 rm (vadd rm (readFmt 0 (bits o (32 * i) 32)).1 (readFmt 0 (bits a (32 * i) 32)).1)

/-- 06 R154, R158, R162 to R164: an atomic replaces the word with its function of the old value, and will write the old value. -/
def Sys2Proof.Claim.Atomics : Prop :=
  ∀ (s : State) (la c r d : Nat), MayAmo s (s.c c) (s.xn d) 8 →
    let cp := s.c c
    let e := s.entry cp.o
    let off := cp.b + s.xn d
    let old := s.objWord cp.o e off
    (∀ p ∈ tableAmo, exec (p.1 la c r d) s = .next ((s.putWord cp.o e off (p.2 (BitVec.ofNat 64 old) (s.x r) (s.x (r + 1))).toNat).openW la
      (p.1 la c r d) (.done { xs := [(d, BitVec.ofNat 64 old)], acquire := true }))) ∧
    exec (.amoFadd la c r d) s = .next ((s.putWord cp.o e off
        (((faddLane s.me.rm old (s.xn r) 1).1 * 2 ^ 32 + (faddLane s.me.rm old (s.xn r) 0).1) % 2 ^ 64)).openW la
      (.amoFadd la c r d) (.done { xs := [(d, BitVec.ofNat 64 old)], flags := (faddLane s.me.rm old (s.xn r) 0).2 ||| (faddLane s.me.rm old (s.xn r) 1).2, acquire := true }))

/-- 06 R165, R166: the queue in HBM: enq stores x[s] at the tail and answers the old tail, or all ones when the queue is full; deq answers the
old head and its value, or all ones and 0 when it is empty. -/
def Sys2Proof.Claim.Queues : Prop :=
  ∀ (s : State) (la c r d : Nat), MayAmo s (s.c c) (s.xn d) 32 →
    let cp := s.c c
    let e := s.entry cp.o
    let off := cp.b + s.xn d
    ∀ h t n, s.objWord cp.o e off = h → s.objWord cp.o e (off + 8) = t → s.objWord cp.o e (off + 16) = n →
      let q := (t + 2 ^ 48 - h) % 2 ^ 48
      h < 2 ^ 48 → t < 2 ^ 48 → q ≤ n → 0 < n → n < 2 ^ 32 → off + 32 + 8 * n ≤ cp.top →
      (∀ i, i < n → s.rangeHere cp.o e (off + 32 + 8 * i) 8 = true ∧ s.badIn cp.o e (off + 32 + 8 * i) 8 = 0 ∧
        s.versionEnd cp.o e (off + 32 + 8 * i) 8 = false) →
      (q < n → exec (.amoEnq la c r d) s = .next
        (((s.putWord cp.o e (off + 32 + 8 * (t % n)) (s.xn r)).putWord cp.o e (off + 8) ((t + 1) % 2 ^ 48)).openW la (.amoEnq la c r d)
          (.done { xs := [(d, BitVec.ofNat 64 t)], acquire := true }))) ∧
      (q = n → exec (.amoEnq la c r d) s = .next (s.openW la (.amoEnq la c r d)
          (.done { xs := [(d, BitVec.allOnes 64)], acquire := true }))) ∧
      (h ≠ t → exec (.amoDeq la c r d) s = .next
        ((s.putWord cp.o e off ((h + 1) % 2 ^ 48)).openW la (.amoDeq la c r d)
          (.done { xs := [(d, BitVec.ofNat 64 h), (r, BitVec.ofNat 64 (s.objWord cp.o e (off + 32 + 8 * (h % n))))], acquire := true }))) ∧
      (h = t → exec (.amoDeq la c r d) s = .next (s.openW la (.amoDeq la c r d)
          (.done { xs := [(d, BitVec.allOnes 64), (r, 0)], acquire := true })))

/-- 06 R154, R158, R162 to R164: an atomic replaces the word with its function of the old value, and will write the old value. 06
R165, R166: the queue in HBM: enq stores x[s] at the tail and answers the old tail, or all ones when the queue is full; deq
answers the old head and its value, or all ones and 0 when it is empty. -/
def Obligations.AtomicsAndQueues : Prop := Atomics ∧ Queues


/-! ### Traps, system instructions, repeats -/

/-- What a trap entry leaves in its strand (13 R333, R336): the pc in trpc, cause and tval, tstat with held set, the old mode in pmode, ie
moved to pie and cleared; S mode at `pc`; every register as before. -/
def Sys2Proof.Claim.Trapped (s t : State) (k cause tval pc : Nat) : Prop :=
  let a := s.slot k
  let b := t.slot k
  b.trpc = a.pc ∧ b.tcause = BitVec.ofNat 64 cause ∧ b.tval = BitVec.ofNat 64 tval ∧ b.mode = .s ∧ b.pc = BitVec.ofNat 64 pc ∧
    tbit b.tstat.toNat 12 = true ∧ bits b.tstat.toNat 4 2 = a.mode.code ∧ tbit b.tstat.toNat 0 = false ∧
    tbit b.tstat.toNat 1 = tbit a.tstat.toNat 0 ∧ b.rptLive = false ∧ b.rptc = a.rptc ∧
    b.x = a.x ∧ b.c = a.c ∧ b.c15s = a.c15s ∧ b.v = a.v ∧ b.m = a.m ∧ b.fmode = a.fmode ∧ b.mxcfg = a.mxcfg ∧ b.wlim = a.wlim ∧
    b.lkey = a.lkey ∧ b.instret = a.instret ∧ b.tvec = a.tvec ∧ b.tscratch = a.tscratch ∧ b.wdog = a.wdog ∧ b.tie = a.tie ∧
    b.tip = a.tip ∧ b.dcsr = a.dcsr ∧ b.dpc = a.dpc
/-- The executing strand is one of a tile, in U or S mode, with no open window, not already handling a trap, and the segment of its tvec
is loaded at overlay address `pc`. -/
def Sys2Proof.Claim.CanTrap (s : State) (pc : Nat) : Prop :=
  s.cur ≠ sepKey ∧ (s.me.mode = .u ∨ s.me.mode = .s) ∧ s.me.wins = [] ∧ s.me.held = false ∧
    (s.tile s.gta).resolve s.me.tvec.toNat = some pc

/-- 13 R336: taking a trap. -/
def Sys2Proof.Claim.TrapEntrySaves : Prop :=
  ∀ (s : State) (cause tval pc : Nat), CanTrap s pc → cause < 2 ^ 63 →
    Trapped s (s.raise cause tval) s.cur cause tval pc ∧ OnlyMe s (s.raise cause tval) ∧ SameMem s (s.raise cause tval)

/-- 13 R337: a fault while a trap is being handled halts the slot with dbl set, and the black box of the die records it. -/
def Sys2Proof.Claim.DoubleTraps : Prop :=
  ∀ (s : State) (cause tval : Nat), s.cur ≠ sepKey → (s.me.mode = .u ∨ s.me.mode = .s) → s.me.wins = [] → s.me.held = true →
    cause ≠ cWATCHDOG →
    (s.raise cause tval).me.stopped = true ∧ tbit (s.raise cause tval).me.tstat.toNat 15 = true ∧
    (s.raise cause tval).me.pc = s.me.pc ∧ (s.raise cause tval).me.mode = s.me.mode ∧
    ∃ r, (sget [] (s.raise cause tval).bbox (s.gta / 64)).getLast? = some r ∧ r.code = 8 ∧ r.cause = cause ∧ r.gta = s.gta ∧
      r.slot = s.cur % 16

/-- 13 R336: taking a trap. 13 R337: a fault while a trap is being handled halts the slot with dbl set, and the black box of the
die records it. -/
def Obligations.TrapEntry : Prop := TrapEntrySaves ∧ DoubleTraps


/-- 03 R74: ECALL and EBREAK take their traps at the instruction itself. -/
def Sys2Proof.Claim.SystemCalls : Prop :=
  ∀ (s : State) (pc : Nat), CanTrap s pc →
    (∃ t, exec .ecall s = .next t ∧ Trapped s t s.cur 20 0 pc ∧ OnlyMe s t ∧ SameMem s t) ∧
    (tbit s.me.dcsr.toNat 13 = false → tbit s.me.dcsr.toNat 15 = false →
      ∃ t, exec .ebreak s = .next t ∧ Trapped s t s.cur 21 s.me.pc.toNat pc ∧ OnlyMe s t ∧ SameMem s t)

/-- 03 R74, R75; 13 R339: the modes in which the system instructions are legal; elsewhere they raise MODE, and WFI in a codelet ILLEGAL. -/
def Sys2Proof.Claim.SystemModes : Prop :=
  ∀ (s : State),
    (s.me.mode = .m ∨ s.me.mode = .d → exec .ecall s = .next (s.raise cMODE 0x73) ∧ exec .ebreak s = .next (s.raise cMODE 0x100073)) ∧
    (s.me.occ ≠ .codelet → s.me.mode = .m ∨ s.me.mode = .d → exec .wfi s = .next (s.raise cMODE ((encode .wfi).getD 0))) ∧
    (s.me.mode ≠ .s → exec .tret s = .next (s.raise cMODE ((encode .tret).getD 0))) ∧
    (s.me.mode ≠ .d → exec .dret s = .next (s.raise cMODE ((encode .dret).getD 0))) ∧
    (s.me.occ = .codelet → exec .wfi s = .next (s.raise cILLEGAL ((encode .wfi).getD 0)))

/-- 03 R75, R78, 13 R336: TRET resumes at trpc in the mode of pmode with ie from pie and held clear; the repeat of rptc goes on where act is
set, but for a repeat of the handler itself, which TRET ends. -/
def Sys2Proof.Claim.TrapReturn : Prop :=
  ∀ (s : State), s.me.mode = .s → s.me.wins = [] →
    ∃ t, exec .tret s = .next t ∧ OnlyMe s t ∧ SameMem s t ∧ t.me.pc = s.me.trpc ∧
      t.me.mode = (if bits s.me.tstat.toNat 4 2 = 1 then .s else .u) ∧
      tbit t.me.tstat.toNat 0 = tbit s.me.tstat.toNat 1 ∧ tbit t.me.tstat.toNat 1 = true ∧ tbit t.me.tstat.toNat 12 = false ∧
      bits t.me.tstat.toNat 4 2 = 0 ∧ t.me.instret = s.me.instret + 1 ∧ t.me.x = s.me.x ∧ t.me.c = s.me.c ∧ t.me.c15s = s.me.c15s ∧
      t.me.v = s.me.v ∧ t.me.m = s.me.m ∧ t.me.fmode = s.me.fmode ∧ t.me.tvec = s.me.tvec ∧ t.me.trpc = s.me.trpc ∧
      t.me.tcause = s.me.tcause ∧ t.me.tval = s.me.tval ∧ (s.me.rptLive = true → t.me.rptc = 0 ∧ t.me.rptLive = false) ∧
      (s.me.rptLive = false → t.me.rptc = s.me.rptc ∧ t.me.rptLive = tbit s.me.rptc.toNat 47)

/-- 03 R74, R62: WFI goes on when an enabled interrupt is pending, or WATCHDOG is due and no trap is being handled, and parks otherwise;
DRET leaves D mode at dpc in the mode of prv. -/
def Sys2Proof.Claim.WaitAndDebugReturn : Prop :=
  ∀ (s : State),
    (s.me.occ ≠ .codelet → (s.me.mode = .u ∨ s.me.mode = .s) →
      (s.me.tie &&& s.me.tip &&& 0x1E#64 ≠ 0 ∨ (s.me.wdDue = true ∧ s.me.held = false)) →
      ∃ t, exec .wfi s = .next t ∧ Local s t 4 ∧ SameX s t ∧ SameC s t ∧ SameV s t ∧ SameM s t ∧ SameF s t) ∧
    (s.me.occ ≠ .codelet → (s.me.mode = .u ∨ s.me.mode = .s) → s.me.tie &&& s.me.tip &&& 0x1E#64 = 0 → s.me.wdDue = false →
      ∃ t, exec .wfi s = .next t ∧ OnlyMe s t ∧
        t.me = { s.me with hold := some ⟨.wfi, none, s.tick⟩, nextAt := s.cycle + 8, lastIssue := s.cycle, noTrig := false }) ∧
    (s.me.mode = .d → s.me.recs = [] → s.me.dHold = none →
      ∃ t, exec .dret s = .next t ∧ OnlyMe s t ∧ SameMem s t ∧ t.me.pc = s.me.dpc ∧ t.me.halted = false ∧
      t.me.mode = (if s.me.dcsr.toNat % 4 = 1 then .s else .u) ∧ t.me.x = s.me.x ∧ t.me.c = s.me.c ∧ t.me.c15s = s.me.c15s ∧
      t.me.v = s.me.v ∧ t.me.m = s.me.m)

/-- 03 R74: ECALL and EBREAK take their traps at the instruction itself. 03 R74, R75; 13 R339: the modes in which the system
instructions are legal; elsewhere they raise MODE, and WFI in a codelet ILLEGAL. 03 R75, R78, 13 R336: TRET resumes at trpc in the
mode of pmode with ie from pie and held clear; the repeat of rptc goes on where act is set, but for a repeat of the handler
itself, which TRET ends. 03 R74, R62: WFI goes on when an enabled interrupt is pending, or WATCHDOG is due and no trap is being
handled, and parks otherwise; DRET leaves D mode at dpc in the mode of prv. -/
def Obligations.SystemInstructions : Prop := SystemCalls ∧ SystemModes ∧ TrapReturn ∧ WaitAndDebugReturn


/-- 03 R76, R78: rpt with a count of 1 or more opens a repeat of its n instructions that starts after it; with a count of 0 the n
instructions after it are passed over, and the rptc of a suspended repeat becomes 0 (log 91); inside a body it is ILLEGAL. -/
def Sys2Proof.Claim.Repeats : Prop :=
  ∀ (s : State) (n b : Nat), 1 ≤ n → n ≤ 31 →
    (s.me.rptLive = true → exec (.rpt n b) s = .next (s.raise cILLEGAL ((encode (.rpt n b)).getD 0))) ∧
    (s.me.rptLive = false → s.xn b = 0 →
      ∃ t, exec (.rpt n b) s = .next t ∧ OnlyMe s t ∧ SameMem s t ∧ Advanced s t 4 ∧ t.me.skip = n ∧ t.me.rptLive = false ∧
        t.me.rptc = (if tbit s.me.rptc.toNat 47 then 0 else s.me.rptc) ∧
        SameX s t ∧ SameC s t ∧ SameV s t ∧ SameM s t ∧ SameF s t) ∧
    (s.me.rptLive = false → s.xn b ≠ 0 → s.me.pc.toNat + 4 < 2 ^ 16 →
      ∃ t, exec (.rpt n b) s = .next t ∧ OnlyMe s t ∧ t.me.pc = s.me.pc + 4 ∧ t.me.rptLive = true ∧
        bits t.me.rptc.toNat 0 32 = min (s.xn b) 0xFFFFFFFF - 1 ∧ bits t.me.rptc.toNat 32 5 = 0 ∧ bits t.me.rptc.toNat 40 5 = n - 1 ∧
        tbit t.me.rptc.toNat 47 = true ∧ bits t.me.rptc.toNat 48 16 = s.me.pc.toNat + 4 ∧ SameX s t ∧ SameC s t ∧ SameV s t ∧
        SameM s t ∧ SameF s t ∧ t.me.instret = s.me.instret + 1)

/-- 03 R76: while instructions are to be passed over, the one at the pc takes its issue, writes nothing and is not counted: the pc moves
past its bytes and one fewer is left. -/
def Sys2Proof.Claim.PassedOver : Prop :=
  ∀ (s : State) (w len : Nat), s.me.skip ≠ 0 → s.me.mode ≠ .d → (w % 4 ≠ 3 ∨ bits w 2 3 ≠ 7) → s.trigger s.cur none = none →
    s.me.hold = none →
    ∃ t, s.runWord w len = .next t ∧ t.cur = s.cur ∧ t.me.pc = s.me.pc + BitVec.ofNat 64 len ∧ t.me.skip = s.me.skip - 1 ∧
      t.me.instret = s.me.instret ∧ t.me.nextAt = s.cycle + 8 ∧ SameMem s t ∧ SameX s t ∧ SameC s t ∧ SameV s t ∧ SameM s t ∧ SameF s t

/-- 03 R77: the repeat's accounting: after the last instruction of the body the pc goes back to its start while iterations are left, and
falls through with active clear after the last iteration. -/
def Sys2Proof.Claim.RepeatSteps : Prop :=
  ∀ (t : Slot) (len : Nat), t.rptLive = true → bits t.rptc.toNat 32 5 ≤ bits t.rptc.toNat 40 5 →
    (bits t.rptc.toNat 32 5 < bits t.rptc.toNat 40 5 → (t.advance len).pc = t.pc + BitVec.ofNat 64 len ∧
      bits (t.advance len).rptc.toNat 32 5 = bits t.rptc.toNat 32 5 + 1 ∧ (t.advance len).rptLive = true) ∧
    (bits t.rptc.toNat 32 5 = bits t.rptc.toNat 40 5 → bits t.rptc.toNat 0 32 ≠ 0 →
      (t.advance len).pc = BitVec.ofNat 64 (bits t.rptc.toNat 48 16) ∧ bits (t.advance len).rptc.toNat 0 32 = bits t.rptc.toNat 0 32 - 1 ∧
      bits (t.advance len).rptc.toNat 32 5 = 0 ∧ (t.advance len).rptLive = true) ∧
    (bits t.rptc.toNat 32 5 = bits t.rptc.toNat 40 5 → bits t.rptc.toNat 0 32 = 0 →
      (t.advance len).pc = t.pc + BitVec.ofNat 64 len ∧ tbit (t.advance len).rptc.toNat 47 = false ∧ (t.advance len).rptLive = false)

/-- 03 R79, R78: jseg ends a live repeat and goes to the overlay address of the lowest slot that holds the segment, and leaves in x[d] the segment address of the
next instruction; PC_RANGE above 21 bits, SEG_ABSENT for a segment that is not loaded. -/
def Sys2Proof.Claim.SegmentJumps : Prop :=
  ∀ (s : State) (a d : Nat),
    (2 ^ 21 ≤ s.xn a → exec (.jseg a d) s = .next (s.raise cPC_RANGE (s.xn a))) ∧
    (s.xn a < 2 ^ 21 → (∀ k, k < 8 → let o := sget {} (s.tile s.gta).ov k
        ¬(o.valid = true ∧ o.landed = true ∧ o.seg = s.xn a / 8192)) →
      exec (.jseg a d) s = .next (s.raise cSEG_ABSENT (s.xn a))) ∧
    (∀ k, s.xn a < 2 ^ 21 → k < 8 → (let o := sget {} (s.tile s.gta).ov k
        o.valid = true ∧ o.landed = true ∧ o.seg = s.xn a / 8192) →
      (∀ j, j < k → let o := sget {} (s.tile s.gta).ov j
        ¬(o.valid = true ∧ o.landed = true ∧ o.seg = s.xn a / 8192)) →
      ∃ t, exec (.jseg a d) s = .next t ∧ OnlyMe s t ∧ SameMem s t ∧ SameC s t ∧ SameV s t ∧ SameM s t ∧ SameF s t ∧
        SameSpecials s t ∧ EndsRepeat s t ∧ t.me.instret = s.me.instret + 1 ∧
        t.me.pc = BitVec.ofNat 64 (k * 8192 + s.xn a % 8192 / 2 * 2) ∧
        WroteX s t d (BitVec.ofNat 64 ((sget {} (s.tile s.gta).ov (s.me.pc.toNat / 8192)).seg * 8192 +
          (s.me.pc.toNat + 4 - s.me.pc.toNat / 8192 * 8192))))

/-- 03 R76, R78: rpt with a count of 1 or more opens a repeat of its n instructions that starts after it; with a count of 0 the n
instructions after it are passed over, and the rptc of a suspended repeat becomes 0 (log 91); inside a body it is ILLEGAL. 03 R76:
while instructions are to be passed over, the one at the pc takes its issue, writes nothing and is not counted: the pc moves past
its bytes and one fewer is left. 03 R77: the repeat's accounting: after the last instruction of the body the pc goes back to its
start while iterations are left, and falls through with active clear after the last iteration. 03 R79, R78: jseg ends a live
repeat and goes to the overlay address of the lowest slot that holds the segment, and leaves in x[d] the segment address of the
next instruction; PC_RANGE above 21 bits, SEG_ABSENT for a segment that is not loaded. -/
def Obligations.RepeatsAndSegments : Prop := Repeats ∧ PassedOver ∧ RepeatSteps ∧ SegmentJumps


/-- A barrier arrival is free to count: earlier synchronising operations and commands of the strand are complete (12 R317). -/
def Sys2Proof.Claim.ReleaseDone (s : State) : Prop := s.amoBusy s.cur = false ∧ s.syncBusy s.cur = false ∧ s.cmdsLive s.cur = false
/-- No bar.arr is parked at its pc. -/
def Sys2Proof.Claim.NoParkedArrival (s : State) : Prop := ∀ p ∈ s.slots, ∀ x d l q, p.2.hold ≠ some ⟨.barLead x d, l, q⟩
/-- 12 R316 to R319: an arrival at most three phases ahead counts in its phase, with the member count of the operand or, for 0, of the
run, and gives the token with its lead; one further ahead parks, bounded by wlim, and one behind is refused with ENGINE 49, as is one
with another member count; a wait for a phase that is over answers 0, for one that has no arrival 2, and else waits. -/
def Sys2Proof.Claim.Barriers : Prop :=
  ∀ (s : State) (la a b d key dflt : Nat), s.me.occ ≠ .codelet → s.barOf s.gta (bits (s.xn a) 48 16) = some (key, dflt) →
    let br := s.bar key
    let ahead := br.ahead (bits (s.xn a) 0 32)
    let n := if bits (s.xn a) 32 14 = 0 then dflt else bits (s.xn a) 32 14
    (ReleaseDone s → NoParkedArrival s → ∀ b', ahead < 4 → br.arrive ahead n = some b' →
      ∃ t, exec (.barArr a d) s = .next t ∧ t.bar key = b' ∧ SameMem s t ∧ Advanced s t 4 ∧
        WroteX s t d (BitVec.ofNat 64 (setBits (s.xn a) 46 2 ahead))) ∧
    (ReleaseDone s → 4 ≤ ahead → ahead < 2 ^ 31 →
      ∃ t, exec (.barArr a d) s = .next t ∧ OnlyMe s t ∧ SameX s t ∧ t.me.pc = s.me.pc ∧
        t.me.hold = some ⟨.barLead (s.xn a) d, if s.me.wlim = 0 then none else some s.me.wlim.toNat, s.tick⟩) ∧
    (ReleaseDone s → 2 ^ 31 ≤ ahead ∨ (ahead < 4 ∧ br.arrive ahead n = none) →
      exec (.barArr a d) s = .next (s.raise cENGINE 49)) ∧
    (s.me.wins.length < 4 → 2 ^ 31 ≤ ahead →
      ∃ t, exec (.barWait la a b d) s = .next t ∧ Pending s t ∧ Opened s t la (.barWait la a b d) (.done { xs := [(d, 0)], acquire := true })) ∧
    (s.me.wins.length < 4 → ahead < 4 → (br.ph.getD ahead (0, 0)).2 = 0 →
      ∃ t, exec (.barWait la a b d) s = .next t ∧ Pending s t ∧ Opened s t la (.barWait la a b d) (.done { xs := [(d, 2)] })) ∧
    (s.me.wins.length < 4 → ahead < 4 → (br.ph.getD ahead (0, 0)).2 ≠ 0 →
      ∃ t, exec (.barWait la a b d) s = .next t ∧ Pending s t ∧
        Opened s t la (.barWait la a b d) (.wait (.bar (s.xn a) d)))
/-- 12 R316, R317: the first arrival of a phase fixes its member count; one that is not the last leaves the phase open with one more; the last one completes it; one with another member
count is refused. -/
def Sys2Proof.Claim.BarrierPhases : Prop :=
  ∀ (k n : Nat), 2 ≤ n → k < 2 ^ 32 →
    (Bar.arrive { k := k } 0 n = some { k := k, ph := [(n, 1), (0, 0), (0, 0), (0, 0)] }) ∧
    (∀ c, c + 1 < n → 0 < c → (Bar.arrive { k := k, ph := [(n, c), (0, 0), (0, 0), (0, 0)] } 0 n) =
      some { k := k, ph := [(n, c + 1), (0, 0), (0, 0), (0, 0)] }) ∧
    (Bar.arrive { k := k, ph := [(n, n - 1), (0, 0), (0, 0), (0, 0)] } 0 n = some { k := (k + 1) % 2 ^ 32, ph := [] }) ∧
    (∀ m, m ≠ n → Bar.arrive { k := k, ph := [(n, 1), (0, 0), (0, 0), (0, 0)] } 0 m = none)

/-- 12 R316 to R319: an arrival at most three phases ahead counts in its phase, with the member count of the operand or, for 0, of
the run, and gives the token with its lead; one further ahead parks, bounded by wlim, and one behind is refused with ENGINE 49, as
is one with another member count; a wait for a phase that is over answers 0, for one that has no arrival 2, and else waits. 12
R316, R317: the first arrival of a phase fixes its member count; one that is not the last leaves the phase open with one more; the
last one completes it; one with another member count is refused. -/
def Obligations.BarrierArrivals : Prop := Barriers ∧ BarrierPhases


/-! ### Engine commands: their issue, and the matrix engine -/

/-- An engine command over the objects `os` is accepted at once: a window and a queue entry are free, no self-test holds the engine, and
no full/empty operation of the strand on an operand is open (01 R15, 05 R128, 17 R402). -/
def Sys2Proof.Claim.EngineFree (s : State) (mx : Bool) (os : List Nat) : Prop :=
  RoomForWindow s ∧ s.me.restartable = false ∧ (s.queued mx s.gta).length < 2 ∧ (mx = true → s.mxTested s.gta = false) ∧ ∀ o ∈ os, s.me.wins.any (Win.feOn o) = false
/-- A capability of an engine command: not null, every right of `need`, at least `size` bytes, the port admitted, the base aligned
(09 R240). -/
def Sys2Proof.Claim.EngineCap (c : Cap) (need : List Nat) (size : Nat) (port : Bool) (align : Nat) : Prop :=
  c ≠ .null ∧ need.all c.has = true ∧ size ≤ c.l ∧ port = true ∧ c.b % align = 0
/-- The command is the last of its engine's list, with its operands as captured, and its window waits for it; nothing else of the strand
and no byte of memory changes. -/
def Sys2Proof.Claim.Accepted (i : Instr) (s : State) (la : Nat) (mx : Bool) (op : CmdOp) (st : WinSt) : Prop :=
  ∃ t c, exec i s = .next t ∧ Pending s t ∧ Opened s t la i st ∧ SameMem s t ∧ (∀ k, k ≠ s.cur → t.slot k = s.slot k) ∧
    t.cmds = s.cmds ++ [c] ∧ t.nextId = s.nextId + 1 ∧ c.id = s.nextId ∧ c.key = s.cur ∧ c.win = s.me.nextWid ∧ c.g = s.gta ∧
    c.lkey = s.me.lkey ∧ c.mx = mx ∧ c.running = false ∧ c.op = op
/-- mxcfg of the executing strand. -/
def Sys2Proof.Claim.cfg (s : State) : Nat := s.me.mxcfg.toNat

/-- 09 R240 to R245, R248, R249: each matrix command with operands that pass its checks joins the queue and opens its window; mx.wait
opens a window that waits for the commands accepted before it, with la = 0 when the strand has none outstanding. -/
def Obligations.MatrixIssue : Prop :=
  ∀ (s : State) (la a b d imm : Nat), EngineFree s true [(s.c a).o, (s.c b).o, (s.c d).o] →
    (clsB (cfgB (cfg s)) ≠ 3 → imm + blkSlots (cfgB (cfg s)) ≤ 8 →
      EngineCap (s.c a) [rR] (64 + blkBody (cfgB (cfg s))) (oidPort (s.c a).o ≤ 68) 64 →
      Accepted (.mxWld la a imm) s la true (.wld (s.c a) imm (cfgB (cfg s))) (.wait (.cmd s.nextId))) ∧
    (pairOk (cfg s) = true → cfgW (cfg s) + cfgN (cfg s) * blkSlots (cfgB (cfg s)) ≤ 8 →
      EngineCap (s.c d) [rR, rW] 16384 (isOwn s.gta (s.c d).o) 16384 →
      EngineCap (s.c a) [rR] (64 * (16 * cfgN (cfg s) * fmtBits (cfgA (cfg s)))) (isSram (s.c a).o) 64 →
      (clsA (cfgA (cfg s)) = 1 ∨ (clsA (cfgA (cfg s)) = 2 ∧ b ≠ 0) →
        EngineCap (s.c b) [rR] (if clsA (cfgA (cfg s)) = 1 then 256 * cfgN (cfg s) else 256) (isSram (s.c b).o) 4) →
      Accepted (.mxMma la a b d) s la true (.mma (s.c d) (s.c a)
        (if clsA (cfgA (cfg s)) = 1 ∨ (clsA (cfgA (cfg s)) = 2 ∧ b ≠ 0) then s.c b else .null) (cfg s)) (.wait (.cmd s.nextId))) ∧
    (EngineCap (s.c d) [rW] 16384 (isOwn s.gta (s.c d).o) 16384 →
      Accepted (.mxZero la d) s la true (.zero (s.c d)) (.wait (.cmd s.nextId))) ∧
    (outOk (cfgO (cfg s)) = true → EngineCap (s.c a) [rR] 16384 (isOwn s.gta (s.c a).o) 16384 →
      EngineCap (s.c d) [rW] (64 * (8 * fmtBits (cfgO (cfg s)))) (oidPort (s.c d).o ≤ 68) 64 →
      Accepted (.mxSt la a d) s la true (.st (s.c d) (s.c a) (cfg s)) (.wait (.cmd s.nextId))) ∧
    (EngineCap (s.c a) [rR, rW] 1 (isOwn s.gta (s.c a).o) 64 → (s.c a).l ≤ 65536 → (s.c a).l % 64 = 0 →
      Accepted (.mxSwap la a b) s la true (.swap (s.c a) (s.xn b % 65536) none) (.wait .swap)) ∧
    (EngineCap (s.c a) [rR] 0 (isSram (s.c a).o) 1 → EngineCap (s.c d) [rW] 0 (isOwn s.gta (s.c d).o) 1 →
      EngineCap (s.c b) [rR] 64 true 8 →
      Accepted (.mxAfl la a b d) s la true (.afl (s.c d) (s.c a) (s.c b) []) (.wait (.cmd s.nextId))) ∧
    (∃ t, exec (.mxWait la d) s = .next t ∧ Pending s t ∧ OnlyMe s t ∧ SameMem s t ∧
      Opened s t (if s.cmds.any (fun c => c.key == s.cur && c.mx) then la else 0) (.mxWait la d)
        (.wait (.mxIdle s.nextId d s.me.mflags)) ∧ t.me.mflags = 0)

/-- The pairs (afmt, bfmt) of one class (09 R224). -/
def Sys2Proof.Claim.admitted (fa fb : Nat) : Bool :=
  (decide (4 ≤ fa ∧ fa < 10) && (decide (4 ≤ fb ∧ fb < 10) || fb == 16 || fb == 17 || fb == 19)) ||
    (decide (10 ≤ fa ∧ fa < 16) && (decide (10 ≤ fb ∧ fb < 16) || fb == 18)) || decide (fa < 4 ∧ fb < 4)
/-- The last weight slot that a command with mxcfg v uses, plus 1 (09 R227). -/
def Sys2Proof.Claim.lastSlot (v : Nat) : Nat := bits v 22 3 + (bits v 19 3 + 1) * blkSlots (bits v 5 5)
/-- mx.cfg answers r: x[d] := r, mxcfg := x[a] where r is 0, and nothing else changes. -/
def Sys2Proof.Claim.Configures (s : State) (a d r : Nat) : Prop :=
  ∃ t, exec (.mxCfg a d) s = .next t ∧ OnlyMe s t ∧ SameMem s t ∧ Advanced s t 4 ∧ WroteX s t d (BitVec.ofNat 64 r) ∧ SameC s t ∧
    SameV s t ∧ SameM s t ∧ SameF s t ∧ t.me.mxcfg = if r = 0 then s.x a else s.me.mxcfg
/-- The unit `u` of tile `g` is busy: from the start of a command until the end of the cycle in which it completes (09 R232). -/
def Sys2Proof.Claim.UnitBusy (s : State) (g u : Nat) : Bool :=
  (s.cmds.any fun c => c.g == g && c.mx && c.running && c.op.unit == u) || decide (s.cycle < sget 0 (s.tile g).mxFree u)
/-- 09 R241: mx.cfg installs an admitted value and answers 0, and else answers the first reason: 5 for a reserved bit, 4 for a rounding
mode of 5 to 7, 1 for a pair, 2 for an output format, 3 for slots beyond the eighth. 09 R247: mx.stat reads its fact into x[d]: the units
and the queue, the strand's commands that have not completed, its pending error, the slots' valid and busy bits, a slot, the scale latch.
What a slot shows while it is invalid or loading is the model's choice (log 101). -/
def Sys2Proof.Claim.MatrixConfig : Prop :=
  (∀ (s : State) (a d : Nat),
    let v := s.xn a
    (2 ^ 25 ≤ v → Configures s a d 5) ∧
    (v < 2 ^ 25 → 5 ≤ bits v 15 3 → Configures s a d 4) ∧
    (v < 2 ^ 25 → bits v 15 3 < 5 → admitted (bits v 0 5) (bits v 5 5) = false → Configures s a d 1) ∧
    (v < 2 ^ 25 → bits v 15 3 < 5 → admitted (bits v 0 5) (bits v 5 5) = true → 16 ≤ bits v 10 5 → bits v 10 5 ≠ 22 → Configures s a d 2) ∧
    (v < 2 ^ 25 → bits v 15 3 < 5 → admitted (bits v 0 5) (bits v 5 5) = true → bits v 10 5 < 16 ∨ bits v 10 5 = 22 →
      (8 < lastSlot v → Configures s a d 3) ∧ (lastSlot v ≤ 8 → Configures s a d 0))) ∧
  ∀ (s : State) (d : Nat),
    Gives (.mxStat 0 d) s d (BitVec.ofNat 64 (
      (if UnitBusy s s.gta 0 then 1 else 0) + (if UnitBusy s s.gta 1 then 2 else 0) +
      4 * s.cmds.countP fun c => c.g == s.gta && c.mx && !c.running)) ∧
    Gives (.mxStat 1 d) s d (BitVec.ofNat 64 (s.cmds.countP fun c => c.key == s.cur && c.mx)) ∧
    Gives (.mxStat 2 d) s d (BitVec.ofNat 64 s.me.merr) ∧
    (∃ v, v < 2 ^ 16 ∧ Gives (.mxStat 3 d) s d (BitVec.ofNat 64 v) ∧
      ∀ k, k < 8 → tbit v k = ((s.tile s.gta).ws k).valid ∧ tbit v (8 + k) = ((s.tile s.gta).ws k).busy) ∧
    (∀ k, k < 8 → let w := (s.tile s.gta).ws k
      Gives (.mxStat (4 + k) d) s d (BitVec.ofNat 64 (w.fmt + 2 ^ 5 * w.lead + 2 ^ 32 * w.scale))) ∧
    Gives (.mxStat 12 d) s d (BitVec.ofNat 64 (s.tile s.gta).latchCol)

/-- The command is no mx.swap, which starts by pairing. -/
def Sys2Proof.Claim.NoSwap (c : Cmd) : Prop := ∀ cp tag data, c.op ≠ .swap cp tag data
/-- Every open window of strand `key` with that number has failed with the fault f. -/
def Sys2Proof.Claim.WindowFails (s t : State) (key win : Nat) (f : Nat × Nat) : Prop :=
  ∀ w ∈ (s.slot key).wins, w.id = win → ∃ w' ∈ (t.slot key).wins, w'.id = w.id ∧ w'.st = .fail f.1 f.2
/-- 09 R232 to R234, R238: the head of a tile's queue that is ready and passes its checks runs for its cycles; one that fails leaves the
queue with its window failed, and writes no memory. No window of the strand holds a full/empty operation back. An mx.swap starts by
pairing. -/
def Sys2Proof.Claim.MatrixStart : Prop :=
  ∀ (s : State) (g : Nat) (c : Cmd), s.mxHead g = some c → s.mxReady c = true → NoSwap c →
    (∀ lay, s.mxPortChk c = .ok () → s.mxHere c = true → s.mxEngineChk c = .ok lay →
      ∃ t, exec (.matrixCommandStart g) s = .next t ∧ SameMem s t ∧
        ∃ c' ∈ t.cmds, c'.id = c.id ∧ c'.running = true ∧ c'.doneAt = s.cycle + s.mxCycles c lay ∧ c'.key = c.key ∧
          c'.op = c.op.withLayout lay) ∧
    (∀ f, (s.slot c.key).wins.any Win.feWait = false → s.mxPortChk c = .error f ∨ (s.mxPortChk c = .ok () ∧ s.mxHere c = true ∧ s.mxEngineChk c = .error f) →
      ∃ t, exec (.matrixCommandStart g) s = .next t ∧ (∀ x ∈ t.cmds, x.id ≠ c.id) ∧ SameMem s t ∧ WindowFails s t c.key c.win f)

/-- 09 R227, R242, R243: what a start does to the engine's own state: an mx.wld makes its slots busy, with format and lead, and every slot
of a block that overlaps them invalid; the other slots stay; an integer mx.mma sets the scale latch to its row scales, 1.0 without a
record, and the scale of its first block. -/
def Sys2Proof.Claim.MatrixStartEffects : Prop :=
  ∀ (s : State) (g : Nat) (c : Cmd) (lay : List Nat), s.mxHead g = some c → s.mxReady c = true →
    s.mxPortChk c = .ok () → s.mxHere c = true → s.mxEngineChk c = .ok lay →
    (∀ cp k f, c.op = .wld cp k f → ∃ t, exec (.matrixCommandStart g) s = .next t ∧ ∀ j, j < 8 →
      let old := (s.tile g).ws j
      let new := (t.tile g).ws j
      if k ≤ j ∧ j < k + blkSlots f then new = { busy := true, fmt := f, lead := k }
      else if (old.valid = true ∨ old.busy = true) ∧ old.lead < k + blkSlots f ∧ k < old.lead + blkSlots old.fmt then new = {}
      else new = old) ∧
    (∀ cd ca cb v, c.op = .mma cd ca cb v → clsA (cfgA v) = 2 → ∃ t, exec (.matrixCommandStart g) s = .next t ∧
      (t.tile g).latchCol = ((s.tile g).ws (cfgW v)).scale ∧
      ∀ i, i < 64 → sget 0x3F800000 (t.tile g).latchRow i = if cb = .null then 0x3F800000 else (s.opWords cb 64).getD i 0)

/-- What a command that completes leaves besides its result: its flags in fmode of its strand; and it has left the engine. -/
def Sys2Proof.Claim.Completes (g u : Nat) (c : Cmd) (fl : Nat) (s t : State) : Prop :=
  exec (.matrixCommandComplete g u) s = .next t ∧ (t.slot c.key).fmode = (s.slot c.key).fmode ||| BitVec.ofNat 64 fl ∧
    ∀ x ∈ t.cmds, x.id ≠ c.id
/-- 09 R234, R242: a command that completes writes the bytes of its result, into SRAM or, for a destination at port 68 without an extent
map, into HBM under its object's key tag, and no other byte; mx.wld writes the body of its block into the weight slots, which become
valid with the block's format, lead and scale; the other slots stay. No window of the strand holds a full/empty operation back
(05 R128). -/
def Sys2Proof.Claim.MatrixCompletion : Prop :=
  ∀ (s : State) (g u : Nat) (c : Cmd), s.onUnit g u = some c → c.doneAt ≤ s.cycle → s.mxClean c = true →
    (s.slot c.key).wins.any Win.feWait = false →
    (∀ cp bs fl, s.mxResult c = (some (cp, bs), fl) → ∃ t, Completes g u c fl s t ∧
      (isSram cp.o = true → let a := flat (oidSp cp.o) ((s.entry cp.o).base + cp.b)
        mbytes t.mem a bs.length = bs ∧ ∀ x, x < a ∨ a + bs.length ≤ x → mget t.mem x = mget s.mem x) ∧
      (isSram cp.o = false → (s.entry cp.o).ext = false → (s.entry cp.o).base + cp.b + bs.length ≤ 2 ^ 40 →
        let a := (s.entry cp.o).base + cp.b
        let tag := s.tagOf (s.entry cp.o)
        t.secBytes (oidSp cp.o) tag a bs.length = bs ∧
        (∀ x, x < 2 ^ 40 → x < a ∨ a + bs.length ≤ x → t.secByte (oidSp cp.o) tag x = s.secByte (oidSp cp.o) tag x) ∧
        ∀ x, x / 2 ^ 48 ≠ spL2 (oidSp cp.o) → mget t.mem x = mget s.mem x)) ∧
    (∀ cp k f, c.op = .wld cp k f → ∃ t, Completes g u c 0 s t ∧
      (let a := flat (spWeight g) (k * 8192)
       let image := s.opBytes cp (64 + blkBody f)
       mbytes t.mem a (blkBody f) = image.drop 64 ∧ (∀ x, x < a ∨ a + blkBody f ≤ x → mget t.mem x = mget s.mem x) ∧
       ∀ j, (t.tile g).ws j = if k ≤ j ∧ j < k + blkSlots f then { valid := true, fmt := f, lead := k, scale := ofBytes (image.take 4) }
         else (s.tile g).ws j))

/-- 09 R232 to R234, R238: the head of a tile's queue that is ready and passes its checks runs for its cycles; one that fails
leaves the queue with its window failed, and writes no memory. No window of the strand holds a full/empty operation back. An
mx.swap starts by pairing. 09 R227, R242, R243: what a start does to the engine's own state: an mx.wld makes its slots busy, with
format and lead, and every slot of a block that overlaps them invalid; the other slots stay; an integer mx.mma sets the scale
latch to its row scales, 1.0 without a record, and the scale of its first block. 09 R234, R242: a command that completes writes
the bytes of its result, into SRAM or, for a destination at port 68 without an extent map, into HBM under its object's key tag,
and no other byte; mx.wld writes the body of its block into the weight slots, which become valid with the block's format, lead and
scale; the other slots stay. No window of the strand holds a full/empty operation back (05 R128). -/
def Obligations.MatrixProgress : Prop := MatrixStart ∧ MatrixStartEffects ∧ MatrixCompletion


/-- Element n of mx.st: the word of the accumulator tile, an INT32 word times its row scale and the column scale of the latch where both
formats are integer, rounded once to the output format; and its flags (09 R245). -/
def Sys2Proof.Claim.stElement (s : State) (g : Nat) (ca : Cap) (v n : Nat) : Nat × Nat :=
  let w := (s.opWords ca 4096).getD n 0
  let latch := s.tile g
  let x := if clsA (cfgA v) = 2 ∧ clsB (cfgB v) = 2 then
      let y := vmul (Val.ofInt (signed 32 w)) (readFmt 0 (sget 0x3F800000 latch.latchRow (n / 64))).1
      let z := vmul y.1 (readFmt 0 latch.latchCol).1
      (z.1, y.2 ||| z.2)
    else ((readFmt 0 w).1, if (readFmt 0 w).1.isSig then fNV else 0)
  let r := roundFmt (cfgO v) x.1 (cfgRm v) (cfgSat v)
  (r.1, x.2 ||| r.2)
/-- 09 R243 to R245, R248, R249: what the commands write: mx.zero zeros over the accumulator tile; mx.mma the 4,096 words of C, each after
the blocks in order, with the rows of A (R228), the blocks and scales of the weight slots (R226, R227) and the row scales (R229); mx.st
the elements of the tile in the output format; mx.swap the partner's bytes; mx.afl the elements of its source in gather order. -/
def Sys2Proof.Claim.MatrixResults : Prop :=
  ∀ (s : State) (c : Cmd),
    (∀ cd, c.op = .zero cd → s.mxResult c = (some (cd, List.replicate 16384 0), 0)) ∧
    (∀ cd ca cb v, c.op = .mma cd ca cb v → ∃ q : MmaIn,
      let el (x : Nat) : Nat × Nat := mmaEl v q (x / 64) (x % 64) (cfgN v) 0 (q.cs.getD x 0)
      s.mxResult c = (some (cd, elBytes 32 ((List.range 4096).map fun x => (el x).1)), orFlags ((List.range 4096).map el)) ∧
      q.cs = s.opWords cd 4096 ∧
      (let rb := 16 * cfgN v * fmtBits (cfgA v)
       ∀ i, i < 64 → q.rows.getD i 0 = ofBytes (((s.opBytes ca (64 * rb)).drop (i * rb)).take rb)) ∧
      (∀ t, t < cfgN v → q.blks.getD t 0 =
          mnat s.mem (flat (spWeight c.g) ((cfgW v + t * blkSlots (cfgB v)) * 8192)) (blkBody (cfgB v)) ∧
        q.sB.getD t 0 = ((s.tile c.g).ws (cfgW v + t * blkSlots (cfgB v))).scale ∧
        ∀ i, i < 64 → cb ≠ .null → q.sA.getD (t * 64 + i) 0 = (s.opWords cb (64 * cfgN v)).getD (t * 64 + i) 0)) ∧
    (∀ cd ca v, c.op = .st cd ca v → s.mxResult c =
      (some (cd, elBytes (fmtBits (cfgO v)) ((List.range 4096).map fun n => (stElement s c.g ca v n).1)),
        orFlags ((List.range 4096).map (stElement s c.g ca v)))) ∧
    (∀ cp tag bs, c.op = .swap cp tag (some bs) → s.mxResult c = (some (cp, bs), 0)) ∧
    (∀ (cd ca cb : Cap) (t0 t1 t2 t3 n0 n1 n2 n3 e : Nat), c.op = .afl cd ca cb [t0, t1, t2, t3, n0, n1, n2, n3, e] →
      ∃ bs, s.mxResult c = (some (cd, bs), 0) ∧ bs.length = n0 * n1 * n2 * n3 * e ∧
        ∀ i0 i1 i2 i3, i0 < n0 → i1 < n1 → i2 < n2 → i3 < n3 →
          (bs.drop ((((i3 * n2 + i2) * n1 + i1) * n0 + i0) * e)).take e = s.readObj ca.o (s.entry ca.o)
            ((ca.b : Int) + i0 * signed 64 t0 + i1 * signed 64 t1 + i2 * signed 64 t2 + i3 * signed 64 t3).toNat e)

/-- 07 R189: the integer class adds exact products and saturates to 32 bits: without overflow C becomes C plus the sum. -/
def Sys2Proof.Claim.IntegerBlock : Prop :=
  ∀ (as bs : List (Val × Nat)) (c : Nat), c < 2 ^ 32 →
    (let t := signed 32 c + ((as.zip bs).map fun p => p.1.1.toInt * p.2.1.toInt).sum
     (-2147483648 ≤ t → t ≤ 2147483647 → signed 32 (intStep as bs c).1 = t) ∧
     (2147483647 < t → signed 32 (intStep as bs c).1 = 2147483647 ∧ (intStep as bs c).2 &&& fSAT = fSAT) ∧
     (t < -2147483648 → signed 32 (intStep as bs c).1 = -2147483648 ∧ (intStep as bs c).2 &&& fSAT = fSAT))

/-- 09 R243 to R245, R248, R249: what the commands write: mx.zero zeros over the accumulator tile; mx.mma the 4,096 words of C,
each after the blocks in order, with the rows of A (R228), the blocks and scales of the weight slots (R226, R227) and the row
scales (R229); mx.st the elements of the tile in the output format; mx.swap the partner's bytes; mx.afl the elements of its source
in gather order. 07 R189: the integer class adds exact products and saturates to 32 bits: without overflow C becomes C plus the
sum. -/
def Obligations.MatrixArithmetic : Prop := MatrixResults ∧ IntegerBlock


/-- Bytes [A, A + bs.length) of memory hold, unit by unit of `u` bytes, their old bytes or those of `bs` (09 R233). -/
def Sys2Proof.Claim.OldOrNew (s t : State) (A u : Nat) (bs : List Byte) : Prop :=
  ∀ i, i * u + u ≤ bs.length → (∀ j, j < u → mget t.mem (A + i * u + j) = mget s.mem (A + i * u + j)) ∨
    ∀ j, j < u → mget t.mem (A + i * u + j) = bs.getD (i * u + j) 0
/-- 09 R233: an error of a running command becomes the strand's pending matrix error, code 5 for an uncorrectable error and 8 for a result
write into bytes that hold capabilities or live descriptors, unless one is pending already; each 32-bit element of an accumulator, or byte
of another destination, is then the old or the new one, bytes that a mark protects are the old ones, and no other byte of memory changes;
which elements are new is a free value (log 72). 09 R248: swaps that pair start on both tiles with each other's bytes; unequal lengths fail both with ENGINE 6; one that
fails its port checks leaves while its partner stays unpaired (log 101); on the diagonal a swap completes at once. No start of a swap
changes memory. No window of a strand holds a full/empty operation back. -/
def Sys2Proof.Claim.MatrixErrorsAndSwaps : Prop :=
  (∀ (s : State) (g u : Nat) (c : Cmd), s.onUnit g u = some c → s.mxBad c = true →
    ∃ t, exec (.matrixCommandError g u) s = .next t ∧
      (t.slot c.key).merr = (if (s.slot c.key).merr = 0 then 5 else (s.slot c.key).merr) ∧ ∀ x ∈ t.cmds, x.id ≠ c.id) ∧
  (∀ (s : State) (g u : Nat) (c : Cmd) (cp : Cap) (bs : List Byte), s.onUnit g u = some c → s.mxBad c = false →
    (s.mxResult c).1 = some (cp, bs) → (s.refusedWrite cp.o (s.entry cp.o) cp.b bs.length).isSome = true →
    ∃ t, exec (.matrixCommandError g u) s = .next t ∧
      (t.slot c.key).merr = (if (s.slot c.key).merr = 0 then 8 else (s.slot c.key).merr) ∧ ∀ x ∈ t.cmds, x.id ≠ c.id) ∧
  (∀ (s : State) (g u : Nat) (c : Cmd), s.onUnit g u = some c → (s.slot c.key).wins.any Win.feWait = false →
    ((s.mxResult c).1 = none → ∃ t, exec (.matrixCommandError g u) s = .next t ∧ SameMem s t) ∧
    (∀ cp bs, (s.mxResult c).1 = some (cp, bs) → isSram cp.o = true → (s.entry cp.o).valid = true → (s.entry cp.o).gen = cp.g →
      let A := flat (oidSp cp.o) ((s.entry cp.o).base + cp.b)
      ∃ t, exec (.matrixCommandError g u) s = .next t ∧ (∀ a, a < A ∨ A + bs.length ≤ a → mget t.mem a = mget s.mem a) ∧
        (∀ a, s.marked 0 a = true ∨ s.marked 1 a = true → mget t.mem a = mget s.mem a) ∧
        (s.noWrite A bs.length = false → OldOrNew s t A 1 bs ∧
          ((∃ x a b v, c.op = .mma x a b v) ∨ (∃ x, c.op = .zero x) → OldOrNew s t A 4 bs)))) ∧
  (∀ (s : State) (g : Nat) (x y : Cmd) (cx cy : Cap) (tag : Nat), s.mxHead g = some x → s.mxHead (mirror g) = some y → x.id ≠ y.id →
    x.op = .swap cx tag none → y.op = .swap cy tag none → s.mxReady x = true → s.mxReady y = true →
    (cx.l = cy.l → s.mxPortChk x = .ok () → s.mxPortChk y = .ok () →
      ∃ t, exec (.mxSwapPairing g) s = .next t ∧ SameMem s t ∧
        (∃ c ∈ t.cmds, c.id = x.id ∧ c.running = true ∧ c.op = .swap cx tag (some (s.opBytes cy cy.l))) ∧
        (∃ c ∈ t.cmds, c.id = y.id ∧ c.running = true ∧ c.op = .swap cy tag (some (s.opBytes cx cx.l)))) ∧
    (x.key ≠ y.key → (s.slot x.key).wins.any Win.feWait = false → (s.slot y.key).wins.any Win.feWait = false →
      (cx.l ≠ cy.l → s.mxPortChk x = .ok () → s.mxPortChk y = .ok () →
        ∃ t, exec (.mxSwapPairing g) s = .next t ∧ SameMem s t ∧ (∀ c ∈ t.cmds, c.id ≠ x.id ∧ c.id ≠ y.id) ∧
          WindowFails s t x.key x.win (cENGINE, 6) ∧ WindowFails s t y.key y.win (cENGINE, 6)) ∧
      ((∃ f, s.mxPortChk x = .error f) ∨ (∃ f, s.mxPortChk y = .error f) →
        ∃ t, exec (.mxSwapPairing g) s = .next t ∧ SameMem s t ∧ ∀ z, z = x ∨ z = y →
          (s.mxPortChk z = .ok () → z ∈ t.cmds) ∧
          ∀ f, s.mxPortChk z = .error f → (∀ c ∈ t.cmds, c.id ≠ z.id) ∧ WindowFails s t z.key z.win f))) ∧
  ∀ (s : State) (g : Nat) (x : Cmd) (cx : Cap) (tag : Nat), mirror g = g → s.mxHead g = some x → x.op = .swap cx tag none →
    s.mxReady x = true → s.mxPortChk x = .ok () → (s.slot x.key).wins.any Win.feWait = false →
    ∃ t, exec (.mxSwapPairing g) s = .next t ∧ SameMem s t ∧ (∀ c ∈ t.cmds, c.id ≠ x.id) ∧
      ∀ w ∈ (s.slot x.key).wins, w.id = x.win → ∃ w' ∈ (t.slot x.key).wins, w'.id = w.id ∧ w'.st = .done {}

/-- 09 R241: mx.cfg installs an admitted value and answers 0, and else answers the first reason: 5 for a reserved bit, 4 for a
rounding mode of 5 to 7, 1 for a pair, 2 for an output format, 3 for slots beyond the eighth. 09 R247: mx.stat reads its fact into
x[d]: the units and the queue, the strand's commands that have not completed, its pending error, the slots' valid and busy bits, a
slot, the scale latch. What a slot shows while it is invalid or loading is the model's choice (log 101). 09 R233: an error of a
running command becomes the strand's pending matrix error, code 5 for an uncorrectable error and 8 for a result write into bytes
that hold capabilities or live descriptors, unless one is pending already; each 32-bit element of an accumulator, or byte of
another destination, is then the old or the new one, bytes that a mark protects are the old ones, and no other byte of memory
changes; which elements are new is a free value (log 72). 09 R248: swaps that pair start on both tiles with each other's bytes;
unequal lengths fail both with ENGINE 6; one that fails its port checks leaves while its partner stays unpaired (log 101); on the
diagonal a swap completes at once. No start of a swap changes memory. No window of a strand holds a full/empty operation back. -/
def Obligations.MatrixControl : Prop := MatrixConfig ∧ MatrixErrorsAndSwaps


/-! ### Capabilities and objects -/

/-- What a capability instruction leaves: other strands, memory, every register file but the capabilities; it has completed. The refusal
code may change (04 R105). -/
def Sys2Proof.Claim.CapFrame (s t : State) : Prop :=
  (∀ k, k ≠ s.cur → t.slot k = s.slot k) ∧ SameMem s t ∧ SameX s t ∧ SameV s t ∧ SameM s t ∧ SameF s t ∧ Advanced s t 4 ∧
    SameSpecials s (t.upd fun u => { u with refusal := s.me.refusal })
/-- The old value of c[d] can be dropped at once (04 R92, R101). -/
def Sys2Proof.Claim.Droppable (s : State) (d : Nat) : Prop := s.dropWaits (s.c d) = false
/-- The old value of c[d] is neither a fraction nor a delegate: dropping it changes nothing. -/
def Sys2Proof.Claim.PlainOld (s : State) (d : Nat) : Prop := (s.c d).has rQ = false ∧ (s.c d).has rL = false
/-- The instruction writes v into c[d] and null into c[a], and nothing else in the capability registers. -/
def Sys2Proof.Claim.MovesC (s t : State) (a d : Nat) (v : Cap) : Prop :=
  ∀ n, t.c n = if n = a ∧ a ≠ 0 then .null else if n = d ∧ d ≠ 0 then v else s.c n
/-- The holding entry n may be used (04 R91). -/
def Sys2Proof.Claim.HoldOk (s : State) (n : Nat) : Prop :=
  n < 4096 ∧ (n < 3840 ∨ s.me.mode ≠ .u) ∧ sget 0 s.badh (s.gta * 4096 + n) = 0

/-- 04 R95, R96: cld moves a holding entry into c[d] and leaves null in it; cst moves c[a] into an empty, unclaimed entry; cmv moves
c[a] to c[d]. At entries 3840 to 3847 cld unregisters the mailbox, here one whose undelivered messages carry no capability, and cst
registers one, whose header becomes zero (10 R257); a header that live descriptors or capabilities cover is not written, and the strand
takes a deferred CAP_RIGHTS (11 R285). -/
def Sys2Proof.Claim.CapMoves : Prop :=
  ∀ (s : State) (a b d : Nat),
    (HoldOk s (s.xn a) → s.claimed s.gta (s.xn a) = false →
      ¬(3840 ≤ s.xn a ∧ s.xn a < 3848) ∨ s.holdAt s.gta (s.xn a) = .null → Droppable s d →
      ∃ t, exec (.cld a d) s = .next t ∧ CapFrame s t ∧ WroteC s t d (s.holdAt s.gta (s.xn a)) ∧
        t.holdAt s.gta (s.xn a) = .null ∧ (∀ i, i ≠ s.gta * 4096 + s.xn a → sget .null t.hold i = sget .null s.hold i) ∧
        (PlainOld s d → t.entries = s.entries)) ∧
    (HoldOk s (s.xn a) → s.claimed s.gta (s.xn a) = false → 3840 ≤ s.xn a → s.xn a < 3848 → s.holdAt s.gta (s.xn a) ≠ .null →
      (∀ r ∈ sget [] (s.tile s.gta).mboxes (s.xn a - 3840), r.cap = .null) → Droppable s d →
      ∃ t, exec (.cld a d) s = .next t ∧ CapFrame s t ∧ WroteC s t d (s.holdAt s.gta (s.xn a)) ∧
        t.holdAt s.gta (s.xn a) = .null ∧ sget [] (t.tile s.gta).mboxes (s.xn a - 3840) = []) ∧
    (HoldOk s (s.xn a) → s.claimed s.gta (s.xn a) = true → Droppable s d →
      ∃ t, exec (.cld a d) s = .next t ∧ CapFrame s t ∧ WroteC s t d .null ∧ t.hold = s.hold) ∧
    (HoldOk s (s.xn b) → s.c a ≠ .null → (s.c a).launchRecord = false → s.holdAt s.gta (s.xn b) = .null →
      s.claimed s.gta (s.xn b) = false → ¬(3840 ≤ s.xn b ∧ s.xn b < 3848) →
      ∃ t, exec (.cst a b) s = .next t ∧ CapFrame s t ∧ WroteC s t a .null ∧ t.holdAt s.gta (s.xn b) = s.c a ∧
        (∀ i, i ≠ s.gta * 4096 + s.xn b → sget .null t.hold i = sget .null s.hold i) ∧ t.entries = s.entries) ∧
    (HoldOk s (s.xn b) → s.c a ≠ .null → (s.c a).launchRecord = false → s.holdAt s.gta (s.xn b) = .null →
      s.claimed s.gta (s.xn b) = false → 3840 ≤ s.xn b → s.xn b < 3848 →
      ∃ t, exec (.cst a b) s = .next t ∧ WroteC s t a .null ∧ t.holdAt s.gta (s.xn b) = s.c a ∧ SameX s t ∧ Advanced s t 4 ∧
        t.entries = s.entries ∧ (t.mbox s.gta (s.xn b - 3840) = none → SameMem s t) ∧
        ∀ p D, t.mbox s.gta (s.xn b - 3840) = some (p, D) →
          (s.noWrite (flat (ownSp s.gta) p) 64 = true → SameMem s t ∧
            t.me.dfs = s.me.dfs ++ [(s.me.nextWid, cCAP_RIGHTS, (s.c a).o, s.me.pc.toNat)]) ∧
          (s.noWrite (flat (ownSp s.gta) p) 64 = false →
            (∀ x, flat (ownSp s.gta) p ≤ x → x < flat (ownSp s.gta) p + 64 → mget t.mem x = 0) ∧
            ∀ x, x < flat (ownSp s.gta) p ∨ flat (ownSp s.gta) p + 64 ≤ x → mget t.mem x = mget s.mem x)) ∧
    (a ≠ d → Droppable s d → ∃ t, exec (.cmv a d) s = .next t ∧ CapFrame s t ∧ MovesC s t a d (s.c a) ∧ t.hold = s.hold ∧
        (PlainOld s d → t.entries = s.entries)) ∧
    (∃ t, exec (.cmv a a) s = .next t ∧ CapFrame s t ∧ SameC s t ∧ t.hold = s.hold ∧ t.entries = s.entries) ∧
    (4096 ≤ s.xn a → exec (.cld a d) s = .next (s.raise cHOLD_INDEX (s.xn a))) ∧
    (s.xn a < 4096 → 3840 ≤ s.xn a → s.me.mode = .u → exec (.cld a d) s = .next (s.raise cMODE ((encode (.cld a d)).getD 0)))

/-- 04 R97, R98: csplit cuts a capability at an offset, both pieces without S; cjoin puts two adjacent pieces of an object or a window
together again, in either order, and the whole regains S. -/
def Sys2Proof.Claim.CapSplitJoin : Prop :=
  ∀ (s : State) (a b d : Nat),
    (s.c a ≠ .null → (s.c a).has rQ = false → (s.c a).has rL = false → (s.c a).has rA = false → 0 < s.xn b → s.xn b < (s.c a).l →
      a ≠ d → Droppable s d →
      ∃ t, exec (.csplit a b d) s = .next t ∧ CapFrame s t ∧
        (t.c a).b = (s.c a).b ∧ (t.c a).l = s.xn b ∧ (t.c a).has rS = false ∧ (t.c a).o = (s.c a).o ∧ (t.c a).g = (s.c a).g ∧
        (d ≠ 0 → (t.c d).b = ((s.c a).b + s.xn b) % 2 ^ 40 ∧ (t.c d).l = (s.c a).l - s.xn b ∧ (t.c d).has rS = false ∧
          (t.c d).o = (s.c a).o ∧ (t.c d).g = (s.c a).g) ∧
        (∀ r, r < 8 → r ≠ rS → (t.c a).has r = (s.c a).has r ∧ (d ≠ 0 → (t.c d).has r = (s.c a).has r)) ∧
        ∀ n, n ≠ a → n ≠ d → t.c n = s.c n) ∧
    (∀ lo, s.c a ≠ .null → s.c d ≠ .null → a ≠ d → (s.c a).o = (s.c d).o → (s.c a).g = (s.c d).g →
      (s.c d).clearS.rights = (s.c a).clearS.rights → (s.c d).has rQ = false → (s.c d).has rL = false →
      (((s.c d).top = (s.c a).b ∧ lo = (s.c d).b) ∨ ((s.c d).top ≠ (s.c a).b ∧ (s.c a).top = (s.c d).b ∧ lo = (s.c a).b)) →
      (s.c d).l + (s.c a).l < 2 ^ 40 → s.check15w (s.c d) s.gta = none →
      ∃ t, exec (.cjoin a d) s = .next t ∧ CapFrame s t ∧ t.c a = .null ∧ (t.c d).b = lo ∧ (t.c d).l = (s.c d).l + (s.c a).l ∧
        (t.c d).o = (s.c d).o ∧ (t.c d).g = (s.c d).g ∧ t.entries = s.entries ∧
        (lo = 0 → (s.c d).l + (s.c a).l = s.objLen (s.c d).o → (s.c d).isOwner = true → (s.c d).launchRecord = false →
          (t.c d).has rS = true) ∧ ∀ n, n ≠ a → n ≠ d → t.c n = s.c n)

/-- 04 R95, R96: cld moves a holding entry into c[d] and leaves null in it; cst moves c[a] into an empty, unclaimed entry; cmv
moves c[a] to c[d]. At entries 3840 to 3847 cld unregisters the mailbox, here one whose undelivered messages carry no capability,
and cst registers one, whose header becomes zero (10 R257); a header that live descriptors or capabilities cover is not written,
and the strand takes a deferred CAP_RIGHTS (11 R285). 04 R97, R98: csplit cuts a capability at an offset, both pieces without S;
cjoin puts two adjacent pieces of an object or a window together again, in either order, and the whole regains S. -/
def Obligations.CapabilityMoves : Prop := CapMoves ∧ CapSplitJoin


/-- A fill delegate over [base + o, base + o + n): rights S and L only (04 R102). -/
def Sys2Proof.Claim.fillCap (c : Cap) (o n : Nat) : Cap := { c with base := BitVec.ofNat 40 (c.b + o), len := BitVec.ofNat 40 n, rights := 0x0A#8 }
/-- A capability over the whole of an object (04 R104). -/
def Sys2Proof.Claim.rootCap (gen : Nat) (rights : BitVec 8) (o : Nat) (len : BitVec 40) : Cap :=
  { gen := BitVec.ofNat 12 gen, rights := rights, oid := BitVec.ofNat 28 o, len := len, base := 0 }
/-- The counts of an entry when a fraction, or else a fill delegate, is given back. -/
def Sys2Proof.Claim.givenBack (e : Entry) (c : Cap) : Entry := if c.has rQ then { e with fracs := e.fracs - 1 } else { e with fills := e.fills - 1 }
/-- 04 R99 to R102, R105: cfrac and cfill make a counted fraction and a fill delegate of the range and count it in the entry; a full count
is refused with null and its code; cunfrac and cdrop give one back. -/
def Sys2Proof.Claim.CapCounts : Prop :=
  ∀ (s : State) (a b d : Nat), Droppable s d → PlainOld s d →
    (s.c a ≠ .null → (s.c a).has rR = true → (s.c a).has rQ = false → (s.c a).has rL = false → (s.c a).has rA = false →
      s.storeBusy s.cur (s.c a).o = false → s.check16 (s.c a) s.gta = none →
      ((s.entry (s.c a).o).fracs < 4095 → oidIdx (s.c a).o ≠ 0 → ∃ t, exec (.cfrac a d) s = .next t ∧ CapFrame s t ∧
        WroteC s t d { s.c a with rights := 0x8C#8 } ∧ t.me.refusal = 0 ∧
        t.entry (s.c a).o = { s.entry (s.c a).o with fracs := (s.entry (s.c a).o).fracs + 1 } ∧
        ∀ o, o ≠ (s.c a).o → oidIdx o ≠ 0 → t.entry o = s.entry o) ∧
      (4095 ≤ (s.entry (s.c a).o).fracs → ∃ t, exec (.cfrac a d) s = .next t ∧ CapFrame s t ∧ WroteC s t d .null ∧ t.me.refusal = 5 ∧
        t.entries = s.entries)) ∧
    (s.c a ≠ .null → (s.c a).has rW = true → (s.c a).has rQ = false → (s.c a).has rL = false → isSram (s.c a).o = true →
      0 < bits (s.xn b) 32 32 → bits (s.xn b) 0 32 + bits (s.xn b) 32 32 ≤ (s.c a).l → ((s.c a).b + bits (s.xn b) 0 32) % 8 = 0 →
      bits (s.xn b) 32 32 % 8 = 0 → s.check16 (s.c a) s.gta = none → (s.entry (s.c a).o).fills < 15 → oidIdx (s.c a).o ≠ 0 →
      ∃ t, exec (.cfill a b d) s = .next t ∧ CapFrame s t ∧ WroteC s t d (fillCap (s.c a) (bits (s.xn b) 0 32) (bits (s.xn b) 32 32)) ∧ t.me.refusal = 0 ∧
        t.entry (s.c a).o = { s.entry (s.c a).o with fills := (s.entry (s.c a).o).fills + 1 } ∧
        ∀ o, o ≠ (s.c a).o → oidIdx o ≠ 0 → t.entry o = s.entry o) ∧
    (s.c a ≠ .null → (s.c a).has rW = true → (s.c a).has rQ = false → (s.c a).has rL = false → isSram (s.c a).o = true →
      0 < bits (s.xn b) 32 32 → bits (s.xn b) 0 32 + bits (s.xn b) 32 32 ≤ (s.c a).l → ((s.c a).b + bits (s.xn b) 0 32) % 8 = 0 →
      bits (s.xn b) 32 32 % 8 = 0 → s.check16 (s.c a) s.gta = none → 15 ≤ (s.entry (s.c a).o).fills →
      ∃ t, exec (.cfill a b d) s = .next t ∧ CapFrame s t ∧ WroteC s t d .null ∧ t.me.refusal = 6 ∧ t.entries = s.entries) ∧
    (a ≠ d → s.c a ≠ .null → s.c d ≠ .null → (s.c a).has rQ = true ∨ (s.c a).has rL = true → (s.c d).isOwner = true →
      (s.c d).o = (s.c a).o → (s.c d).g = (s.c a).g →
      s.objBusy s.cur (s.c d).o = false → s.check15 (s.c d) s.gta true = none → oidIdx (s.c d).o ≠ 0 →
      ∃ t, exec (.cunfrac a d) s = .next t ∧ CapFrame s t ∧ WroteC s t a .null ∧ ((s.c a).has rQ = true → t.l1Of s.gta = []) ∧
        t.entry (s.c d).o = givenBack (s.entry (s.c d).o) (s.c a)) ∧
    (∃ t, exec (.cdrop d) s = .next t ∧ CapFrame s t ∧ WroteC s t d .null ∧ t.entries = s.entries) ∧
    ((s.c a).has rQ = true ∨ (s.c a).has rL = true → s.dropWaits (s.c a) = false → s.check15 (s.c a) s.gta true = none →
      oidIdx (s.c a).o ≠ 0 →
      ∃ t, exec (.cdrop a) s = .next t ∧ CapFrame s t ∧ WroteC s t a .null ∧
        t.entry (s.c a).o = givenBack (s.entry (s.c a).o) (s.c a))

/-- The attribute word of obj.new that an entry was made with (04 R104). -/
def Sys2Proof.Claim.attrWord (e : Entry) : Nat :=
  (if e.restartable then 2 ^ 24 else 0) + (if e.amo then 2 ^ 23 else 0) + e.pkey * 2 ^ 18 + e.cls * 2 ^ 16 + e.keyid
/-- The state bits of an entry (04 R103). -/
def Sys2Proof.Claim.flagWord (e : Entry) : Nat :=
  (if e.poison then 1 else 0) + (if e.resident then 2 else 0) + (if e.amo then 4 else 0) + if e.restartable then 8 else 0
/-- 04 R103: cinfo reads the fields of a capability, and those of the entry that it names; an entry that cannot be read answers all ones;
of a window's entry, which has no counts or attributes, selectors 9 to 13 answer a value that the spec leaves open (log 96). -/
def Sys2Proof.Claim.CapInfo : Prop :=
  ∀ (s : State) (a d : Nat),
    Gives (.cinfo a 0 d) s d (BitVec.ofNat 64 (s.c a).b) ∧ Gives (.cinfo a 1 d) s d (BitVec.ofNat 64 (s.c a).l) ∧
    Gives (.cinfo a 2 d) s d (BitVec.ofNat 64 (s.c a).rights.toNat) ∧ Gives (.cinfo a 3 d) s d (BitVec.ofNat 64 (s.c a).o) ∧
    Gives (.cinfo a 4 d) s d (BitVec.ofNat 64 (s.c a).g) ∧ Gives (.cinfo a 5 d) s d (BitVec.ofNat 64 (s.c a).bits) ∧
    Gives (.cinfo a 6 d) s d (BitVec.ofNat 64 ((s.c a).bits / 2 ^ 64)) ∧ Gives (.cinfo a 7 d) s d (oneIf (s.c a ≠ .null)) ∧
    Gives (.cinfo a 15 d) s d (BitVec.ofNat 64 s.me.refusal) ∧
    (∀ sel, 8 ≤ sel → sel ≤ 13 → (s.c a = .null ∨ s.check15w (s.c a) s.gta true ≠ none) →
      Gives (.cinfo a sel d) s d (BitVec.allOnes 64)) ∧
    (s.c a ≠ .null → s.check15w (s.c a) s.gta true = none → Gives (.cinfo a 8 d) s d (BitVec.ofNat 64 (s.objLen (s.c a).o)) ∧
      (isWindow (s.c a).o = false →
        Gives (.cinfo a 9 d) s d (BitVec.ofNat 64 (s.entry (s.c a).o).fracs) ∧
        Gives (.cinfo a 10 d) s d (BitVec.ofNat 64 (s.entry (s.c a).o).fills) ∧
        Gives (.cinfo a 11 d) s d (BitVec.ofNat 64 (s.entry (s.c a).o).owner) ∧
        Gives (.cinfo a 12 d) s d (BitVec.ofNat 64 (attrWord (s.entry (s.c a).o))) ∧
        Gives (.cinfo a 13 d) s d (BitVec.ofNat 64 (flagWord (s.entry (s.c a).o)))) ∧
      (isWindow (s.c a).o = true → ∀ sel, 9 ≤ sel → sel ≤ 13 →
        ∃ t v, exec (.cinfo a sel d) s = .next t ∧ WroteX s t d v ∧ SameC s t ∧ SameV s t ∧ SameM s t ∧ SameF s t ∧ SameMem s t ∧
          SameSpecials s t ∧ Advanced s t 4 ∧ ∀ k, k ≠ s.cur → t.slot k = s.slot k))

/-- 04 R99 to R102, R105: cfrac and cfill make a counted fraction and a fill delegate of the range and count it in the entry; a
full count is refused with null and its code; cunfrac and cdrop give one back. 04 R103: cinfo reads the fields of a capability,
and those of the entry that it names; an entry that cannot be read answers all ones; of a window's entry, which has no counts or
attributes, selectors 9 to 13 answer a value that the spec leaves open (log 96). -/
def Obligations.CapabilityCounts : Prop := CapCounts ∧ CapInfo


/-- The generation after that of object o, where it ends: 0xFFF is the last but one, and that of a launch record passes from it to 1 (04 R107). -/
def Sys2Proof.Claim.nextGen (o gen : Nat) : Nat :=
  if oidPort o < 64 ∧ oidIdx o = 1023 ∧ gen = 4095 then 1 else if 4096 ≤ gen then gen else gen + 1
/-- Entry `j` of port `sp` is free: not valid, and not retired (04 R83, R107). -/
def Sys2Proof.Claim.EntryFree (s : State) (sp j : Nat) : Prop :=
  1 ≤ j ∧ j < tableSize (sp % 128) ∧ (s.entry (sp * 2 ^ 15 + j)).valid = false ∧ (s.entry (sp * 2 ^ 15 + j)).gen < 4096
/-- The reason of obj.new over the arena capability c with the attribute word x: the first of those of 04 R104, 0 for none. -/
def Sys2Proof.Claim.NewReason (s : State) (c : Cap) (x r : Nat) : Prop :=
  let reserved := 2 ^ 25 ≤ x ∨ bits x 16 2 = 3 ∨ (bits x 0 16 ≠ 0 ∧ bits x 16 2 = 0)
  let place := (tbit x 23 = true ∧ oidPort c.o ≠ 68) ∨ (bits x 16 2 = 2 ∧ oidPort c.o = 69)
  let key := bits x 16 2 ≠ 0 ∧ ¬((s.key (bits x 0 16)).st = .live ∧
    (s.key (bits x 0 16)).world = bits s.wrow (oidDie c.o / 8 * 4) 3)
  let taken := s.unitsMarked (oidSp c.o) c.b c.l = true
  let full := ∀ j, ¬EntryFree s (oidSp c.o) j
  (reserved → r = 7) ∧ (¬reserved → place → r = 3) ∧ (¬reserved → ¬place → key → r = 4) ∧
    (¬reserved → ¬place → ¬key → taken → r = 2) ∧ (¬reserved → ¬place → ¬key → ¬taken → full → r = 1) ∧
    (¬reserved → ¬place → ¬key → ¬taken → ¬full → r = 0)
/-- 04 R104 to R107: obj.new raises CAP_NULL, CAP_RIGHTS or MISALIGNED by its operand; refuses for the first of its five reasons, which the
refusal code keeps; and else carves the lowest free entry of the arena's port, with the attributes of x[b] and owned by the tile, and
returns its root capability; obj.free ends the object, in U only one without fractions and delegates: its entry is free with its generation advanced. No store
waits for granules of the object, and it holds no live descriptor. -/
def Obligations.Objects : Prop :=
  ∀ (s : State) (a b d : Nat),
    (s.c a = .null → exec (.objNew a b d) s = .next (s.raise cCAP_NULL a)) ∧
    (s.c a ≠ .null → (s.c a).rights ≠ 1#8 →
      exec (.objNew a b d) s = .next (s.raise cCAP_RIGHTS ((s.c a).rights.toNat * 256 + a))) ∧
    (s.c a ≠ .null → (s.c a).rights = 1#8 → (s.c a).b % unitOf (oidPort (s.c a).o) ≠ 0 →
      exec (.objNew a b d) s = .next (s.raise cMISALIGNED (s.c a).b)) ∧
    (s.c a ≠ .null → (s.c a).rights = 1#8 → (s.c a).b % unitOf (oidPort (s.c a).o) = 0 → (s.c a).l % unitOf (oidPort (s.c a).o) ≠ 0 →
      exec (.objNew a b d) s = .next (s.raise cMISALIGNED (s.c a).l)) ∧
    (∀ i, s.c a ≠ .null → (s.c a).rights = 1#8 → (s.c a).b % unitOf (oidPort (s.c a).o) = 0 → (s.c a).l % unitOf (oidPort (s.c a).o) = 0 →
      s.check15 (s.c a) s.gta true = none → Droppable s d → PlainOld s d → NewReason s (s.c a) (s.xn b) 0 →
      EntryFree s (oidSp (s.c a).o) i → (∀ j, j < i → ¬EntryFree s (oidSp (s.c a).o) j) →
      ∃ t, exec (.objNew a b d) s = .next t ∧ CapFrame s t ∧ t.me.refusal = 0 ∧
        (let o := oidSp (s.c a).o * 2 ^ 15 + i
         (t.entry o).valid = true ∧ (t.entry o).base = (s.c a).b ∧ (t.entry o).len = (s.c a).l ∧ (t.entry o).owner = s.gta ∧
         (t.entry o).gen = (s.entry o).gen ∧ (t.entry o).fracs = 0 ∧ (t.entry o).fills = 0 ∧
         (t.entry o).cls = bits (s.xn b) 16 2 ∧ (t.entry o).keyid = bits (s.xn b) 0 16 ∧ (t.entry o).pkey = bits (s.xn b) 18 5 ∧
         (t.entry o).amo = tbit (s.xn b) 23 ∧ (t.entry o).restartable = tbit (s.xn b) 24 ∧ (t.entry o).resident = true ∧
         (t.entry o).poison = false ∧ (t.entry o).world = bits s.wrow (oidDie o / 8 * 4) 3 ∧
         (isSram o = true → ∀ x, flat (oidSp o) (s.c a).b ≤ x → x < flat (oidSp o) (s.c a).b + (s.c a).l → t.feBit x = true) ∧
         WroteC s t d (rootCap (s.entry o).gen (if tbit (s.xn b) 23 then 0x28#8 else 0xD8#8) o (s.c a).len))) ∧
    (∀ r, s.c a ≠ .null → NewReason s (s.c a) (s.xn b) r → r ≠ 0 → (s.c a).rights = 1#8 → (s.c a).b % unitOf (oidPort (s.c a).o) = 0 →
      (s.c a).l % unitOf (oidPort (s.c a).o) = 0 → s.check15 (s.c a) s.gta true = none → Droppable s d → PlainOld s d →
      ∃ t, exec (.objNew a b d) s = .next t ∧ CapFrame s t ∧ WroteC s t d .null ∧ t.me.refusal = r ∧
        t.entries = s.entries) ∧
    (s.c a ≠ .null → (s.c a).isOwner = true → (s.c a).has rW = true ∨ (s.c a).has rA = true → oidIdx (s.c a).o ≠ 0 →
      s.late.any (fun p => p.2.1.o == (s.c a).o) = false → s.storeBusy s.cur (s.c a).o = false →
      s.check15 (s.c a) s.gta true = none → (s.c a).b = 0 → (s.c a).l = (s.entry (s.c a).o).len →
      (s.me.mode = .u → (s.entry (s.c a).o).fracs = 0 ∧ (s.entry (s.c a).o).fills = 0) → s.holdsLive (s.c a).o (s.entry (s.c a).o) = false →
      ∃ t, exec (.objFree a) s = .next t ∧ WroteC s t a .null ∧ SameX s t ∧ Advanced s t 4 ∧
        t.entry (s.c a).o = { gen := nextGen (s.c a).o (s.entry (s.c a).o).gen })

/-! ### Keys and the Separator's instructions -/

/-- 14 R356 to R360: key.new makes the lowest Free id Live in the strand's world, and answers all ones when there is none or the entropy
source has failed. The world for which the Separator's core, which belongs to none, makes a key (`myWorld`), that it makes none while no
world is locked for its setup (R363), and that it may end the key of any world are the model's choice (log 99). key.end of a Live id of that world makes it Ending and waits; it waits with status 2 for an id that is Ending, and
answers 3 for a reserved bit and 1 for an id of another world or in another state; both are MODE in U. -/
def Sys2Proof.Claim.KeyLife : Prop :=
  ∀ (s : State) (la a d : Nat),
    (s.me.mode = .u → exec (.keyNew d) s = .next (s.raise cMODE ((encode (.keyNew d)).getD 0)) ∧
      exec (.keyEnd la a d) s = .next (s.raise cMODE ((encode (.keyEnd la a d)).getD 0))) ∧
    (∀ k, s.me.mode ≠ .u → s.entropyBad = false → (s.cur = sepKey → s.lockedWorlds ≠ []) → s.freeKey (s.keys.length + 1) 1 = some k →
      ∃ t, exec (.keyNew d) s = .next t ∧ WroteX s t d (BitVec.ofNat 64 k) ∧ SameC s t ∧ SameMem s t ∧ Advanced s t 4 ∧
        (t.key k).st = .live ∧ (t.key k).world = s.myWorld ∧ (t.key k).epoch = (s.key k).epoch ∧ ∀ j, j ≠ k → t.key j = s.key j) ∧
    (s.me.mode ≠ .u → s.entropyBad = true ∨ (s.cur = sepKey ∧ s.lockedWorlds = []) ∨ s.freeKey (s.keys.length + 1) 1 = none →
      Gives (.keyNew d) s d (BitVec.allOnes 64)) ∧
    (s.me.mode ≠ .u → RoomForWindow s →
      (s.xn a < 2 ^ 16 → (s.key (s.xn a)).st = .live → (s.key (s.xn a)).world = s.myWorld ∨ s.cur = sepKey →
        ∃ t, exec (.keyEnd la a d) s = .next t ∧ Pending s t ∧ SameMem s t ∧
          Opened s t la (.keyEnd la a d) (.wait (.keyEnd (s.xn a) 0 d)) ∧ (t.key (s.xn a)).st = .ending ∧
          ∀ j, j ≠ s.xn a → t.key j = s.key j) ∧
      (s.xn a < 2 ^ 16 → (s.key (s.xn a)).st = .ending → (s.key (s.xn a)).world = s.myWorld ∨ s.cur = sepKey →
        ∃ t, exec (.keyEnd la a d) s = .next t ∧ Pending s t ∧ OnlyMe s t ∧
          Opened s t la (.keyEnd la a d) (.wait (.keyEnd (s.xn a) 2 d))) ∧
      (s.xn a < 2 ^ 16 → ((s.key (s.xn a)).world ≠ s.myWorld ∧ s.cur ≠ sepKey) ∨
          ((s.key (s.xn a)).st ≠ .live ∧ (s.key (s.xn a)).st ≠ .ending) →
        ∃ t, exec (.keyEnd la a d) s = .next t ∧ Pending s t ∧ OnlyMe s t ∧ Opened s t la (.keyEnd la a d) (.done { xs := [(d, 1)] })) ∧
      (2 ^ 16 ≤ s.xn a →
        ∃ t, exec (.keyEnd la a d) s = .next t ∧ Pending s t ∧ OnlyMe s t ∧ Opened s t la (.keyEnd la a d) (.done { xs := [(d, 3)] })))

/-- 14 R356, R360: the lowest Free id is Free and every lower one, from 1, is not; a key that leaves Ended is Free with its epoch advanced,
or Retired after the last epoch. -/
def Sys2Proof.Claim.KeyStates : Prop :=
  (∀ (s : State) (f k : Nat), s.freeKey f 1 = some k → 1 ≤ k ∧ k < 65536 ∧ (s.key k).st = .free ∧
    ∀ j, 1 ≤ j → j < k → (s.key j).st ≠ .free) ∧
  (∀ (k : Key), (k.epoch = 0xFFFE → k.release.st = .retired) ∧
    (k.epoch ≠ 0xFFFE → k.release.st = .free ∧ k.release.epoch = k.epoch + 1))

/-- An operand capability over the Separator's private SRAM with the right (14 R371). -/
def Sys2Proof.Claim.SepCap (c : Cap) (r : Nat) : Prop := c ≠ .null ∧ c.has r = true ∧ oidPort c.o = sepPort
/-- 14 R370, R371: the Separator's instructions run in M mode and raise MODE in every other; the digest, the signature and the verdict go
into their windows; drbg answers a value that the spec leaves open (log 15). -/
def Obligations.SeparatorInstructions : Prop :=
  ∀ (s : State) (la a b d : Nat),
    (s.me.mode ≠ .m → (∀ i ∈ [Instr.shk la a b d, .edsig la a b d, .edver la a b d, .drbg d],
      exec i s = .next (s.raise cMODE ((encode i).getD 0)))) ∧
    (s.me.mode = .m → RoomForWindow s → SepCap (s.c a) rR → SepCap (s.c d) rW → 0 < s.xn b → s.xn b ≤ (s.c d).l →
      ∃ t, exec (.shk la a b d) s = .next t ∧ Pending s t ∧ OnlyMe s t ∧ Opened s t la (.shk la a b d)
        (.wait (.sepOut (s.c d) (shake256 (mbytes s.mem (flat (oidSp (s.c a).o) (s.c a).b) (s.c a).l) (s.xn b))))) ∧
    (s.me.mode = .m → RoomForWindow s → SepCap (s.c a) rR → SepCap (s.c d) rW → s.xn b < 2 → 114 ≤ (s.c d).l →
      ∃ t, exec (.edsig la a b d) s = .next t ∧ Pending s t ∧ OnlyMe s t ∧ Opened s t la (.edsig la a b d)
        (.wait (.sepOut (s.c d) (edSign (s.sepKeyOf (s.xn b)) (mbytes s.mem (flat (oidSp (s.c a).o) (s.c a).b) (s.c a).l))))) ∧
    (s.me.mode = .m → RoomForWindow s → SepCap (s.c a) rR → SepCap (s.c b) rR → (s.c a).l = 171 →
      ∃ t, exec (.edver la a b d) s = .next t ∧ Pending s t ∧ OnlyMe s t ∧ Opened s t la (.edver la a b d)
        (.done { xs := [(d, if edVerify (mbytes s.mem (flat (oidSp (s.c a).o) (s.c a).b) 57)
          ((mbytes s.mem (flat (oidSp (s.c a).o) (s.c a).b) 171).drop 57)
          (mbytes s.mem (flat (oidSp (s.c b).o) (s.c b).b) (s.c b).l) then 0 else 1)] })) ∧
    (s.me.mode = .m → s.entropyBad = false →
      ∃ t v, exec (.drbg d) s = .next t ∧ WroteX s t d v ∧ SameC s t ∧ SameV s t ∧ SameM s t ∧ SameMem s t ∧ Advanced s t 4 ∧
        ∀ k, k ≠ s.cur → t.slot k = s.slot k) ∧
    (s.me.mode = .m → s.entropyBad = true → exec (.drbg d) s = .next (s.raise cENGINE 68))

/-- 14 R359, R360: a failed entropy source stays recorded; the zero-fill after a key.end leaves the storage of the objects that it poisoned
reading zeros, every other byte as it was, and frees their entries without another advance; an entry that has been freed since then
stays as it is. No store waits for granules, no word is poisoned and no byte is marked. -/
def Sys2Proof.Claim.KeyEvents : Prop :=
  (∀ (s : State), exec .entropyHealthFailure s = .next { s with entropyBad := true }) ∧
  (∀ (s : State) (port key : Nat) (os : List (Nat × Nat)),
    s.zfill.find? (fun z => z.1 == port && z.2.1 == key) = some (port, key, os) →
    s.badw = [] → s.late = [] → s.marks = [] → (∀ x ∈ os, isSram x.1 = true ∧ oidIdx x.1 ≠ 0) →
    let due (o : Nat) : Prop := ∃ x ∈ os, x.1 = o ∧ (s.entry o).valid = true ∧ (s.entry o).gen = x.2
    let lo (o : Nat) : Nat := flat (oidSp o) (s.entry o).base
    let hi (o : Nat) : Nat := lo o + roundTo (s.entry o).len 64
    ∃ t, exec (.keyEndZeroFillComplete port key) s = .next t ∧
      (∀ o, due o → (t.entry o).valid = false ∧ (t.entry o).gen = (s.entry o).gen ∧
        ∀ a, lo o ≤ a → a < hi o → mget t.mem a = 0) ∧
      (∀ o, oidIdx o ≠ 0 → ¬due o → t.entry o = s.entry o) ∧
      ∀ a, (∀ o, due o → a < lo o ∨ hi o ≤ a) → mget t.mem a = mget s.mem a)

/-- 14 R356 to R360: key.new makes the lowest Free id Live in the strand's world, and answers all ones when there is none or the
entropy source has failed. The world for which the Separator's core, which belongs to none, makes a key (`myWorld`), that it makes
none while no world is locked for its setup (R363), and that it may end the key of any world are the model's choice (log 99).
key.end of a Live id of that world makes it Ending and waits; it waits with status 2 for an id that is Ending, and answers 3 for a
reserved bit and 1 for an id of another world or in another state; both are MODE in U. 14 R356, R360: the lowest Free id is Free
and every lower one, from 1, is not; a key that leaves Ended is Free with its epoch advanced, or Retired after the last epoch. 14
R359, R360: a failed entropy source stays recorded; the zero-fill after a key.end leaves the storage of the objects that it
poisoned reading zeros, every other byte as it was, and frees their entries without another advance; an entry that has been freed
since then stays as it is. No store waits for granules, no word is poisoned and no byte is marked. -/
def Obligations.Keys : Prop := KeyLife ∧ KeyStates ∧ KeyEvents


/-! ### Moving data: copies, overlay loads, messages and mailboxes -/

/-- 10 R256, R266, R269; 05 R132: mb.send, mv.copy and ifetch with operands that pass their checks join the move queue and open their
windows; a send takes its capability out of c[d] at once, and raises CAP_RIGHTS for one without S or over a launch record (04 R85); an
ifetch makes its overlay slot busy and not valid. -/
def Sys2Proof.Claim.MoveIssue : Prop :=
  ∀ (s : State) (la a b d : Nat), EngineFree s false [(s.c a).o, (s.c d).o] →
    (s.badDesc (s.xn b) = false → s.amoBusy s.cur = false → (s.c a = .null ∨ ((s.c a).has rR = true ∧ (s.c a).l ≤ 16384)) →
      (s.c d = .null ∨ ((s.c d).has rS = true ∧ (s.c d).launchRecord = false)) →
      ∃ t c, exec (.mbSend la a b d) s = .next t ∧ WroteC s t d .null ∧ SameX s t ∧ SameV s t ∧ SameM s t ∧ SameF s t ∧ SameMem s t ∧
        SameSpecials s t ∧ Opened s t la (.mbSend la a b d) (.wait (.cmd s.nextId)) ∧ t.cmds = s.cmds ++ [c] ∧ c.id = s.nextId ∧
        c.key = s.cur ∧ c.g = s.gta ∧ c.mx = false ∧ c.running = false ∧ c.op = .send (s.c d) (s.c a) (s.xn b)) ∧
    (s.badDesc (s.xn b) = false → s.amoBusy s.cur = false → (s.c a = .null ∨ ((s.c a).has rR = true ∧ (s.c a).l ≤ 16384)) →
      s.c d ≠ .null → (s.c d).has rS = false ∨ (s.c d).launchRecord = true →
      exec (.mbSend la a b d) s = .next (s.raise cCAP_RIGHTS ((s.c d).rights.toNat * 256 + d))) ∧
    (s.c a ≠ .null → s.c d ≠ .null → (s.c a).has rR = true → (s.c d).has rW = true → (s.c a).l ≤ (s.c d).l →
      ¬((s.c a).o = (s.c d).o ∧ (s.c a).b < (s.c d).top ∧ (s.c d).b < (s.c a).top) →
      (s.c b = .null ∨ ((s.c b).has rW = true ∧ 16 ≤ (s.c b).l ∧ (s.c b).b % 16 = 0 ∧ oidPort (s.c b).o < 64)) →
      Accepted (.mvCopy la a b d) s la false (.copy (s.c d) (s.c a) (s.c b) (List.range (((s.c a).l + 255) / 256)) [] [])
        (.wait (.cmd s.nextId))) ∧
    (s.c a ≠ .null → (s.c a).has rX = true → s.xn b % 256 * 8192 < (s.c a).l →
      Accepted (.ifetch la a b) s la false (.ifetch (s.c a) (s.xn b / 256 % 8) (s.xn b % 256)) (.wait (.cmd s.nextId)) ∧
      ∃ t, exec (.ifetch la a b) s = .next t ∧ (sget {} (t.tile s.gta).ov (s.xn b / 256 % 8)).busy = true ∧
        (sget {} (t.tile s.gta).ov (s.xn b / 256 % 8)).valid = false ∧ (sget {} (t.tile s.gta).ov (s.xn b / 256 % 8)).seg = s.xn b % 256)

/-- The head of a tile's move queue may start (10 R251). -/
def Sys2Proof.Claim.MayStart (s : State) (g : Nat) (c : Cmd) : Prop :=
  s.mvHead g = some c ∧ c.at_ + 8 ≤ s.cycle ∧ s.mvBusy g < 16 ∧ s.cmdHere c = true
/-- 10 R251, R252, R269: the head of the move queue starts; a copy whose strand's stores are applied passes its port checks and goes on;
a command whose work is done leaves the engine. -/
def Sys2Proof.Claim.MoveStartAndEnd : Prop :=
  (∀ (s : State) (g : Nat) (c : Cmd) (dst src : Cap) (todo : List Nat), MayStart s g c → c.op = .copy dst src .null todo [] [] →
    (s.cmdDrained c = false → ∃ t, exec (.moveCommandStart g) s = .next t ∧ SameMem s t ∧ t.slots = s.slots ∧
      ∃ x ∈ t.cmds, x.id = c.id ∧ x.running = true ∧ x.op = c.op) ∧
    (s.cmdDrained c = true → isWindow src.o = false → isWindow dst.o = false → s.check18 src c.g c.lkey false = none →
      s.check18 dst c.g c.lkey true = none →
      ∃ t, exec (.moveCommandStart g) s = .next t ∧ SameMem s t ∧ ∃ x ∈ t.cmds, x.id = c.id ∧ x.running = true ∧ x.went = true)) ∧
  (∀ (s : State) (id : Nat) (c : Cmd), s.cmds.find? (fun c => c.id == id) = some c → c.mx = false → c.fin = true →
    s.queueFull id = false →
    ∃ t, exec (.moveCommandComplete id) s = .next t ∧ ∀ x ∈ t.cmds, x.id ≠ id)

/-- 10 R256, R266, R269; 05 R132: mb.send, mv.copy and ifetch with operands that pass their checks join the move queue and open
their windows; a send takes its capability out of c[d] at once, and raises CAP_RIGHTS for one without S or over a launch record
(04 R85); an ifetch makes its overlay slot busy and not valid. 10 R251, R252, R269: the head of the move queue starts; a copy
whose strand's stores are applied passes its port checks and goes on; a command whose work is done leaves the engine. -/
def Obligations.MoveCommands : Prop := MoveIssue ∧ MoveStartAndEnd


/-- 10 R269, 05 R129: a packet of a copy between SRAM objects writes the source's bytes at the destination and nothing else, and is
delivered then. -/
def Sys2Proof.Claim.CopyPackets : Prop :=
  ∀ (s : State) (id p : Nat) (c : Cmd) (dst src : Cap) (todo : List Nat), s.cmds.find? (fun c => c.id == id) = some c →
    s.msgs.find? (fun m => m.id == id) = none → c.op = .copy dst src .null todo [] [] → c.went = true → p ∈ todo →
    isSram src.o = true → isSram dst.o = true → s.lost src = false → s.lost dst = false →
    s.badIn src.o (s.entry src.o) (src.b + 256 * p) (min 256 (src.l - 256 * p)) = 0 →
    s.refusedWrite dst.o (s.entry dst.o) (dst.b + 256 * p) (min 256 (src.l - 256 * p)) = none →
    ∃ t, exec (.landingPacketCount id p) s = .next t ∧
      (let n := (s.readObj src.o (s.entry src.o) (src.b + 256 * p) (min 256 (src.l - 256 * p))).length
       let a := flat (oidSp dst.o) ((s.entry dst.o).base + (dst.b + 256 * p))
       mbytes t.mem a n = s.readObj src.o (s.entry src.o) (src.b + 256 * p) (min 256 (src.l - 256 * p)) ∧
       (∀ x, x < a ∨ a + n ≤ x → mget t.mem x = mget s.mem x) ∧
       ∃ x ∈ t.cmds, x.id = id ∧ x.op = .copy dst src .null (todo.erase p) [] [])

/-- 05 R132: an overlay load that completes fills its slot's bytes from the source and makes the record valid; nothing else changes in
memory. -/
def Sys2Proof.Claim.OverlayLoads : Prop :=
  ∀ (s : State) (id : Nat) (c : Cmd) (src : Cap) (k seg : Nat), s.cmds.find? (fun c => c.id == id) = some c → c.op = .ifetch src k seg →
    c.went = true → c.fin = false → s.lost src = false →
    s.badIn src.o (s.entry src.o) (src.b + seg * 8192) (min 8192 (src.l - seg * 8192)) = 0 → (s.tile c.g).tstop = false →
    (sget {} (s.tile c.g).ov k).last = id →
    ∃ t, exec (.ifetchLoadComplete id) s = .next t ∧
      (let bs := s.readObj src.o (s.entry src.o) (src.b + seg * 8192) (min 8192 (src.l - seg * 8192))
       let a := flat (spOverlay c.g) (k * 8192)
       (bs.length = min 8192 (src.l - seg * 8192) → mbytes t.mem a bs.length = bs) ∧
       (∀ x, x < a ∨ (a + min 8192 (src.l - seg * 8192) ≤ x ∧ a + bs.length ≤ x) → mget t.mem x = mget s.mem x) ∧
       (sget {} (t.tile c.g).ov k).valid = true ∧ (sget {} (t.tile c.g).ov k).busy = false ∧ (sget {} (t.tile c.g).ov k).landed = true ∧
       (sget {} (t.tile c.g).ov k).seg = (sget {} (s.tile c.g).ov k).seg)

/-- 10 R269, 05 R129: a packet of a copy between SRAM objects writes the source's bytes at the destination and nothing else, and
is delivered then. 05 R132: an overlay load that completes fills its slot's bytes from the source and makes the record valid;
nothing else changes in memory. -/
def Obligations.TransfersOfBytes : Prop := CopyPackets ∧ OverlayLoads


/-- 10 R260: a reservation of z bytes in a buffer of D lies wholly in it, never passes the end, and keeps head, vis and resv in order. -/
def Sys2Proof.Claim.Reservations : Prop :=
  ∀ (head resv vis D z h r v pos : Nat) (pad : Option Nat), 0 < z → 0 < D → head ≤ vis → vis ≤ resv → resv - head ≤ D →
    reserve head resv vis D z = some (h, r, v, pad, pos) →
    pos % D + z ≤ D ∧ r = pos + z ∧ r - h ≤ D ∧ h ≤ v ∧ v ≤ pos ∧ resv ≤ pos

/-- What a message's reservation leaves (10 R260): the header's three counters, the new records, the message reserved at its place. -/
def Sys2Proof.Claim.Reserved (s t : State) (m : Msg) (b h r v pos : Nat) (new : List MRec) : Prop :=
  t.mbGet m.dest b 0 8 = h ∧ t.mbGet m.dest b 8 8 = r ∧ t.mbGet m.dest b 16 8 = v ∧
    t.recs m.dest m.mbox = s.recs m.dest m.mbox ++ new ++
      [{ id := m.id, pos := pos, size := m.size, complete := false, pri := m.pri, cap := m.cap }] ∧
    ∃ x ∈ t.msgs, x.id = m.id ∧ x.st = .reserved pos ∧ x.pay = m.pay ∧ x.cap = m.cap
/-- 10 R259 to R261: a message is reserved at its first packet, or at its retry when the head has moved or 4,096 cycles have passed; a pad
record that goes before it has its size and the released bit in its header and no other field, and nothing else of memory changes but
the counters; one for which there is no space is held and counted. The bytes written hold neither a live descriptor nor capabilities. -/
def Sys2Proof.Claim.MailboxReservations : Prop :=
  ∀ (s : State) (id : Nat) (m : Msg) (b D : Nat), s.msgs.find? (fun m => m.id == id) = some m → m.dest < 4096 → s.inOrder m = true →
    s.bounceCode m = none → s.mbox m.dest m.mbox = some (b, D) → m.how ≠ .copy → s.noWrite (flat (ownSp m.dest) b) 64 = false →
    (m.st = .sent ∨ ∃ at_ head, m.st = .held at_ head ∧ (s.mbGet m.dest b 0 8 ≠ head ∨ at_ + 4096 ≤ s.cycle)) →
    let did (t : State) : Prop :=
      (m.st = .sent → exec (.mailboxReservation id) s = .next t) ∧ (m.st ≠ .sent → exec (.mailboxReservationRetry id) s = .next t)
    let place := reserve (s.mbGet m.dest b 0 8) (s.mbGet m.dest b 8 8) (s.mbGet m.dest b 16 8) D m.size
    (∀ h r v pos, place = some (h, r, v, none, pos) → h < 2 ^ 64 → r < 2 ^ 64 → v < 2 ^ 64 →
      ∃ t, did t ∧ Reserved s t m b h r v pos [] ∧
        ∀ a, a < flat (ownSp m.dest) b ∨ flat (ownSp m.dest) b + 24 ≤ a → mget t.mem a = mget s.mem a) ∧
    (∀ h r v p pos, place = some (h, r, v, some p, pos) → h < 2 ^ 64 → r < 2 ^ 64 → v < 2 ^ 64 →
      s.noWrite (flat (ownSp m.dest) (b + (64 + p % D))) 16 = false →
      ∃ t, did t ∧ Reserved s t m b h r v pos [{ id := 0, pos := p, size := D - p % D, complete := true, released := true }] ∧
        t.mbGet m.dest b (64 + p % D) 8 = ((D - p % D) / 64 * 2 ^ 24 + 2 ^ 19) % 2 ^ 64 ∧ t.mbGet m.dest b (64 + p % D + 8) 8 = 0 ∧
        ∀ a, a < flat (ownSp m.dest) b ∨ (flat (ownSp m.dest) b + 24 ≤ a ∧ a < flat (ownSp m.dest) (b + (64 + p % D))) ∨
          flat (ownSp m.dest) (b + (64 + p % D)) + 16 ≤ a → mget t.mem a = mget s.mem a) ∧
    (place = none → ∃ t, did t ∧ (∃ x ∈ t.msgs, x.id = id ∧ x.st = .held s.cycle (s.mbGet m.dest b 0 8)) ∧
      t.mbGet m.dest b 28 4 = (s.mbGet m.dest b 28 4 + 1) % 2 ^ 32)

/-- 10 R260: a reservation of z bytes in a buffer of D lies wholly in it, never passes the end, and keeps head, vis and resv in
order. 10 R259 to R261: a message is reserved at its first packet, or at its retry when the head has moved or 4,096 cycles have
passed; a pad record that goes before it has its size and the released bit in its header and no other field, and nothing else of
memory changes but the counters; one for which there is no space is held and counted. The bytes written hold neither a live
descriptor nor capabilities. -/
def Obligations.MailboxSpace : Prop := Reservations ∧ MailboxReservations


/-- 10 R255, R262: a message that is all there leaves the engine: its header is written and its record complete; vis passes every complete
record at the front, unless the port's tile is stopped (16 R390). A byte copy that is all there carries its new object from then on,
and the old one is freed. No strand waits in the mailbox, no word of memory is poisoned, and the bytes written hold neither a live
descriptor nor capabilities. -/
def Sys2Proof.Claim.MessageEnds : Prop :=
  (∀ (s : State) (id pos b D : Nat) (m : Msg), s.msgs.find? (fun m => m.id == id) = some m → m.st = .reserved pos →
    s.mbox m.dest m.mbox = some (b, D) → m.payDone = true → (m.how = .owner → m.ownDone = true) → (m.how = .copy → m.copyDone = true) →
    s.countHeld id = false → (m.cap = .null ∨ ∃ r ∈ s.recs m.dest m.mbox, r.id = id) → s.badw = [] →
    s.noWrite (flat (ownSp m.dest) b) 64 = false → s.noWrite (flat (ownSp m.dest) (b + (64 + pos % D))) 32 = false → sget [] (s.tile m.dest).mbWaits m.mbox = [] →
    ∃ t, exec (.messageComplete id) s = .next t ∧ (∀ x ∈ t.msgs, x.id ≠ id) ∧
      t.mbGet m.dest b (64 + pos % D) 8 = m.head0 % 2 ^ 64 ∧ t.mbGet m.dest b (64 + pos % D + 8) 8 = m.head1 % 2 ^ 64 ∧
      ((s.tile m.dest).tstop = true → t.mbGet m.dest b 16 8 = s.mbGet m.dest b 16 8 ∧
        ∀ r ∈ s.recs m.dest m.mbox, r.id = id →
          ∃ y ∈ t.recs m.dest m.mbox, y.id = id ∧ y.complete = true ∧ y.pos = r.pos ∧ y.size = r.size ∧ y.cap = r.cap) ∧
      ((s.tile m.dest).tstop = false → t.mbGet m.dest b 16 8 = visAfter (s.mbGet m.dest b 16 8)
        ((s.recs m.dest m.mbox).map fun r => if r.id = id then { r with complete := true } else r) % 2 ^ 64)) ∧
  (∀ (s : State) (id pos : Nat) (m : Msg), s.msgs.find? (fun m => m.id == id) = some m → m.st = .reserved pos → m.how = .copy → m.todo = [] →
    m.copyDone = false →
    ∃ t, exec (.byteCopyComplete id) s = .next t ∧
      (∃ x ∈ t.msgs, x.id = id ∧ x.copyDone = true ∧ x.cap = rootCap m.newG m.cap.rights m.newO (BitVec.ofNat 40 (s.entry m.newO).len)) ∧
      ((s.entry m.cap.o).gen ≠ m.cap.g → SameMem s t ∧ t.entries = s.entries) ∧
      ((s.entry m.cap.o).gen = m.cap.g → oidIdx m.cap.o ≠ 0 → s.late = [] → s.holdsLive m.cap.o (s.entry m.cap.o) = false →
        t.entry m.cap.o = { gen := nextGen m.cap.o (s.entry m.cap.o).gen }))

/-- 10 R263, R267, R268: mb.recv releases the message that its strand has taken from the mailbox before, and takes the next visible one: its
place in the buffer into x[a] and its capability into c[d] when the window closes; it waits, bounded by wlim, when there is none or
another strand waits before it; mb.peek reads the next one's header, or all ones when there is none. A mailbox that is not registered
is ENGINE 17, and mb.recv of a codelet ILLEGAL; a registration entry that holds an uncorrectable error is MCHECK (05 R137), and a header that
holds a poisoned word CAP_POISON, deferred for mb.recv, with the buffer poisoned (13 R345). -/
def Sys2Proof.Claim.MailboxReceives : Prop :=
  ∀ (s : State) (la a mb d : Nat),
    let damaged := sget 0 s.badh (s.gta * 4096 + (3840 + mb)) ≠ 0
    (s.me.occ = .codelet → exec (.mbRecv la a mb d) s = .next (s.raise cILLEGAL ((encode (.mbRecv la a mb d)).getD 0))) ∧
    (damaged → exec (.mbPeek mb d) s = .next (s.raise cMCHECK (3 + (3840 + mb) * 2 ^ 16)) ∧
      (s.me.occ ≠ .codelet → RoomForWindow s → Droppable s d →
        exec (.mbRecv la a mb d) s = .next (s.raise cMCHECK (3 + (3840 + mb) * 2 ^ 16)))) ∧
    (∀ b D o, ¬damaged → s.mbox s.gta mb = some (b, D) → s.badWords (flat (ownSp s.gta) b) 32 = true → (s.holdAt s.gta (3840 + mb)).o = o →
      exec (.mbPeek mb d) s = .next ((s.poisonObj o).raise cCAP_POISON o) ∧
      (s.me.occ ≠ .codelet → RoomForWindow s → Droppable s d →
        exec (.mbRecv la a mb d) s = .next ((s.poisonObj o).openW la (.mbRecv la a mb d) (.fail cCAP_POISON o)))) ∧
    (¬damaged → s.mbox s.gta mb = none → exec (.mbPeek mb d) s = .next (s.raise cENGINE 17) ∧
      (s.me.occ ≠ .codelet → RoomForWindow s → Droppable s d → exec (.mbRecv la a mb d) s = .next (s.raise cENGINE 17))) ∧
    (∀ b D, ¬damaged → s.mbox s.gta mb = some (b, D) → s.badw = [] →
      (s.me.occ ≠ .codelet → RoomForWindow s → Droppable s d →
        let u := s.mbRelease s.cur mb
        (∀ r, sget [] (s.tile s.gta).mbWaits mb = [] → nextMsg (u.mbGet s.gta b 16 8) (u.recs s.gta mb) = some r →
          ∃ t, exec (.mbRecv la a mb d) s = .next t ∧ Pending s t ∧ Opened s t la (.mbRecv la a mb d)
              (.done { xs := [(a, BitVec.ofNat 64 (64 + r.pos % D))], cs := [(d, r.cap)], acquire := true }) ∧
            sget 0 t.me.taken mb = r.id + 1) ∧
        (nextMsg (u.mbGet s.gta b 16 8) (u.recs s.gta mb) = none ∨ sget [] (s.tile s.gta).mbWaits mb ≠ [] →
          ∃ t w, exec (.mbRecv la a mb d) s = .next t ∧ Pending s t ∧ SameMem u t ∧
            Opened s t la (.mbRecv la a mb d) (.wait (.recv mb a d)) ∧ t.me.wins.getLast? = some w ∧
            w.lim = (if s.me.wlim = 0 then none else some s.me.wlim.toNat) ∧ sget 0 t.me.taken mb = 0 ∧
            sget [] (t.tile s.gta).mbWaits mb = sget [] (s.tile s.gta).mbWaits mb ++ [(s.cur, s.me.nextWid)])) ∧
      (∀ r, nextMsg (s.mbGet s.gta b 16 8) (s.recs s.gta mb) = some r →
        Gives (.mbPeek mb d) s d (BitVec.ofNat 64 (s.mbGet s.gta b (64 + r.pos % D) 8))) ∧
      (nextMsg (s.mbGet s.gta b 16 8) (s.recs s.gta mb) = none → Gives (.mbPeek mb d) s d (BitVec.allOnes 64)))
/-- 10 R263: the message taken next has the lowest priority value among those visible and not taken. -/
def Sys2Proof.Claim.MessageOrder : Prop :=
  ∀ (vis : Nat) (rs : List MRec) (r : MRec), nextMsg vis rs = some r →
    r ∈ rs ∧ r.complete = true ∧ r.pos < vis ∧ r.taken = false ∧
      ∀ y ∈ rs, y.id ≠ 0 → y.complete = true → y.pos < vis → y.taken = false → y.pri < 4 → r.pri ≤ y.pri

/-- 10 R255, R262: a message that is all there leaves the engine: its header is written and its record complete; vis passes every
complete record at the front, unless the port's tile is stopped (16 R390). A byte copy that is all there carries its new object
from then on, and the old one is freed. No strand waits in the mailbox, no word of memory is poisoned, and the bytes written hold
neither a live descriptor nor capabilities. 10 R263, R267, R268: mb.recv releases the message that its strand has taken from the
mailbox before, and takes the next visible one: its place in the buffer into x[a] and its capability into c[d] when the window
closes; it waits, bounded by wlim, when there is none or another strand waits before it; mb.peek reads the next one's header, or
all ones when there is none. A mailbox that is not registered is ENGINE 17, and mb.recv of a codelet ILLEGAL; a registration entry
that holds an uncorrectable error is MCHECK (05 R137), and a header that holds a poisoned word CAP_POISON, deferred for mb.recv,
with the buffer poisoned (13 R345). 10 R263: the message taken next has the lowest priority value among those visible and not
taken. -/
def Obligations.MailboxMessages : Prop := MessageEnds ∧ MailboxReceives ∧ MessageOrder


/-! ### Rings and churn -/

/-- What a ring instruction of this strand asks of its ring capability, and the header that the port finds (10 R270, R271). -/
def Sys2Proof.Claim.RingOf (s : State) (c : Cap) (need : List Nat) (write : Bool) (i : Nat) (r : Ring) : Prop :=
  c ≠ .null ∧ need.any c.has = true ∧ oidPort c.o < 68 ∧ c.b % 64 = 0 ∧ s.ringAtPort c s.gta s.me.lkey write i = .ok r
/-- Nothing waits at the ring at flat address `a`: no parked pop, no push with a sequence number but that of command `id`, and no chunk of a
loader. -/
def Sys2Proof.Claim.RingQuiet (s : State) (a id : Nat) : Prop :=
  s.parkedPops = [] ∧ (∀ p ∈ s.subs, ∀ u, p.2 = some u → u.resv = none) ∧ ∀ c ∈ s.cmds, c.id ≠ id → ∀ ring src d wl data q, c.op = .push ring src d wl data (some q) → s.ringAddr ring ≠ a
/-- The bytes of a pop: header and data of the slot at cursor i, at most as many as the destination has (10 R273). -/
def Sys2Proof.Claim.popBytes (s : State) (r : Ring) (i : Nat) (dst : Cap) : List Byte :=
  (mbytes s.mem (r.slotAt (s.cursor r i)) (min (8 + bits (mnat s.mem (r.slotAt (s.cursor r i)) 8) 48 15) (2 ^ r.lslot))).take dst.l
/-- Slot q holds its header and the data, pseq is past it, and every other byte of memory is as before (10 R272). -/
def Sys2Proof.Claim.Pushed (s t : State) (r : Ring) (q : Nat) (data : List Byte) : Prop :=
  mnat t.mem (r.a + 8) 6 = (q + 1) % 2 ^ 48 ∧ mnat t.mem (r.slotAt q) 6 = q ∧ mnat t.mem (r.slotAt q + 6) 2 = data.length ∧
    mbytes t.mem (r.slotAt q + 8) data.length = data ∧
    ∀ a, (a < r.a + 8 ∨ r.a + 14 ≤ a) → (a < r.slotAt q ∨ r.slotAt q + 8 + data.length ≤ a) → mget t.mem a = mget s.mem a

/-- The instructions on rings (10 R272 to R274). -/
def Sys2Proof.Claim.RingInstructions : Prop :=
  ∀ (s : State) (la a b d imm : Nat) (r : Ring), RoomForWindow s →
    (s.me.occ ≠ .codelet → EngineFree s false [(s.c a).o, (s.c b).o] → s.c a ≠ .null → ((s.c a).has rW = true ∨ (s.c a).has rL = true) →
      oidPort (s.c a).o < 68 → (s.c a).b % 64 = 0 → s.c b ≠ .null → (s.c b).has rR = true →
      Accepted (.rgPush la a b d) s la false (.push (s.c a) (s.c b) d s.me.wlim [] none) (.wait (.cmd s.nextId))) ∧
    (s.me.occ ≠ .codelet → imm < 8 → RingOf s (s.c a) [rR, rL] false imm r → s.ringHeld s.cur (s.c a).o = false →
      s.heldBy (s.c d) true = false → (s.c d = .null ∨ (s.c d).has rW = true) →
      (s.popReady r imm = false → exec (.rgPop la a imm d) s =
        .next (s.openW la (.rgPop la a imm d) (.wait (.pop (s.c a) (s.c d) imm s.me.lkey)) (if s.me.wlim = 0 then none else some s.me.wlim.toNat))) ∧
      (s.popReady r imm = true → s.c d = .null →
        exec (.rgPop la a imm d) s = .next (s.openW la (.rgPop la a imm d) (.done { acquire := true }))) ∧
      (s.popReady r imm = true → s.c d ≠ .null → isSram (s.c d).o = true → isWindow (s.c d).o = false → s.me.restartable = false →
        s.check18 (s.c d) s.gta s.me.lkey true = none → Writable s (s.c d) ((s.c d).b : Int) (popBytes s r imm (s.c d)).length →
        s.slotBad (s.c a) r (s.cursor r imm) (min (8 + bits (mnat s.mem (r.slotAt (s.cursor r imm)) 8) 48 15) (2 ^ r.lslot)) = 0 →
        ∃ t, exec (.rgPop la a imm d) s = .next t ∧ Pending s t ∧ Opened s t la (.rgPop la a imm d) (.done { acquire := true }) ∧
          ∀ x, mget t.mem x = mget (storedAt s (s.c d) [((s.c d).b, popBytes s r imm (s.c d))]) x)) ∧
    (imm < 16 → RingOf s (s.c a) (if imm < 8 then [rR, rL] else [rW, rL]) (8 ≤ imm) (imm % 8) r → s.ringStores s.cur (s.c a).o = false →
      RingQuiet s r.a 0 → (∀ c ∈ s.cmds, c.id ≠ 0) → imm % 8 < r.ncons → s.noWrite (r.a + 16 + 6 * (imm % 8)) 6 = false →
      (8 ≤ imm → s.noWrite (r.slotAt (s.cursor r (imm % 8)) + 6) 2 = false) → mnat s.mem (r.slotAt (s.cursor r (imm % 8))) 6 = s.cursor r (imm % 8) →
      let q := s.cursor r (imm % 8)
      let w := mnat s.mem (r.slotAt q + 6) 2
      ∃ t, exec (.rgDone a imm) s = .next t ∧ SameX s t ∧ SameC s t ∧ SameV s t ∧ SameM s t ∧ SameF s t ∧ SameSpecials s t ∧
        Advanced s t 4 ∧ mnat t.mem (r.a + 16 + 6 * (imm % 8)) 6 = (q + 1) % 2 ^ 48 ∧
        mnat t.mem (r.slotAt q + 6) 2 = (if imm < 8 then w else w % 2 ^ 15 + 2 ^ 15) ∧
        ∀ x, (x < r.a + 16 + 6 * (imm % 8) ∨ r.a + 16 + 6 * (imm % 8) + 6 ≤ x) → (x < r.slotAt q + 6 ∨ r.slotAt q + 8 ≤ x) →
          mget t.mem x = mget s.mem x)

/-- 10 R272 to R274: rg.push joins the move queue; rg.pop copies the slot at its cursor when it is there, and waits otherwise; rg.done
passes its cursor on and, with its write bit, marks the slot. A push whose data has arrived takes the next sequence number: the slot is
written when every cursor has passed its last use, and otherwise the push waits. -/
def Obligations.Rings : Prop :=
  RingInstructions ∧
  ∀ (s : State) (id : Nat) (c : Cmd) (ring src : Cap) (d : Nat) (wl : Word) (data : List Byte) (r : Ring),
    s.cmds.find? (fun c => c.id == id) = some c → c.op = .push ring src d wl data none → c.went = true → c.fin = false →
    s.ringAtPort ring c.g c.lkey true 0 = .ok r → data.length + 8 ≤ 2 ^ r.lslot → s.noWrite (r.a + 8) 6 = false → RingQuiet s r.a id →
    (s.pushRoom r r.pseq = true → s.slotRefused ring r r.pseq (8 + data.length) = false → ∃ t, exec (.ringSlotWrite id) s = .next t ∧ Pushed s t r r.pseq data ∧
      ∃ x ∈ t.cmds, x.id = id ∧ x.fin = true) ∧
    (s.pushRoom r r.pseq = false → ∃ t, exec (.ringSlotWrite id) s = .next t ∧ mnat t.mem (r.a + 8) 6 = (r.pseq + 1) % 2 ^ 48 ∧
      (∀ a, (a < r.a + 8 ∨ r.a + 14 ≤ a) → mget t.mem a = mget s.mem a) ∧
      ∃ x ∈ t.cmds, x.id = id ∧ x.op = .push ring src d wl data (some r.pseq))

/-- Everything that ch.sub asks of its parameter word and its two capabilities (10 R275, R276). -/
def Sys2Proof.Claim.MaySubscribe (s : State) (a b d : Nat) : Prop :=
  let p := s.xn d
  let h := bits p 20 12
  let loader := bits p 62 2 == 1
  badSubParam p = false ∧ (h < 3840 ∨ s.me.mode ≠ .u) ∧ sget 0 s.badh (s.gta * 4096 + h) = 0 ∧ sget 0 s.badh (s.gta * 4096 + (h + 1)) = 0 ∧
    s.holdAt s.gta h = .null ∧ s.holdAt s.gta (h + 1) = .null ∧ s.claimed s.gta h = false ∧ s.claimed s.gta (h + 1) = false ∧
    s.c a ≠ .null ∧ (s.c a).has rL = true ∧ oidPort (s.c a).o < 68 ∧ (s.c a).b % 64 = 0 ∧ s.c b ≠ .null ∧ oidPort (s.c b).o = 68 ∧
    (if loader then (s.c b).has rR = true ∧ (s.c b).has rQ = true else (s.c b).isOwner = true ∧ (s.c b).has rW = true) ∧
    s.check18 (s.c a) s.gta s.me.lkey loader = none ∧ s.check18 (s.c b) s.gta s.me.lkey (!loader) = none

/-- Neither of the holding entries h and h + 1 registers a mailbox (10 R257). -/
def Sys2Proof.Claim.NoMailbox (h : Nat) : Prop := h + 1 < 3840 ∨ 3848 ≤ h
/-- 10 R275, R276, R278: ch.sub makes a subscription of the stack that holds the object, takes its two capabilities and claims two
holding entries; with every subscription in use it answers all ones and puts the capabilities into the entries. ch.unsub answers all
ones where there is none of its tile, the status of one that has ended, and otherwise stops it and waits. -/
def Sys2Proof.Claim.Subscribing : Prop :=
  ∀ (s : State) (la a b d : Nat), RoomForWindow s →
    (MaySubscribe s a b d → ∃ t, (exec (.chSub la a b d) s = .next t ∧ SameX s t ∧ SameV s t ∧ SameM s t ∧
      (s.freeSub (stackOf (s.c b).o) ≠ none ∨ NoMailbox (bits (s.xn d) 20 12) → SameMem s t) ∧
      (∀ n, t.c n = if n = a ∨ n = b then (if n = 0 then s.c 0 else .null) else s.c n)) ∧
      (∀ id, s.freeSub (stackOf (s.c b).o) = some id →
        Opened s t la (.chSub la a b d) (.done { xs := [(d, BitVec.ofNat 64 id)] }) ∧
        t.claimed s.gta (bits (s.xn d) 20 12) = true ∧ t.claimed s.gta (bits (s.xn d) 20 12 + 1) = true ∧
        ∃ u, t.sub id = some u ∧ u.tile = s.gta ∧ u.ring = s.c a ∧ u.obj = s.c b ∧ u.loader = (bits (s.xn d) 62 2 == 1) ∧
          u.cur = bits (s.xn d) 59 3 ∧ u.chunk = 8 * bits (s.xn d) 32 16 ∧ u.h = bits (s.xn d) 20 12 ∧ u.count = bits (s.xn d) 0 20 ∧
          u.moved = 0 ∧ u.ended = false) ∧
      (s.freeSub (stackOf (s.c b).o) = none → Opened s t la (.chSub la a b d) (.done { xs := [(d, BitVec.allOnes 64)] }) ∧
        t.holdAt s.gta (bits (s.xn d) 20 12) = s.c a ∧ t.holdAt s.gta (bits (s.xn d) 20 12 + 1) = s.c b)) ∧
    ((∀ u, s.sub (s.xn a) = some u → u.tile ≠ s.gta) →
      exec (.chUnsub la a d) s = .next (s.openW la (.chUnsub la a d) (.done { xs := [(d, BitVec.allOnes 64)] }))) ∧
    (∀ u, s.sub (s.xn a) = some u → u.tile = s.gta → u.returned = true →
      ∃ t, exec (.chUnsub la a d) s = .next t ∧ Pending s t ∧ SameMem s t ∧ t.sub (s.xn a) = none ∧
        Opened s t la (.chUnsub la a d) (.done { xs := [(d, u.status)] })) ∧
    (∀ u, s.sub (s.xn a) = some u → u.tile = s.gta → u.returned = false →
      ∃ t, exec (.chUnsub la a d) s = .next t ∧ Pending s t ∧ SameMem s t ∧ Opened s t la (.chUnsub la a d) (.wait (.cmd 0)) ∧
        t.sub (s.xn a) = some { u with stopReq := u.stopReq ++ [(s.cur, s.me.nextWid, d)] })

/-- The slot at the storer's cursor: its word of 8 bytes. -/
def Sys2Proof.Claim.slotWord (s : State) (r : Ring) (i : Nat) : Nat := mnat s.mem (r.slotAt (s.cursor r i)) 8
/-- 10 R277, R278: a loader pushes its next chunk, or the empty slot that ends its stream, and waits with its sequence number when
the slot is not free; a storer passes the slot at its cursor on,
after writing its bytes at the chunk's place in the object where the slot is marked to be written; a subscription that has ended gives
its capabilities back. -/
def Obligations.Churn : Prop :=
  Subscribing ∧
  (∀ (s : State) (id : Nat) (u : Sub) (r : Ring), s.sub id = some u → u.loader = true → u.ended = false → u.stopReq = [] →
    s.ringAtPort u.ring u.tile u.lkey true 0 = .ok r → s.check18 u.obj u.tile u.lkey false = none →
    RingQuiet s r.a 0 → (∀ c ∈ s.cmds, c.id ≠ 0) →
    let n := if u.total ≤ u.moved then 0 else min u.chunk (u.obj.l - u.moved * u.chunk)
    let off := u.obj.b + u.moved * u.chunk
    n + 8 ≤ 2 ^ r.lslot → s.noWrite (r.a + 8) 6 = false → s.rangeHere u.obj.o (s.entry u.obj.o) off n = true → s.badIn u.obj.o (s.entry u.obj.o) off n = 0 →
    (s.pushRoom r r.pseq = true → s.slotRefused u.ring r r.pseq (8 + n) = false →
      ∃ t, exec (.churnLoaderPush id) s = .next t ∧ Pushed s t r r.pseq (s.readObj u.obj.o (s.entry u.obj.o) off n) ∧
        t.sub id = some (if u.total ≤ u.moved then { u with ended := true } else { u with moved := u.moved + 1 })) ∧
    (s.pushRoom r r.pseq = false →
      ∃ t, exec (.churnLoaderPush id) s = .next t ∧ mnat t.mem (r.a + 8) 6 = (r.pseq + 1) % 2 ^ 48 ∧
        (∀ a, (a < r.a + 8 ∨ r.a + 14 ≤ a) → mget t.mem a = mget s.mem a) ∧
        t.sub id = some { u with resv := some (r.pseq, s.readObj u.obj.o (s.entry u.obj.o) off n) })) ∧
  (∀ (s : State) (id : Nat) (u : Sub) (r : Ring), s.sub id = some u → u.loader = false → u.ended = false → u.stopReq = [] →
    s.ringAtPort u.ring u.tile u.lkey false u.cur = .ok r → s.check18 u.obj u.tile u.lkey true = none → s.popReady r u.cur = true →
    u.cur < r.ncons → s.noWrite (r.a + 16 + 6 * u.cur) 6 = false → RingQuiet s r.a 0 → (∀ c ∈ s.cmds, c.id ≠ 0) → r.a + 64 ≤ 32768 * 2 ^ 48 →
    oidPort u.obj.o = 68 → (s.entry u.obj.o).ext = false →
    let len := min (bits (slotWord s r u.cur) 48 15) (2 ^ r.lslot - 8)
    let off := (seqDiff (s.cursor r u.cur) u.s0).toNat * u.chunk
    let wr := tbit (slotWord s r u.cur) 63 && len ≠ 0
    (wr = true → off + len ≤ u.obj.l ∧ s.rangeHere u.obj.o (s.entry u.obj.o) (u.obj.b + off) len = true ∧
      (s.entry u.obj.o).base + u.obj.b + off + len ≤ 2 ^ 40 ∧
      s.versionEnd u.obj.o (s.entry u.obj.o) (u.obj.b + off) len = false ∧ s.slotBad u.ring r (s.cursor r u.cur) (8 + len) = 0) →
    ∃ t, exec (.churnStorerWrite id) s = .next t ∧ mnat t.mem (r.a + 16 + 6 * u.cur) 6 = (s.cursor r u.cur + 1) % 2 ^ 48 ∧
      (wr = true → t.objBytes u.obj.o (s.entry u.obj.o) (u.obj.b + off) len = mbytes s.mem (r.slotAt (s.cursor r u.cur) + 8) len) ∧
      ∃ u', t.sub id = some u' ∧ u'.done = u.done + 1 ∧ u'.moved = u.moved + (if wr then 1 else 0) ∧
        u'.ended = (decide (len = 0) || (u.count ≠ 0 && u.count ≤ u.done + 1))) ∧
  (∀ (s : State) (id : Nat) (u : Sub), s.sub id = some u → u.returned = false → u.resv = none →
    (u.ended = true → u.stopReq = [] → ∃ t, exec (.subscriptionEnd id) s = .next t ∧ t.holdAt u.tile u.h = u.ring ∧
      t.holdAt u.tile (u.h + 1) = u.obj ∧ t.claimed u.tile u.h = false ∧ t.claimed u.tile (u.h + 1) = false ∧
      t.sub id = some { u with ended := true, returned := true } ∧ (NoMailbox u.h → t.slots = s.slots ∧ t.mem = s.mem)) ∧
    (∀ k w d, u.stopReq = [(k, w, d)] → ∃ t, exec (.subscriptionEnd id) s = .next t ∧ t.holdAt u.tile u.h = u.ring ∧
      t.holdAt u.tile (u.h + 1) = u.obj ∧ t.sub id = none ∧ (NoMailbox u.h → t.mem = s.mem) ∧
      ∀ x ∈ (t.slot k).wins, x.id = w → x.st = .done { xs := [(d, u.status)] }))

/-! ### Codelets, strands, borrowed slots, tags -/

/-- The pool address of the descriptor that c names. -/
def Sys2Proof.Claim.descAt (s : State) (c : Cap) : Nat := (s.entry c.o).base + c.b
/-- The capability of a descriptor: owned or a write delegate of the tile's own pool, 64 bytes, aligned, admitted by the port, its bytes
without an uncorrectable error (11 R303, 13 R345). -/
def Sys2Proof.Claim.DescCap (s : State) (c : Cap) : Prop :=
  c ≠ .null ∧ c.has rW = true ∧ isOwn s.gta c.o = true ∧ 64 ≤ c.l ∧ c.b % 64 = 0 ∧
    s.check18 c s.gta s.me.lkey true = none ∧ s.badIn c.o (s.entry c.o) c.b 64 = 0
/-- The ready queue of a priority. -/
def Sys2Proof.Claim.queue (s : State) (g pr : Nat) : List (Nat × Bool) := sget [] (s.tile g).ready pr
/-- The last descriptor of the queue lies in the ready ring (11 R287): a new one needs no link. -/
def Sys2Proof.Claim.TailInRing (s : State) (g pr : Nat) : Prop := ∀ p, (queue s g pr).getLast? ≠ some (p, false)

/-- 11 R303: cdl.new. -/
def Sys2Proof.Claim.NewCodelets : Prop :=
  ∀ (s : State) (a b d : Nat), DescCap s (s.c a) → s.xn b < 2 ^ 32 → s.badDescriptor s.gta (descAt s (s.c a)) = false →
    (s.me.mode = .u → ∀ k, k < 4 → s.darg s.gta (descAt s (s.c a)) k < 3840 ∨ s.darg s.gta (descAt s (s.c a)) k = 0xFFFF) →
    (s.dstate s.gta (descAt s (s.c a)) ≠ 0 → exec (.cdlNew a b d) s = .next (s.raise cENGINE 36)) ∧
    (s.dstate s.gta (descAt s (s.c a)) = 0 → TailInRing s s.gta (s.dget s.gta (descAt s (s.c a)) 5 1 % 4) →
      let p := descAt s (s.c a)
      let stamp := (s.dget s.gta p 6 2 + 1) % 2 ^ 16
      ∃ t, exec (.cdlNew a b d) s = .next t ∧ WroteX s t d (BitVec.ofNat 64 (mkHandle stamp s.gta p)) ∧ SameC s t ∧ SameV s t ∧
        SameM s t ∧ SameF s t ∧ SameSpecials s t ∧ Advanced s t 4 ∧ OthersButWins s t ∧
        t.dget s.gta p 6 2 = stamp ∧ t.dget s.gta p 12 4 = (s.tile s.gta).runid % 2 ^ 32 ∧ t.dget s.gta p 0 4 = s.xn b ∧
        t.dget s.gta p 0x20 2 = 0 ∧
        (s.xn b ≠ 0 → t.dstate s.gta p = 1 ∧ (p < 2 ^ 21 → s.gta < 4096 → t.matches_ (mkHandle stamp s.gta p) = true)) ∧
        (s.xn b = 0 → p ≠ initialDesc → t.dstate s.gta p = 2 ∧ queue t s.gta (s.dget s.gta p 5 1 % 4) =
          queue s s.gta (s.dget s.gta p 5 1 % 4) ++ [(p, decide ((s.tile s.gta).ringUsed < 256))]) ∧
        ∀ x, x < flat (ownSp s.gta) p ∨ flat (ownSp s.gta) p + 64 ≤ x → mget t.mem x = mget s.mem x)

/-- The counter of the descriptor named by handle h goes from m to m − n, and the descriptor becomes Ready at 0 (11 R304). -/
def Sys2Proof.Claim.Decremented (s t : State) (h m n : Nat) : Prop :=
  (m ≠ n ∨ n = 0 ∨ TailInRing s (hHome h) (s.dget (hHome h) (hAddr h) 5 1 % 4) → t.dget (hHome h) (hAddr h) 0 4 = m - n) ∧
    (m ≠ n → (∀ x, x < flat (ownSp (hHome h)) (hAddr h) ∨ flat (ownSp (hHome h)) (hAddr h) + 4 ≤ x → mget t.mem x = mget s.mem x)) ∧
    (m = n → n ≠ 0 → hAddr h ≠ initialDesc → TailInRing s (hHome h) (s.dget (hHome h) (hAddr h) 5 1 % 4) →
      t.dstate (hHome h) (hAddr h) = 2 ∧ queue t (hHome h) (s.dget (hHome h) (hAddr h) 5 1 % 4) =
        queue s (hHome h) (s.dget (hHome h) (hAddr h) 5 1 % 4) ++ [(hAddr h, decide ((s.tile (hHome h)).ringUsed < 256))])

/-- 11 R303, R304, R288, R290, R305, 05 R135: cdl.new makes a descriptor live with a new stamp and its counter, Ready at once for 0;
cdl.dec subtracts and refuses a handle that does not match, takes a deferred CAP_POISON at a descriptor whose first word is poisoned (13
R345; log 116), and in a restartable codelet is held until it ends (R292); a dispatch starts the first Ready descriptor in the lowest Empty codelet slot;
cdl.done empties the slot and frees the descriptor; an aborted codelet is Ready again. -/
def Obligations.Codelets : Prop :=
  NewCodelets ∧
  (∀ (s : State) (la a b : Nat), RoomForWindow s → badHandle (s.xn a) = false → s.xn b < 2 ^ 32 → s.me.restartable = false →
    s.foreign s.gta (mkOid (hHome (s.xn a) / 64) (hHome (s.xn a) % 64) 0) = false →
    (s.descBad (s.xn a) = true →
      let p := flat (ownSp (hHome (s.xn a))) (hAddr (s.xn a))
      exec (.cdlDec la a b) s = .next ((s.poisonWord p).openW la (.cdlDec la a b) (.fail cCAP_POISON (s.objAt p)))) ∧
    (s.descBad (s.xn a) = false → s.matches_ (s.xn a) = true → s.xn b ≤ s.dget (hHome (s.xn a)) (hAddr (s.xn a)) 0 4 →
      ∃ t, exec (.cdlDec la a b) s = .next t ∧ Pending s t ∧ Opened s t la (.cdlDec la a b) (.done {}) ∧
        Decremented s t (s.xn a) (s.dget (hHome (s.xn a)) (hAddr (s.xn a)) 0 4) (s.xn b)) ∧
    (s.descBad (s.xn a) = false → s.matches_ (s.xn a) = false → hHome (s.xn a) = s.gta → exec (.cdlDec la a b) s = .next (s.raise cENGINE 32)) ∧
    (s.descBad (s.xn a) = false → s.matches_ (s.xn a) = false → hHome (s.xn a) ≠ s.gta →
      exec (.cdlDec la a b) s = .next (s.openW la (.cdlDec la a b) (.fail cENGINE 32)))) ∧
  (∀ (s : State) (la a b : Nat), RoomForWindow s → badHandle (s.xn a) = false → s.xn b < 2 ^ 32 → s.me.restartable = true →
    s.me.cbufUsed + 24 ≤ 4096 →
    ∃ t, exec (.cdlDec la a b) s = .next t ∧ Pending s t ∧ SameMem s t ∧ OnlyMe s t ∧ Opened s t la (.cdlDec la a b) (.done {}) ∧
      t.me.cbuf = s.me.cbuf ++ [.dec (s.xn a) (s.xn b)] ∧ t.me.cbufUsed = s.me.cbufUsed + 24) ∧
  (∀ (s : State) (g pr a i : Nat) (ring : Bool), (s.tile g).readyHead = some (pr, a, ring) → s.dispatchSlot g = some i →
    (s.slot (g * 16 + i)).occ = .empty →
    (s.tile g).run = true → (s.tile g).fenced = false → (s.tile g).tstop = false → s.worldOpen g = true →
    (s.tile g).dispatchAt ≤ s.cycle →
    let seg := if a = initialDesc then (s.tile g).entryseg else s.dget g a 8 1
    let off := if a = initialDesc then mnat s.mem (flat (ownSp g) 8) 2 else s.dget g a 10 2
    ∃ t, exec (.codeletDispatch g) s = .next t ∧ queue t g pr = (queue s g pr).drop 1 ∧ (t.tile g).dispatchAt = s.cycle + 4 ∧
      (a ≠ initialDesc → t.dstate g a = 3) ∧
      (∀ x, a = initialDesc ∨ x ≠ flat (ownSp g) (a + 4) → mget t.mem x = mget s.mem x) ∧
      (∀ k, k ≠ g * 16 + i → { t.slot k with wins := [] } = { s.slot k with wins := [] }) ∧
      (let u := t.slot (g * 16 + i)
       u.occ = .codelet ∧ u.mode = .u ∧ u.desc = a ∧ u.restartable = true ∧ u.getX 10 = BitVec.ofNat 64 (s.tile g).rank ∧
         u.getX 11 = BitVec.ofNat 64 i ∧ u.getC 1 = s.launchCap g ∧ u.nextAt = s.cycle + (if ring then 16 else 24) ∧
         ∀ pc, (s.tile g).resolve (seg * 0x2000 + off) = some pc → u.pc = BitVec.ofNat 64 pc)) ∧
  (∀ (s : State), s.me.occ = .codelet → s.me.wins = [] → s.cmdsLive s.cur = false → s.me.cbuf = [] →
    s.late.any (·.1 == s.cur) = false →
    ∃ t, exec .cdlDone s = .next t ∧ t.me.occ = .empty ∧ t.me.x = s.me.x ∧ t.me.v = s.me.v ∧ t.me.c = [] ∧ t.me.c15s = .null ∧
      (s.me.desc ≠ 0 → s.me.desc ≠ initialDesc → t.dstate s.gta s.me.desc = 0)) ∧
  (∀ (s : State) (k : Nat), (s.slot k).occ = .codelet → (s.slot k).restartable = true → s.frozen k = false →
    ((∃ w ∈ (s.slot k).wins, ∃ c lk q r, w.st = .wait (.resident c lk q r)) ∨ ∃ p ∈ s.late, p.1 = k) → (∀ pr, TailInRing s (k / 16) pr) →
    ∃ t, exec (.codeletAbort k) s = .next t ∧ (t.slot k).occ = .empty ∧ (t.slot k).cbuf = [] ∧
      ((s.slot k).desc ≠ 0 → (s.slot k).desc ≠ initialDesc → t.dstate (k / 16) (s.slot k).desc = 2)) ∧
  ∀ (s : State), s.me.occ ≠ .codelet → exec .cdlDone s = .next (s.raise cILLEGAL ((encode .cdlDone).getD 0))

/-- A strand that enters an Empty slot (03 R66): its slot, as far as every entry gives it. -/
def Sys2Proof.Claim.EnteredSlot (s t : State) (g i seg : Nat) : Prop :=
  (t.slot (g * 16 + i)).occ = .persistent ∧ (t.slot (g * 16 + i)).mode = .u ∧
    ∀ pc, (s.tile g).resolve seg = some pc → (t.slot (g * 16 + i)).pc = BitVec.ofNat 64 pc
/-- The lowest Empty persistent slot of tile g. -/
def Sys2Proof.Claim.EmptySlot (s : State) (g : Nat) : Option Nat :=
  (List.range (min 16 (s.tile g).pers)).find? fun i => (s.slot (g * 16 + i)).occ == .empty

/-- 11 R306 to R310: str.new starts a strand in the lowest Empty persistent slot, or answers all ones; str.exit empties its slot, whose registers but the capabilities keep their values;
str.yield lets the other eligible slots issue first, for 64 cycles at most; mig sends the strand's registers to another tile of the run,
where the first of its entry queue enters an Empty slot; one that comes back takes ENGINE 39 with its destination in tval (R310; R302 has
39 there: log 88). -/
def Obligations.Strands : Prop :=
  (∀ (s : State) (a b d : Nat), s.me.occ = .persistent → s.xn a < 2 ^ 21 →
    (EmptySlot s s.gta = none → Gives (.strNew a b d) s d (BitVec.allOnes 64)) ∧
    (∀ i, EmptySlot s s.gta = some i → (s.c b = .null ∨ s.storeBusy s.cur (s.c b).o = false) →
      ∃ t, exec (.strNew a b d) s = .next t ∧ WroteX s t d (BitVec.ofNat 64 i) ∧ WroteC s t b .null ∧ SameMem s t ∧ SameV s t ∧
        SameM s t ∧ SameF s t ∧ SameSpecials s t ∧ Advanced s t 4 ∧ EnteredSlot s t s.gta i (s.xn a) ∧
        (∀ k, k ≠ s.cur → k ≠ s.gta * 16 + i → t.slot k = s.slot k) ∧
        (let u := t.slot (s.gta * 16 + i)
         u.getC 2 = s.c b ∧ u.getC 1 = s.launchCap s.gta ∧ u.getX 10 = BitVec.ofNat 64 (s.tile s.gta).rank ∧
           u.getX 11 = BitVec.ofNat 64 i ∧ u.lkey = s.me.lkey ∧ u.wlim = s.me.wlim))) ∧
  (∀ (s : State) (a b d : Nat), s.me.occ ≠ .codelet → 2 ^ 21 ≤ s.xn a → exec (.strNew a b d) s = .next (s.raise cPC_RANGE (s.xn a))) ∧
  (∀ (s : State), s.me.occ ≠ .codelet → s.me.wins = [] → s.cmdsLive s.cur = false →
    ∃ t, exec .strExit s = .next t ∧ t.me.occ = .empty ∧ t.me.x = s.me.x ∧ t.me.v = s.me.v ∧ t.me.m = s.me.m ∧ t.me.fmode = s.me.fmode ∧
      t.me.mxcfg = s.me.mxcfg ∧ t.me.c = [] ∧ t.me.c15s = .null ∧ t.me.wins = []) ∧
  (∀ (s : State), ∃ t, exec .strYield s = .next t ∧ Local s t 4 ∧ SameX s t ∧ SameC s t ∧ SameV s t ∧ SameM s t ∧ SameF s t ∧
    t.me.yieldUntil = s.cycle + 64 ∧
    ∀ i, i ∈ t.me.yieldFor ↔ i < 16 ∧ s.gta * 16 + i ≠ s.cur ∧ s.eligible (s.gta * 16 + i) = true) ∧
  (∀ (s : State) (k : Nat), (s.slot k).yieldFor ≠ [] → (s.slot k).yieldUntil ≤ s.cycle →
    ∃ t, exec (.yieldExpiry k) s = .next t ∧ t.slot k = { s.slot k with yieldFor := [], age := 0 } ∧ SameMem s t ∧
      ∀ j, j ≠ k → t.slot j = s.slot j) ∧
  (∀ (s : State) (a : Nat), s.me.occ ≠ .codelet → s.xn a < 4096 → (s.tile s.gta).run = true → (s.tile (s.xn a)).run = true →
    (s.tile (s.xn a)).runid = (s.tile s.gta).runid → (∀ n, 2 ≤ n → n < 15 → s.migRefuses (sget .null s.me.c n) (s.xn a) = false) →
    s.me.wins = [] → s.cmdsLive s.cur = false → (∀ o, s.pendingStores s.gta o = [] ∧ s.pendingBufs s.gta o = []) →
    (s.tile (s.xn a)).fenced = false → (∀ x ∈ s.migs, ¬(x.origin = s.gta ∧ x.dest = s.xn a ∧ x.back = false)) →
    (s.tile (s.xn a)).entryQ.length < 4 →
    ∃ t x, exec (.mig a) s = .next t ∧ t.me.occ = .empty ∧ t.me.v = s.me.v ∧ (t.tile (s.xn a)).entryQ = (s.tile (s.xn a)).entryQ ++ [x] ∧
      x.origin = s.gta ∧ x.dest = s.xn a ∧ x.back = false ∧ x.x = s.me.x ∧ x.fmode = s.me.fmode ∧ x.mxcfg = s.me.mxcfg ∧
      x.wlim = s.me.wlim ∧ x.lkey = s.me.lkey ∧ x.instret = s.me.instret + 1 ∧ x.wdog = s.me.wdog ∧ x.tie = s.me.tie ∧
      x.seg = segLink (s.tile s.gta) s.me.pc.toNat ∧ ∀ n, 2 ≤ n → n < 15 → sget .null x.c n = sget .null s.me.c n) ∧
  (∀ (s : State) (g i : Nat) (c : Ctx) (rest : List Ctx), (s.tile g).entryQ = c :: rest → EmptySlot s g = some i →
    (s.tile g).fenced = false → s.worldOpen g = true →
    ∃ t, exec (.migratedStrandEntry g) s = .next t ∧ (t.tile g).entryQ = rest ∧ SameMem s t ∧ EnteredSlot s t g i c.seg ∧
      (∀ k, k ≠ g * 16 + i → t.slot k = s.slot k) ∧
      (let u := t.slot (g * 16 + i)
       u.x = c.x ∧ u.getC 1 = s.launchCap g ∧ (∀ n, 2 ≤ n → u.getC n = sget .null c.c n) ∧ u.fmode = c.fmode ∧ u.mxcfg = c.mxcfg ∧
         u.wlim = c.wlim ∧ u.lkey = c.lkey ∧ u.instret = c.instret ∧ u.wdog = c.wdog ∧ u.tie = c.tie ∧ u.tip = c.tip ∧
         (c.back = true → u.startFault = some (cENGINE, c.dest)))) ∧
  ∀ (s : State) (c : Ctx), s.migs.find? (fun x => x.id == c.id) = some c → c.back = false → (s.tile c.dest).fenced = false →
    (∀ x ∈ s.migs, x.origin = c.origin → x.dest = c.dest → x.back = false → c.id ≤ x.id) → (s.tile c.dest).entryQ.length < 4 →
    ∃ t, exec (.strandEntryRetry c.id) s = .next t ∧ (t.tile c.dest).entryQ = (s.tile c.dest).entryQ ++ [c] ∧
      (∀ x ∈ t.migs, x.id ≠ c.id) ∧ t.slots = s.slots ∧ t.mem = s.mem

/-- 11 R313, R314: a spare or Empty codelet slot can be lent to a strand, which reads and writes its vector registers until it is
returned; a slot that is not lent to the strand is refused. -/
def Obligations.BorrowedSlots : Prop :=
  ∀ (s : State) (a d imm : Nat),
    (s.xn a < 16 → (s.tile s.gta).pers ≤ s.xn a → (s.slot (s.gta * 16 + s.xn a)).occ = .empty → s.gta * 16 + s.xn a ≠ s.cur →
      ∃ t, exec (.slotBorrow a d) s = .next t ∧ WroteX s t d 0 ∧ SameC s t ∧ SameV s t ∧ SameM s t ∧ SameF s t ∧ SameMem s t ∧
        SameSpecials s t ∧ Advanced s t 4 ∧ (t.slot (s.gta * 16 + s.xn a)).occ = .lent s.cur ∧
        (t.slot (s.gta * 16 + s.xn a)).v = (s.slot (s.gta * 16 + s.xn a)).v) ∧
    (¬(s.xn a < 16 ∧ (s.tile s.gta).pers ≤ s.xn a ∧ (s.slot (s.gta * 16 + s.xn a)).occ = .empty) → Gives (.slotBorrow a d) s d 1) ∧
    (s.xn a < 16 → (s.slot (s.gta * 16 + s.xn a)).occ = .lent s.cur → s.gta * 16 + s.xn a ≠ s.cur →
      (∃ t, exec (.slotRet a) s = .next t ∧ SameX s t ∧ SameC s t ∧ SameV s t ∧ SameM s t ∧ SameF s t ∧ SameMem s t ∧ SameSpecials s t ∧
        Advanced s t 4 ∧ (t.slot (s.gta * 16 + s.xn a)).occ = .empty) ∧
      (VFile s [d, imm] [] → tbit (s.slot (s.gta * 16 + s.xn a)).badv imm = false →
        ∃ t, exec (.xmvRd a imm d) s = .next t ∧ LocalV s t 4 d ∧ SameF s t ∧ t.me.getV d = (s.slot (s.gta * 16 + s.xn a)).getV imm) ∧
      (VFile s [d, imm] [d] → ∃ t, exec (.xmvWr a imm d) s = .next t ∧ SameX s t ∧ SameC s t ∧ SameV s t ∧ SameM s t ∧ SameF s t ∧
        SameMem s t ∧ SameSpecials s t ∧ Advanced s t 4 ∧ (t.slot (s.gta * 16 + s.xn a)).getV imm = s.me.getV d ∧
        ∀ n, n ≠ imm → (t.slot (s.gta * 16 + s.xn a)).getV n = (s.slot (s.gta * 16 + s.xn a)).getV n)) ∧
    ((s.slot (s.gta * 16 + s.xn a)).occ ≠ .lent s.cur → s.gta * 16 + s.xn a ≠ s.cur →
      exec (.slotRet a) s = .next (s.raise cENGINE 37) ∧
      (VFile s [d, imm] [] → exec (.xmvRd a imm d) s = .next (s.raise cENGINE 37) ∧
        exec (.xmvWr a imm d) s = .next (s.raise cENGINE 37))) ∧
    (s.xn a < 16 → s.gta * 16 + s.xn a = s.cur →
      (VFile s [d, imm] [imm] →
        ∃ t, exec (.xmvRd a imm d) s = .next t ∧ LocalV s t 4 d ∧ SameF s t ∧ t.me.getV d = s.me.getV imm) ∧
      (VFile s [d, imm] [d] →
        ∃ t, exec (.xmvWr a imm d) s = .next t ∧ LocalV s t 4 imm ∧ SameF s t ∧ t.me.getV imm = s.me.getV d))

/-- The windows with that id of strand k have ended in `st`. -/
def Sys2Proof.Claim.Ended (t : State) (k w : Nat) (st : WinSt) : Prop := ∀ x ∈ (t.slot k).wins, x.id = w → x.st = st
/-- The entry of a key in the tag table of its die. -/
def Sys2Proof.Claim.tagOfKey (s : State) (key : Nat) : Option TagEnt := s.tagEnt (oidDie (key / 2 ^ 16)) key

/-- 11 R311, R312: tag.decl and tag.pub send their request and wait for its answer; in a restartable codelet a declaration is held until
it ends, and answers 4. -/
def Sys2Proof.Claim.TagInstructions : Prop :=
  ∀ (s : State) (la a b d : Nat), RoomForWindow s →
    (DescCap s (s.c a) → s.matches_ (mkHandle (s.dget s.gta (descAt s (s.c a)) 6 2) s.gta (descAt s (s.c a))) = true →
      s.dget s.gta (descAt s (s.c a)) 12 4 = (s.tile s.gta).runid → s.xn d < 2 ^ 44 → bits (s.xn b) 0 16 = 0 → bits (s.xn b) 28 3 = 0 →
      let h := bits (s.xn b) 16 12
      (tbit (s.xn b) 31 = true → (h < 3840 ∨ s.me.mode ≠ .u) ∧ s.holdAt s.gta h = .null ∧ s.claimed s.gta h = false ∧ sget 0 s.badh (s.gta * 4096 + h) = 0) →
      let r : TagReq := { id := s.nextId, k := s.cur, win := s.me.nextWid, g := s.gta, decl := true, cap := s.c a,
                          handle := mkHandle (s.dget s.gta (descAt s (s.c a)) 6 2) s.gta (descAt s (s.c a)), key := s.xn d,
                          gen := bits (s.xn b) 32 32, grant := if tbit (s.xn b) 31 then some h else none, lkey := s.me.lkey, d := d }
      (s.me.restartable = false → ∃ t, exec (.tagDecl la a b d) s = .next t ∧ Pending s t ∧ SameMem s t ∧
        Opened s t la (.tagDecl la a b d) (.wait (.cmd s.nextId)) ∧ t.treqs = s.treqs ++ [r] ∧
        (tbit (s.xn b) 31 = true → t.claimed s.gta h = true)) ∧
      (s.me.restartable = true → s.me.cbufUsed + 24 ≤ 4096 → ∃ t, exec (.tagDecl la a b d) s = .next t ∧ Pending s t ∧ SameMem s t ∧
        Opened s t la (.tagDecl la a b d) (.done { xs := [(d, 4)] }) ∧ t.treqs = s.treqs ∧
        t.me.cbuf = s.me.cbuf ++ [.decl (s.c a) r.handle r.key r.gen r.grant])) ∧
    (s.c a ≠ .null → (s.c a).isOwner = true → (s.c a).has rW = true → bits (s.xn b) 16 16 = 0 → s.amoBusy s.cur = false →
      s.me.restartable = false →
      ∃ t, exec (.tagPub la a b d) s = .next t ∧ Pending s t ∧ SameMem s t ∧ Opened s t la (.tagPub la a b d) (.wait (.cmd s.nextId)) ∧
        t.treqs = s.treqs ++ [{ id := s.nextId, k := s.cur, win := s.me.nextWid, g := s.gta, decl := false, cap := s.c a, handle := 0,
                                key := (s.c a).o * 2 ^ 16 + bits (s.xn b) 0 16, gen := bits (s.xn b) 32 32, grant := none,
                                lkey := s.me.lkey, d := d }])

/-- 11 R295, R296: at its key's home a declaration of a generation that is published decrements its descriptor at once, one of an older
generation is stale, one of a newer one waits; a publication of a newer generation is recorded and releases the waiters that it serves, and
any other is stale. -/
def Obligations.Tags : Prop :=
  TagInstructions ∧
  (∀ (s : State) (r : TagReq), s.treqs.find? (fun x => x.id == r.id && x.decl) = some r → r.win ≠ 0 →
    s.foreign r.g (r.key / 2 ^ 16) = false → s.matches_ r.handle = true → s.descBad r.handle = false →
    (∀ e, tagOfKey s r.key = some e → e.pub = r.gen → r.grant = none → 1 ≤ s.dget (hHome r.handle) (hAddr r.handle) 0 4 →
      ∃ t, exec (.tagDeclAtHome r.id) s = .next t ∧ Ended t r.k r.win (.done { xs := [(r.d, 0)] }) ∧
        Decremented s t r.handle (s.dget (hHome r.handle) (hAddr r.handle) 0 4) 1) ∧
    (∀ e, tagOfKey s r.key = some e → r.gen < e.pub →
      ∃ t, exec (.tagDeclAtHome r.id) s = .next t ∧ Ended t r.k r.win (.fail cTAG_STALE r.key) ∧ t.mem = s.mem ∧ t.tags = s.tags) ∧
    (∀ e, tagOfKey s r.key = some e → e.pub < r.gen → e.waiters.length < 4 →
      ∃ t, exec (.tagDeclAtHome r.id) s = .next t ∧ Ended t r.k r.win (.done { xs := [(r.d, 1)] }) ∧ t.mem = s.mem ∧
        tagOfKey t r.key = some { e with waiters := e.waiters ++ [⟨r.handle, r.gen, r.grant⟩] }) ∧
    (tagOfKey s r.key = none → (s.tile r.g).pslot = 0xFFF → sget {} s.runs 0xFFF = {} → tagUse (sget [] s.tags (oidDie (r.key / 2 ^ 16))) < 65536 →
      ∃ t, exec (.tagDeclAtHome r.id) s = .next t ∧ Ended t r.k r.win (.done { xs := [(r.d, 1)] }) ∧ t.mem = s.mem ∧
        tagOfKey t r.key = some { key := r.key, waiters := [⟨r.handle, r.gen, r.grant⟩] })) ∧
  (∀ (s : State) (r : TagReq), s.treqs.find? (fun x => x.id == r.id && !x.decl) = some r →
    oidDie (r.key / 2 ^ 16) = oidDie r.cap.o → s.lateOn r.k r.cap.o = false → s.drains r.k r.id = false → (∀ w ∈ (s.slot r.k).wins, w.id < r.win → w.storeOn r.cap.o = false) →
    s.check16 r.cap r.g = none →
    (∀ e, tagOfKey s r.key = some e → r.gen ≤ e.pub →
      ∃ t, exec (.tagPubAtHome r.id) s = .next t ∧ Ended t r.k r.win (.fail cTAG_STALE r.key) ∧ t.mem = s.mem ∧ t.tags = s.tags) ∧
    (∀ e, tagOfKey s r.key = some e → e.pub < r.gen →
      ∃ t, exec (.tagPubAtHome r.id) s = .next t ∧
        Ended t r.k r.win (.done { xs := [(r.d, BitVec.ofNat 64 (e.waiters.countP fun w => w.gen ≤ r.gen))] }) ∧
        tagOfKey t r.key = some { e with pub := r.gen, lastRun := (s.tile r.g).runid, base := r.cap.b, len := r.cap.l,
                                         waiters := e.waiters.filter fun w => r.gen < w.gen } ∧
        (∀ w m, e.waiters = [w] → w.gen = r.gen → w.grant = none → s.matches_ w.handle = true → s.descBad w.handle = false →
          s.dget (hHome w.handle) (hAddr w.handle) 0 4 = m → 1 ≤ m → Decremented s t w.handle m 1)))

/-! ### Windows, traps, expiries, stops, saved strands -/

/-- Register n after the writes of a list in order; register 0 keeps its value. -/
def Sys2Proof.Claim.wrote {α : Type} (ps : List (Nat × α)) (f : Nat → α) : Nat → α :=
  ps.foldl (fun f p n => if n = p.1 ∧ p.1 ≠ 0 then p.2 else f n) f
/-- The window of strand k with that id has issued everything that it counts, and its results are there. -/
def Sys2Proof.Claim.MayClose (s : State) (k : Nat) (x : Win) : Prop :=
  (s.slot k).wins.find? (fun y => y.id == x.id) = some x ∧ (x.left = 0 ∨ x.counting = false) ∧ x.wAt ≤ s.cycle ∧
    (s.slot k).closesLater x.id = false
/-- A window of an instruction later than window w's has written that register of the strand in this cycle: kind 0 x, 1 v, 2 c (03 R58). -/
def Sys2Proof.Claim.LaterWrote (s : State) (k w kind n : Nat) : Prop :=
  (s.slot k).closedAt = s.cycle + 1 ∧ ∃ d ∈ (s.slot k).closedDst, w < d.1 ∧ d.2 = (kind, n)
/-- Window w has left strand k, and nothing is different outside the strand. -/
def Sys2Proof.Claim.Closed (s t : State) (k w : Nat) : Prop :=
  (t.slot k).wins.map (·.id) = ((s.slot k).wins.filter fun y => y.id != w).map (·.id) ∧ (∀ j, j ≠ k → t.slot j = s.slot j) ∧
    t.mem = s.mem ∧ (t.slot k).pc = (s.slot k).pc ∧ (t.slot k).mode = (s.slot k).mode

/-- 03 R55, R56, R59, 05 R115: a window that closes writes its registers in order, raises its flags, counts its instruction, and, where it
acquires, empties the tile's L1; one that has failed writes nothing and leaves its fault to be taken. A register that a later instruction's
window has written in the same cycle keeps that value (R58), and with a trap due a window closes only after the older ones (R60). 14 R360: a key.end whose key is in no use takes its last steps whatever windows are older, and its
window closes with 0, or with the status that it waited with once the key is Ending no more. -/
def Obligations.WindowCloses : Prop :=
  (∀ (s : State) (k w : Nat), (s.slot k).closesLater w = true →
    (∀ x, (s.slot k).wins.find? (fun y => y.id == w) = some x → ∀ key st d, x.st ≠ .wait (.keyEnd key st d)) →
    exec (.lookaheadWindowClose k w) s = .fault .notDue) ∧
  (∀ (s : State) (k key st d : Nat) (x : Win), (s.slot k).wins.find? (fun y => y.id == x.id) = some x → x.st = .wait (.keyEnd key st d) →
    (if st = 0 then s.keyBusy key = false else (s.key key).st ≠ .ending) →
    ∃ t, exec (.lookaheadWindowClose k x.id) s = .next t ∧ (st = 0 → (t.key key).st = .ended ∨ (t.key key).st = .free) ∧
      (MayClose s k x → (∀ y ∈ (t.slot k).wins, y.id ≠ x.id) ∧ (d ≠ 0 → ¬LaterWrote s k x.id 0 d → (t.slot k).getX d = BitVec.ofNat 64 st)) ∧
      (¬ MayClose s k x → ∀ y ∈ (t.slot k).wins, y.id = x.id → y.st = .done { xs := [(d, BitVec.ofNat 64 st)] })) ∧
  ∀ (s : State) (k : Nat) (x : Win), MayClose s k x →
    (∀ r, x.st = .done r → r.cs = [] →
      ∃ t, exec (.lookaheadWindowClose k x.id) s = .next t ∧ Closed s t k x.id ∧
        (∀ n, (LaterWrote s k x.id 0 n → (t.slot k).getX n = (s.slot k).getX n) ∧
          (¬LaterWrote s k x.id 0 n → (t.slot k).getX n = wrote r.xs (s.slot k).getX n)) ∧ (t.slot k).instret = (s.slot k).instret + 1 ∧
        (t.slot k).fmode = (s.slot k).fmode ||| BitVec.ofNat 64 r.flags ∧ (t.slot k).c = (s.slot k).c ∧ (t.slot k).m = (s.slot k).m ∧
        (∀ d v, r.vs = [(d, v)] → (LaterWrote s k x.id 1 d → (t.slot k).v = (s.slot k).v ∧ (t.slot k).badv = (s.slot k).badv) ∧
          (¬LaterWrote s k x.id 1 d →
            (t.slot k).getV d = v ∧ tbit (t.slot k).badv d = false ∧ ∀ n, n ≠ d → (t.slot k).getV n = (s.slot k).getV n)) ∧
        (r.vs = [] → (t.slot k).v = (s.slot k).v) ∧ (r.acquire = true → t.l1Of (k / 16) = [])) ∧
    (∀ d v, x.st = .done { cs := [(d, v)] } → LaterWrote s k x.id 2 d → v.has rQ = false → v.has rL = false →
      ∃ t, exec (.lookaheadWindowClose k x.id) s = .next t ∧ Closed s t k x.id ∧ (t.slot k).x = (s.slot k).x ∧ (t.slot k).c = (s.slot k).c ∧
        (t.slot k).c15s = (s.slot k).c15s ∧ (t.slot k).instret = (s.slot k).instret + 1) ∧
    (∀ d v, x.st = .done { cs := [(d, v)] } → ¬LaterWrote s k x.id 2 d → d ≠ 0 → ((s.slot k).getC d).has rQ = false →
      ((s.slot k).getC d).has rL = false →
      ∃ t, exec (.lookaheadWindowClose k x.id) s = .next t ∧ Closed s t k x.id ∧ (t.slot k).x = (s.slot k).x ∧
        (∀ n, (t.slot k).getC n = if n = d then v else (s.slot k).getC n) ∧ (t.slot k).instret = (s.slot k).instret + 1) ∧
    (∀ c v, x.st = .fail c v →
      ∃ t, exec (.lookaheadWindowClose k x.id) s = .next t ∧ Closed s t k x.id ∧ (t.slot k).x = (s.slot k).x ∧ (t.slot k).c = (s.slot k).c ∧
        (t.slot k).v = (s.slot k).v ∧ (t.slot k).m = (s.slot k).m ∧ (t.slot k).fmode = (s.slot k).fmode ∧
        (t.slot k).instret = (s.slot k).instret ∧ (t.slot k).dfs = (s.slot k).dfs ++ [(x.id, c, v, x.addr)])

/-- A strand of a tile at its boundary, with the results of its last instruction written (08 R196), running and not in a trap, whose tvec
resolves to `pc` (13 R336, R338). -/
def Sys2Proof.Claim.AtTrap (s : State) (k pc : Nat) : Prop :=
  k ≠ sepKey ∧ (s.slot k).occ ≠ .empty ∧ (s.slot k).wins = [] ∧ ((s.slot k).mode = .u ∨ (s.slot k).mode = .s) ∧
    (s.slot k).held = false ∧ s.frozen k = false ∧ (s.slot k).nextAt ≤ s.cycle ∧ (s.tile (k / 16)).resolve (s.slot k).tvec.toNat = some pc
/-- 13 R336, R338: at a strand's boundary a deferred fault, the oldest first, is taken before a synchronous fault, and a synchronous one
before an interrupt; the interrupt taken is the highest that is pending and enabled. Each leaves what 13 R336 says. -/
def Obligations.TrapsTaken : Prop :=
  ∀ (s : State) (k pc : Nat), AtTrap s k pc →
    (∀ w c v a, oldestFault (s.slot k).dfs = some (w, c, v, a) → c ≠ cWATCHDOG →
      ∃ t, exec (.trapEntry k) s = .next t ∧ Trapped s t k c v pc ∧ tbit (t.slot k).tstat.toNat 13 = true ∧
        bits (t.slot k).tstat.toNat 16 16 = a % 2 ^ 16 ∧ tbit (t.slot k).tstat.toNat 11 = decide (1 < (s.slot k).dfs.length) ∧
        (t.slot k).dfs = [] ∧ t.mem = s.mem ∧ ∀ j, j ≠ k → t.slot j = s.slot j) ∧
    (∀ c v, (s.slot k).dfs = [] → (s.slot k).sync = some (c, v) → c ≠ cWATCHDOG →
      ∃ t, exec (.trapEntry k) s = .next t ∧ Trapped s t k c v pc ∧ tbit (t.slot k).tstat.toNat 13 = false ∧ t.mem = s.mem ∧
        ∀ j, j ≠ k → t.slot j = s.slot j) ∧
    ((s.slot k).dfs = [] → (s.slot k).sync = none → (s.slot k).stopped = false → (s.slot k).halted = false → wdogDue (s.slot k) = false →
      (s.slot k).stopReq = false → (s.slot k).haltReq = 0 → irqDue (s.slot k) = true →
      ∃ t n, exec (.trapEntry k) s = .next t ∧ 1 ≤ n ∧ n ≤ 4 ∧ tbit ((s.slot k).tie &&& (s.slot k).tip).toNat n = true ∧
        (∀ j, n < j → j ≤ 4 → tbit ((s.slot k).tie &&& (s.slot k).tip).toNat j = false) ∧
        Trapped s t k (2 ^ 63 + n) (if n = 3 then (s.slot k).evset else 0) pc ∧ t.mem = s.mem ∧ ∀ j, j ≠ k → t.slot j = s.slot j) ∧
    ((s.slot k).dfs = [] → (s.slot k).sync = none → (s.slot k).stopped = false → (s.slot k).halted = false → wdogDue (s.slot k) = true →
      ∃ t, exec (.trapEntry k) s = .next t ∧ Trapped s t k cWATCHDOG (if (s.slot k).wdr then (s.slot k).wdAddr else 0) pc ∧
        tbit (t.slot k).tstat.toNat 14 = (s.slot k).wdr ∧ (t.slot k).wdDue = false ∧ t.mem = s.mem)

/-- 12 R319, R321, R332, 13 R342, 05 R125: what happens when a limit, a timer or the watchdog runs out, and the retry of a full/empty
request, and of one that waits for a granule, that found its port's list full. The watchdog withdraws nothing in a single step
(16 R392). A slot of a world in ERROR has no expiry (14 R363). -/
def Obligations.Expiries : Prop :=
  (∀ (s : State) (k : Nat) (x : Win) (y : Wait) (v : Nat), (s.slot k).wins.find? (fun z => z.id == x.id) = some x → x.id ≠ 0 →
    x.st = .wait y → x.lim = some 0 → (s.slot k).wdPend = false → s.frozen k = false →
    ((∃ op c val d l h u, y = .fe op c v val d l h u) ∨ (∃ c gen d, y = .land c v gen d) ∨ (∃ d c, y = .recv v d c) ∨
      (∃ c dst i l, y = .pop c dst i l ∧ c.b = v) ∨ (∃ j c l, y = .save j c l ∧ c.b = v)) →
    ∃ t, exec (.waitLimitExpiry k x.id) s = .next t ∧ Ended t k x.id (.fail cWAIT_LIMIT v) ∧ t.mem = s.mem ∧ t.fe = s.fe ∧
      ∀ j, j ≠ k → t.slot j = s.slot j) ∧
  (∀ (s : State) (k x d post pc : Nat), AtTrap s k pc → (s.slot k).wdPend = false → (s.slot k).hold = some ⟨.barLead x d, some 0, post⟩ →
    ∃ t, exec (.waitLimitExpiry k 0) s = .next t ∧ Trapped s t k cWAIT_LIMIT (bits x 48 16) pc) ∧
  (∀ (s : State) (k : Nat) (x : Win) (v d : Nat), (s.slot k).wins.find? (fun z => z.id == x.id) = some x →
    x.st = .wait (.bar v d) → x.lim = some 0 → (s.slot k).wdPend = false → s.frozen k = false →
    ∃ t, exec (.barWaitLimitExpiry k x.id) s = .next t ∧ Ended t k x.id (.done { xs := [(d, 1)] }) ∧ t.mem = s.mem ∧ t.bars = s.bars) ∧
  (∀ (s : State) (k : Nat), (s.slot k).tmDue = true → s.frozen k = false →
    ∃ t, exec (.timerExpiry k) s = .next t ∧ (t.slot k).tip = (s.slot k).tip ||| 2#64 ∧ t.mem = s.mem ∧ ∀ j, j ≠ k → t.slot j = s.slot j) ∧
  (∀ (s : State) (k : Nat), (s.slot k).wdPend = true → s.frozen k = false → (s.slot k).stopped = false → (s.slot k).halted = false →
    ((s.slot k).held = true ∨ (s.slot k).stepping = true → ∃ t, exec (.watchdogExpiry k) s = .next t ∧ t.slot k = { s.slot k with wdPend := false, wdDue := true } ∧
      t.mem = s.mem) ∧
    ((s.slot k).held = false → (s.slot k).stepping = false → (s.slot k).hold = none → s.parkedWins k = [] →
      ∃ t, exec (.watchdogExpiry k) s = .next t ∧ (t.slot k).wdDue = true ∧ (t.slot k).wins.length = (s.slot k).wins.length ∧
        (t.slot k).wdr = (s.slot k).wdr ∧ t.mem = s.mem) ∧
    (∀ x c off gen d, (s.slot k).held = false → (s.slot k).stepping = false → (s.slot k).hold = none → (s.slot k).wins = [x] → x.st = .wait (.land c off gen d) →
      ∃ t, exec (.watchdogExpiry k) s = .next t ∧ (t.slot k).wdDue = true ∧ (t.slot k).wins = [] ∧ (t.slot k).wdr = true ∧
        (t.slot k).wdAddr = x.addr ∧ (t.slot k).x = (s.slot k).x ∧ t.mem = s.mem) ∧
    (∀ x d l post, (s.slot k).held = false → (s.slot k).stepping = false → (s.slot k).hold = some ⟨.barLead x d, l, post⟩ → s.parkedWins k = [] → (s.slot k).wdr = false →
      ∃ t, exec (.watchdogExpiry k) s = .next t ∧ (t.slot k).wdDue = true ∧ (t.slot k).hold = none ∧ (t.slot k).wdr = true ∧
        (t.slot k).wdAddr = (s.slot k).pc.toNat ∧ t.mem = s.mem ∧ t.bars = s.bars)) ∧
  (∀ (s : State) (k at_ lkey : Nat) (x : Win) (c : Cap) (req : Req), (s.slot k).wins.find? (fun z => z.id == x.id) = some x →
    x.st = .wait (.resident c lkey req (some at_)) → at_ ≤ s.cycle →
    exec (.waitListRetry k x.id) s =
      .next ((s.request k c lkey req (some x.id)).1.endWin k x.id (s.request k c lkey req (some x.id)).2)) ∧
  ∀ (s : State) (k : Nat) (x : Win) (op : FeOp) (c : Cap) (off d : Nat) (val : Word),
    (s.slot k).wins.find? (fun z => z.id == x.id) = some x → s.feWait k x.id = some (op, c, off, val, d) →
    x.st = .wait (.fe op c off val d false false 0) → 0 < x.retryAt → x.retryAt ≤ s.cycle → s.stoppedAt (s.feAddr c off) = none →
    (s.entry c.o).base + off < 2 ^ 48 →
    s.check18 c (k / 16) 0 op.writes = none → s.badIn c.o (s.entry c.o) off 8 = 0 →
    (op.stores = true → s.refusedWrite c.o (s.entry c.o) off 8 = none) →
    (op.ready (s.feBit (s.feAddr c off)) = true → sget [] s.waits (oidSp c.o) = [] →
      ∃ t r, exec (.waitListRetry k x.id) s = .next t ∧ Ended t k x.id (.done r) ∧
        t.feBit (s.feAddr c off) = (match op with
          | .ld => true | .ldt => false | .st => true | .stRel => true | .clr => false | .probe => s.feBit (s.feAddr c off))) ∧
    (op.ready (s.feBit (s.feAddr c off)) = false → (sget [] s.waits (oidSp c.o)).length < 64 →
      ∃ t, exec (.waitListRetry k x.id) s = .next t ∧ t.mem = s.mem ∧ t.fe = s.fe ∧
        sget [] t.waits (oidSp c.o) = sget [] s.waits (oidSp c.o) ++ [(k, x.id)]) ∧
    (op.ready (s.feBit (s.feAddr c off)) = false → 64 ≤ (sget [] s.waits (oidSp c.o)).length →
      ∃ t, exec (.waitListRetry k x.id) s = .next t ∧ t.mem = s.mem ∧ t.fe = s.fe ∧ t.waits = s.waits ∧
        ∀ y ∈ (t.slot k).wins, y.id = x.id → y.retryAt = s.cycle + 64)

/-- The slot operand of an instruction on another slot of the tile, in S mode (12 R324). -/
def Sys2Proof.Claim.SlotOperand (s : State) (a : Nat) : Prop := s.me.mode ≠ .u ∧ s.xn a < 16 ∧ s.gta * 16 + s.xn a ≠ s.cur
/-- A capability that str.save and str.load admit (12 R325). -/
def Sys2Proof.Claim.SaveCap (s : State) (c : Cap) : Prop :=
  c ≠ .null ∧ c.has rR = true ∧ c.has rW = true ∧ isOwn s.gta c.o = true ∧ c.b % 64 = 0 ∧
    1024 + (if (s.tile s.gta).v32 then 4096 else 2048) ≤ c.l
/-- A record at flat address p is not valid for slot i of tile g (12 R325, code 53). -/
def Sys2Proof.Claim.InvalidRecord (s : State) (g p i : Nat) : Prop :=
  let h := mnat s.mem p 8
  tbit h 24 = false ∨ bits h 25 7 ≠ 0 ∨ mnat s.mem (p + 0xEC) 4 ≠ 0 ∨ tbit h 22 ≠ (s.tile g).v32 ∨
    (tbit h 23 = true ∧ i < (s.tile g).pers) ∨ (tbit h 23 = false ∧ (s.tile g).pers ≤ i)
/-- 12 R324, R325: the ENGINE faults 50 to 54 of str.stop, str.save, str.load and str.go. That str.load looks at the slot before the
capability is log 69. -/
def Sys2Proof.Claim.SlotRefusals : Prop :=
  ∀ (s : State) (la a b : Nat), s.me.mode ≠ .u →
    (16 ≤ s.xn a ∨ s.gta * 16 + s.xn a = s.cur →
      exec (.strStop a) s = .next (s.raise cENGINE 50) ∧ exec (.strGo a) s = .next (s.raise cENGINE 50) ∧
      exec (.strSave la a b) s = .next (s.raise cENGINE 50) ∧ exec (.strLoad la a b) s = .next (s.raise cENGINE 50)) ∧
    (SlotOperand s a → RoomForWindow s →
      let k := s.gta * 16 + s.xn a
      ((s.slot k).holds = false → exec (.strSave la a b) s = .next (s.raise cENGINE 51)) ∧
      ((s.slot k).holds = true → s.c b = .null → exec (.strSave la a b) s = .next (s.raise cCAP_NULL b)) ∧
      ((s.slot k).holds = true → s.c b ≠ .null → ¬SaveCap s (s.c b) → exec (.strSave la a b) s = .next (s.raise cENGINE 52)) ∧
      ((s.slot k).occ ≠ .empty → exec (.strLoad la a b) s = .next (s.raise cENGINE 54)) ∧
      ((s.slot k).occ = .empty → s.c b = .null → exec (.strLoad la a b) s = .next (s.raise cCAP_NULL b)) ∧
      ((s.slot k).occ = .empty → s.c b ≠ .null → ¬SaveCap s (s.c b) → exec (.strLoad la a b) s = .next (s.raise cENGINE 52)) ∧
      ((s.slot k).occ = .empty → SaveCap s (s.c b) → s.check18 (s.c b) s.gta s.me.lkey true = none →
        s.badIn (s.c b).o (s.entry (s.c b).o) (s.c b).b (0x400 + (s.tile s.gta).vfile) = 0 →
        InvalidRecord s s.gta (s.saveAt (s.c b)) (s.xn a) →
        exec (.strLoad la a b) s = .next (s.openW la (.strLoad la a b) (.fail cENGINE 53))))

/-- 12 R323 to R330: str.stop asks a slot to stop, which takes effect at its boundary; str.save waits for that, with its lkey; str.load takes
a record, or fails on one with a poisoned word (13 R345); str.go lets the slot run, and posts a recorded wait again with its count of
instructions and its remaining limit. The fields fmode and mxcfg of a record that holds a
reserved rounding mode follow log 93. -/
def Sys2Proof.Claim.SlotInstructions : Prop :=
  SlotRefusals ∧
  ∀ (s : State) (la a b : Nat),
    (s.me.mode = .u → exec (.strStop a) s = .next (s.raise cMODE ((encode (.strStop a)).getD 0)) ∧
      exec (.strGo a) s = .next (s.raise cMODE ((encode (.strGo a)).getD 0)) ∧
      exec (.strSave la a b) s = .next (s.raise cMODE ((encode (.strSave la a b)).getD 0)) ∧
      exec (.strLoad la a b) s = .next (s.raise cMODE ((encode (.strLoad la a b)).getD 0))) ∧
    (SlotOperand s a →
      (let k := s.gta * 16 + s.xn a
       ((s.slot k).holds = true → (s.slot k).stopped = false → (s.slot k).halted = false →
        ∃ t, exec (.strStop a) s = .next t ∧ t.slot k = { (s.slot k).endCounting with stopReq := true } ∧ SameX s t ∧ SameC s t ∧
          SameV s t ∧ SameM s t ∧ SameF s t ∧ SameMem s t ∧ SameSpecials s t ∧ Advanced s t 4) ∧
       ((s.slot k).holds = true → (s.slot k).stopped = false → (s.slot k).halted = true →
        ∃ t, exec (.strStop a) s = .next t ∧ t.slot k = { s.slot k with stopped := true } ∧ SameX s t ∧ SameMem s t ∧ Advanced s t 4) ∧
       ((s.slot k).stopped = true → (s.slot k).recs = [] → (s.slot k).hold = none →
        ∃ t, exec (.strGo a) s = .next t ∧ (t.slot k).stopped = false ∧ (t.slot k).x = (s.slot k).x ∧ (t.slot k).pc = (s.slot k).pc ∧
          SameX s t ∧ SameC s t ∧ SameV s t ∧ SameM s t ∧ SameF s t ∧ SameMem s t ∧ SameSpecials s t ∧ Advanced s t 4) ∧
       (∀ r c off gen d, (s.slot k).stopped = true → (s.slot k).halted = false → (s.slot k).recs = [r] → (s.slot k).hold = none →
        r.w = .land c off gen d →
        ∃ t x, exec (.strGo a) s = .next t ∧ (t.slot k).stopped = false ∧ (t.slot k).recs = [] ∧ (t.slot k).wins.getLast? = some x ∧
          x.addr = r.addr ∧ x.ibits = r.ibits ∧ x.issued = r.issued ∧ x.left = r.left ∧ x.lim = r.lim ∧ SameMem s t ∧ Advanced s t 4 ∧
          (let p := flat (oidSp c.o) ((s.entry c.o).base + off)
           if s.sameObj c = true ∧ s.landOver p gen = true then
             x.st = .done { xs := [(d, BitVec.ofNat 64 (s.land0 p))], acquire := true } else x.st = .wait r.w)) ∧
       (RoomForWindow s → (s.slot k).holds = true → SaveCap s (s.c b) →
        exec (.strSave la a b) s = .next (s.openW la (.strSave la a b) (.wait (.save k (s.c b) s.me.lkey))
          (if s.me.wlim = 0 then none else some s.me.wlim.toNat))) ∧
       (∀ n, n = s.badIn (s.c b).o (s.entry (s.c b).o) (s.c b).b (0x400 + (s.tile s.gta).vfile) → n ≠ 0 → RoomForWindow s →
        (s.slot k).occ = .empty → SaveCap s (s.c b) → s.check18 (s.c b) s.gta s.me.lkey true = none →
        ∃ t, exec (.strLoad la a b) s = .next t ∧ Pending s t ∧ (t.slot k).occ = .empty ∧ SameMem s t ∧
          Opened s t la (.strLoad la a b) (.fail (if n = 2 then cINTEGRITY else cCAP_POISON) (s.c b).o)) ∧
       (RoomForWindow s → (s.slot k).occ = .empty → s.me.holds = true → SaveCap s (s.c b) → s.check18 (s.c b) s.gta s.me.lkey true = none →
        s.badIn (s.c b).o (s.entry (s.c b).o) (s.c b).b (0x400 + (s.tile s.gta).vfile) = 0 → s.recordOk (s.saveAt (s.c b)) k = true →
        ∃ t, exec (.strLoad la a b) s = .next t ∧ Pending s t ∧ Opened s t la (.strLoad la a b) (.done {}) ∧
          (let p := s.saveAt (s.c b)
           let u := t.slot k
           let f (o : Nat) : Word := BitVec.ofNat 64 (mnat s.mem (p + o) 8)
           u.stopped = true ∧ u.pc = BitVec.ofNat 64 (mnat s.mem p 2) ∧ (∀ n, 1 ≤ n → n < 16 → u.getX n = f (8 * n)) ∧
             (∀ n, 1 ≤ n → n < 16 → sget .null u.c n = sget .null s.mcaps (p + 0x200 + 16 * (n - 1))) ∧
             u.c15s = sget .null s.mcaps (p + 0x2F0) ∧ u.fmode = fmodeWrite 0 (f 0x80) ∧ u.mxcfg = mxcfgWrite 0 (f 0x88) ∧ u.wlim = f 0x90 ∧ u.lkey = f 0x98 ∧
             u.rptc = rptcWrite 0 (f 0xA0) ∧ u.instret = f 0xA8 ∧ u.wdog = f 0xB0 ∧ u.tvec = f 0xB8 &&& 0x1FFFFF ∧ u.trpc = f 0xC0 ∧ u.tcause = f 0xC8 ∧
             u.tval = f 0xD0 ∧ u.tstat = tstatWrite 0 (f 0xD8) ∧ u.tscratch = f 0xE0 ∧ u.tie = f 0xF0 &&& 0xFF001E ∧
             u.tip = f 0xF8 &&& 0xFFFFFFFF0000001E ∧
             (∀ n, 1 ≤ n → n < 8 → u.getM n = BitVec.ofNat 128 (mnat s.mem (p + 0x100 + 16 * (n - 1)) 16)) ∧
             (∀ n, n < (if (s.tile s.gta).v32 then 32 else 16) → u.getV n = BitVec.ofNat 1024 (mnat s.mem (p + 0x400 + 128 * n) 128)) ∧
             mget t.mem (p + 3) = 0 ∧ sget 0 t.marks (p + 0x200) = 0 ∧ ∀ x, x ≠ p + 3 → mget t.mem x = mget s.mem x))))

/-- 12 R323 to R330: str.stop, str.save, str.load and str.go with their refusals; the stop at the strand's boundary, which leaves its registers and records a
wait that it withdraws; and the record that str.save writes, which empties the slot. What fmode and mxcfg of a loaded record become where
it holds a reserved rounding mode is the model's deduction (log 93). -/
def Obligations.StopsAndSaves : Prop :=
  SlotInstructions ∧
  (∀ (s : State) (k : Nat), (s.slot k).stopReq = true → (s.slot k).mode ≠ .d → (s.slot k).restartable = false → (s.slot k).dfs = [] →
    (s.slot k).sync = none → wdogDue (s.slot k) = false → (s.slot k).wdPend = false → (s.slot k).nextAt ≤ s.cycle →
    ((s.slot k).wins = [] → ∃ t, exec (.stopTakesEffect k) s = .next t ∧ t.mem = s.mem ∧ (∀ j, j ≠ k → t.slot j = s.slot j) ∧
      (t.slot k).stopped = true ∧ (t.slot k).stopReq = false ∧ (t.slot k).x = (s.slot k).x ∧ (t.slot k).pc = (s.slot k).pc ∧
      (t.slot k).c = (s.slot k).c ∧ (t.slot k).v = (s.slot k).v ∧ (t.slot k).recs = (s.slot k).recs) ∧
    (∀ x c off gen d, (s.slot k).wins = [x] → x.st = .wait (.land c off gen d) → s.cmdWin k x = false →
      ∃ t, exec (.stopTakesEffect k) s = .next t ∧ t.mem = s.mem ∧ (t.slot k).stopped = true ∧ (t.slot k).wins = [] ∧
        (t.slot k).recs = (s.slot k).recs ++ [⟨x.addr, x.ibits, x.issued, x.left, .land c off gen d, x.lim, none⟩])) ∧
  (∀ (s : State) (k j : Nat) (x : Win) (c : Cap) (lkey : Word), (s.slot k).wins = [x] → x.st = .wait (.save j c lkey) → s.saveReady j = true →
    s.frozen k = false → (s.slot k).stopped = false → (s.slot k).restartable = false → (s.slot k).wfiEnds = false →
    s.slotDue k (s.slot k) = some (s.saveStep k x.id j c lkey)) ∧
  (∀ (s : State) (k w j : Nat) (c : Cap) (lkey : Word), j ≠ k → (s.slot j).taken = [] → s.check18 c (k / 16) lkey true = none →
    (s.slot j).mode ≠ .d → s.refusedWrite c.o (s.entry c.o) c.b (0x400 + (s.tile (k / 16)).vfile) = none →
    ∃ t, s.saveStep k w j c lkey = t ∧ (t.slot j).occ = .empty ∧ (t.slot j).x = (s.slot j).x ∧ (t.slot j).v = (s.slot j).v ∧
      (t.slot j).c = [] ∧ (∀ y ∈ (t.slot k).wins, y.id = w → y.st = .done {}) ∧
      (let p := s.saveAt c
       (∀ n, 1 ≤ n → n < 16 → mnat t.mem (p + 8 * n) 8 = ((s.slot j).getX n).toNat) ∧ mnat t.mem p 2 = (s.slot j).pc.toNat % 2 ^ 16 ∧
         mnat t.mem (p + 0x80) 8 = (s.slot j).fmode.toNat ∧ mnat t.mem (p + 0xA8) 8 = (s.slot j).instret.toNat ∧
         (∀ n, 1 ≤ n → n < 15 → sget .null t.mcaps (p + 0x200 + 16 * (n - 1)) = sget .null (s.slot j).c n) ∧
         sget 0 t.marks (p + 0x200) = 0x280))

/-! ### Debug module, tests, board controller -/

/-- 16 R389 to R392, 03 R62: a halt that is asked for takes effect at the strand's boundary, with dpc and dcsr written; a resume restores
the pc and the mode; a tile stop asks every slot to halt and stops the tile, until the tile's resume. -/
def Sys2Proof.Claim.DebugStops : Prop :=
  (∀ (s : State) (k : Nat), k < 65536 → (s.slot k).holds = true → (s.slot k).halted = false → (s.slot k).haltReq = 0 →
    ∃ t, exec (.haltRequest k) s = .next t ∧ t.slot k = { (s.slot k).endCounting with haltReq := 3 } ∧ t.mem = s.mem ∧ ∀ j, j ≠ k → t.slot j = s.slot j) ∧
  (∀ (s : State) (k : Nat), (s.slot k).haltReq ≠ 0 → (s.slot k).haltReq < 8 → (s.slot k).halted = false → (s.slot k).wins = [] →
    (s.slot k).dfs = [] → (s.slot k).sync = none → wdogDue (s.slot k) = false → (s.slot k).wdPend = false → (s.slot k).restartable = false →
    (s.slot k).nextAt ≤ s.cycle → ((s.slot k).mode = .u ∨ (s.slot k).mode = .s) →
    ∃ t, exec (.debugHalt k) s = .next t ∧ t.mem = s.mem ∧ (∀ j, j ≠ k → t.slot j = s.slot j) ∧ (t.slot k).mode = .d ∧
      (t.slot k).halted = true ∧ (t.slot k).dpc = BitVec.ofNat 64 ((s.slot k).pc.toNat % 2 ^ 16) ∧
      bits (t.slot k).dcsr.toNat 6 3 = (s.slot k).haltReq ∧ bits (t.slot k).dcsr.toNat 0 2 = (s.slot k).mode.code ∧
      tbit (t.slot k).dcsr.toNat 12 = (s.tile (k / 16)).tstop ∧ (t.slot k).x = (s.slot k).x ∧ (t.slot k).c = (s.slot k).c) ∧
  (∀ (s : State) (k : Nat), (s.slot k).halted = false → exec (.debugResume k) s = .next (s.answer chDebug 4)) ∧
  (∀ (s : State) (k : Nat), (s.slot k).halted = true → (s.slot k).recs = [] → (s.slot k).dHold = none →
    ∃ t, exec (.debugResume k) s = .next t ∧ t.mem = s.mem ∧ (t.slot k).halted = false ∧ (t.slot k).pc = (s.slot k).dpc ∧
      (t.slot k).mode = (if (s.slot k).dcsr.toNat % 4 = 1 then .s else .u) ∧ (t.slot k).x = (s.slot k).x ∧
      sget (0, []) t.answers chDebug = (0, [])) ∧
  (∀ (s : State) (g : Nat), g < 4096 → ∃ t, exec (.tileStop g) s = .next t ∧ (t.tile g).tstop = true ∧ t.mem = s.mem ∧
    (∀ i, i < 16 → (s.slot (g * 16 + i)).holds = true → (s.slot (g * 16 + i)).halted = false → (s.slot (g * 16 + i)).haltReq = 0 →
      (t.slot (g * 16 + i)).haltReq = 5) ∧ ∀ k, k / 16 ≠ g → t.slot k = s.slot k) ∧
  (∀ (s : State) (g : Nat), (s.tile g).tstop = true → sget [] s.stopq g = [] →
    (∀ i, i < 16 → (s.slot (g * 16 + i)).recs = [] ∧ (s.slot (g * 16 + i)).dHold = none) →
    ∃ t, exec (.tileResume g) s = .next t ∧ (t.tile g).tstop = false ∧ t.mem = s.mem ∧
      ∀ i, i < 16 → ((s.slot (g * 16 + i)).halted = true → tbit (s.slot (g * 16 + i)).dcsr.toNat 12 = true →
        (t.slot (g * 16 + i)).halted = false ∧ (t.slot (g * 16 + i)).pc = (s.slot (g * 16 + i)).dpc) ∧
        ((s.slot (g * 16 + i)).halted = false → (s.slot (g * 16 + i)).haltReq = 5 → (t.slot (g * 16 + i)).haltReq = 0))

/-- 16 R389 to R392, R396 to R398, 00 R5: halts and resumes; the debugger's access to a register of a halted slot and to the program buffer
(the numbers of these registers, and the codes 0 and 4 of the answers on the debugger's channel, are the model's choice, logs 30 and 25);
trace records that go to memory, while the key of the trace object has not been ended (14 R357; log 117); and a register write, where the numbers of
errwin, errthr and pkgno, 0x10000 + 2 × die, the next and 0x10080, are the model's choice (log 29). -/
def Obligations.DebugModule : Prop :=
  DebugStops ∧
  (∀ (s : State) (k n v : Nat), k < 65536 → n < 16 →
    ((s.slot k).halted = true → ∃ t, exec (.accessRegister k (0x1000 + n) 0 v) s = .next t ∧ t.slots = s.slots ∧ t.mem = s.mem ∧
      sget (0, []) t.answers chDebug = (0, toBytes 8 ((s.slot k).getX n).toNat)) ∧
    ((s.slot k).halted = true → ∃ t, exec (.accessRegister k (0x1000 + n) 1 v) s = .next t ∧ t.mem = s.mem ∧
      (∀ j, (t.slot k).getX j = if j = n ∧ n ≠ 0 then BitVec.ofNat 64 v else (s.slot k).getX j) ∧ ∀ j, j ≠ k → t.slot j = s.slot j) ∧
    ((s.slot k).halted = false → exec (.accessRegister k (0x1000 + n) 0 v) s = .next (s.answer chDebug 4)) ∧
    (n < 8 → ∃ t, exec (.accessRegister k (0x10020 + n) 1 v) s = .next t ∧ t.slots = s.slots ∧ t.mem = s.mem ∧
      sget 0 (t.tile (k / 16)).pbuf n = v % 2 ^ 32)) ∧
  (∀ (s : State) (k : Nat), (s.slot k).halted = true → (s.slot k).pbPos = none →
    ∃ t, exec (.programBufferExecute k) s = .next t ∧ t.slot k = { s.slot k with pbPos := some 0, dErr := none } ∧ t.mem = s.mem) ∧
  (∀ (s : State) (g : Nat) (w : Word), (s.tile g).trBuf = [w] → (s.tile g).trLost = 0 → oidPort ((s.tile g).trobj / 2 ^ 36) = 68 →
    (s.entry ((s.tile g).trobj / 2 ^ 36)).valid = true → (s.entry ((s.tile g).trobj / 2 ^ 36)).poison = false →
    (s.entry ((s.tile g).trobj / 2 ^ 36)).bad = false → s.foreign g ((s.tile g).trobj / 2 ^ 36) = false →
    (s.keyEnded (s.entry ((s.tile g).trobj / 2 ^ 36)).keyid = true → exec (.traceBufferWrite g) s = .fault .notDue) ∧
    (s.keyEnded (s.entry ((s.tile g).trobj / 2 ^ 36)).keyid = false →
    (s.entry ((s.tile g).trobj / 2 ^ 36)).ext = false → (s.entry ((s.tile g).trobj / 2 ^ 36)).base + (s.tile g).trobj % 2 ^ 36 + 8 ≤ 2 ^ 40 →
    (s.tile g).trobj % 2 ^ 36 + 8 < (s.entry ((s.tile g).trobj / 2 ^ 36)).len →
    ∃ t, exec (.traceBufferWrite g) s = .next t ∧ (t.tile g).trBuf = [] ∧ (t.tile g).trobj = (s.tile g).trobj + 8 ∧
      t.objBytes ((s.tile g).trobj / 2 ^ 36) (s.entry ((s.tile g).trobj / 2 ^ 36)) ((s.tile g).trobj % 2 ^ 36) 8 = toBytes 8 w.toNat)) ∧
  (∀ (s : State) (csr v : Nat), csr < 4096 →
    (csrAccess csr = some (.ro, .ro) → s.me.mode ≠ .d → exec (.registerWrite csr v) s = .next s) ∧
    (csrAccess csr ≠ some (.ro, .ro) ∨ s.me.mode = .d → exec (.registerWrite csr v) s = .next (csrWrite s csr (BitVec.ofNat 64 v)))) ∧
  ∀ (s : State) (die v : Nat), die < 64 →
    (∃ t, exec (.registerWrite (0x10000 + 2 * die) v) s = .next t ∧ sget 0x7DBA8218000 t.errwin die = v % 2 ^ 64 ∧
      t = { s with errwin := t.errwin, errCnt := t.errCnt } ∧
      (v % 2 ^ 64 ≠ 0 → t.errCnt = s.errCnt) ∧ (v % 2 ^ 64 = 0 → ∀ p, p ∈ t.errCnt ↔ p ∈ s.errCnt ∧ p.1 / 2 ^ 80 ≠ die)) ∧
    (∃ t, exec (.registerWrite (0x10000 + 2 * die + 1) v) s = .next t ∧ sget 0x0004004000100010 t.errthr die = v % 2 ^ 64 ∧
      t = { s with errthr := t.errthr }) ∧
    ((∀ r, r < 8 → tbit s.wrow (4 * r + 3) = false) → exec (.registerWrite 0x10080 v) s = .next { s with pkgno := v % 256 })

/-- The precondition of a test and of its operands, in S mode of a tile (17 R400, R401). -/
def Sys2Proof.Claim.MayTest (s : State) (x seed : Nat) : Prop :=
  s.me.mode = .s ∧ badTest false x seed = false ∧ (bTarget x = 4 ∨ bTarget x = 5 ∨ bTarget x = 6) ∧ s.bistReady s.gta x = true ∧
    s.unitBusy s.gta (bTarget x) = false ∧ ∀ n ∈ testUnit (bTarget x), s.boardTest s.gta n = false
/-- 17 R400 to R402: bist runs a test of its own tile in S mode and answers a result word, whose value is free; the weight slots of a
tile are invalid after target 6; U mode and a target of mode M raise MODE; while the unit is busy the instruction does not issue. -/
def Sys2Proof.Claim.SelfTestInstruction : Prop :=
  ∀ (s : State) (la a b d : Nat), RoomForWindow s →
    (MayTest s (s.xn a) (s.xn b) → ∃ t v, exec (.bist la a b d) s = .next t ∧ Pending s t ∧ SameMem s t ∧
      Opened s t la (.bist la a b d) (.done { xs := [(d, v)] }) ∧ (bTarget (s.xn a) = 6 → (t.tile s.gta).wslots = []) ∧
      ∃ n, 7 ≤ n ∧ (bTarget (s.xn a), s.cur, s.cycle + n) ∈ (t.tile s.gta).tests) ∧
    (s.me.mode = .s → badTest false (s.xn a) (s.xn b) = false → bistM (bTarget (s.xn a)) = false → s.bistReady s.gta (s.xn a) = true →
      s.unitBusy s.gta (bTarget (s.xn a)) = true → ∃ t, exec (.bist la a b d) s = .next t ∧ SameMem s t ∧ OnlyMe s t ∧ SameX s t ∧
        t.me.pc = s.me.pc ∧ t.me.wins = s.me.wins ∧ t.me.hold.isSome = true) ∧
    (s.me.mode = .m → badTest true (s.xn a) (s.xn b) = true → exec (.bist la a b d) s = .next (s.raise cENGINE 80)) ∧
    (s.me.mode = .m → badTest true (s.xn a) (s.xn b) = false → s.bistReady (bits (s.xn a) 24 12) (s.xn a) = false →
      exec (.bist la a b d) s = .next (s.raise cENGINE 81)) ∧
    (s.me.mode = .u → exec (.bist la a b d) s = .next (s.raise cMODE ((encode (.bist la a b d)).getD 0))) ∧
    (s.me.mode = .s → badTest false (s.xn a) (s.xn b) = true → exec (.bist la a b d) s = .next (s.raise cENGINE 80)) ∧
    (s.me.mode = .s → badTest false (s.xn a) (s.xn b) = false → bistM (bTarget (s.xn a)) = true →
      exec (.bist la a b d) s = .next (s.raise cMODE ((encode (.bist la a b d)).getD 0)))

/-- 17 R400 to R406: bist; margin registers, rail offsets, and the board controller's commands, whose answer codes are 0 done, 1 absent,
2 refused, 3 busy. Register numbers, channels and these codes are the model's (logs 25, 36), as are the places where bytes stand in a repair
record (log 37). So are that a bist acts in the step of its issue, lasts at least 7 cycles and has a free result (logs 18, 90), and that a
rail offset that has been written is read before it is applied (log 90). -/
def Obligations.TestsAndBoard : Prop :=
  SelfTestInstruction ∧
  (∀ (s : State) (reg v : Nat), reg < 256 → v < 2 ^ 64 → tbit v 63 = true → offsetOk (bits v 40 8) = true → offsetOk (bits v 32 8) = true →
    s.laneFailed reg (bits v 56 6) = false →
    (∃ t, exec (.marginPointStart reg v) s = .next t ∧ t = { s with margins := t.margins } ∧ tbit (t.margin reg) 63 = true ∧
      bits (t.margin reg) 48 8 = min 40 (bits v 48 8) ∧ bits (t.margin reg) 32 16 = bits v 32 16 ∧
      bits (t.margin reg) 0 32 = bits (s.margin reg) 0 32)) ∧
  (∀ (s : State) (reg errs : Nat), tbit (s.margin reg) 63 = true → errs < 2 ^ 32 →
    ∃ t, exec (.marginPointComplete reg errs) s = .next t ∧ t = { s with margins := t.margins } ∧ tbit (t.margin reg) 63 = false ∧
      bits (t.margin reg) 0 32 = errs) ∧
  (∀ (s : State) (die v : Nat), die < 64 →
    (s.assigned die = false → (signed 8 v).natAbs ≤ 10 → ∃ t, exec (.railOffsetWrite die v) s = .next t ∧
      t = { s with railsNew := t.railsNew } ∧ sget none t.railsNew die = some (signed 8 v, s.cycle) ∧
      t.railByte die = v % 256) ∧
    (s.assigned die = true ∨ 10 < (signed 8 v).natAbs → exec (.railOffsetWrite die v) s = .next s) ∧
    ∀ o at_, sget none s.railsNew die = some (o, at_) → ∃ t, exec (.railOffsetApplied die) s = .next t ∧ sget 0 t.rails die = o ∧
      sget none t.railsNew die = none ∧ t = { s with rails := t.rails, railsNew := t.railsNew }) ∧
  (∀ (s : State) (die off len r i wr v : Nat), s.romFail = 0 → s.up = true →
    (exec (.mapRead die off len) s = .next (if 64 ≤ die ∨ 256 < off + len then s.answer 48 1 else if len = 0 ∨ 32 < len then s.answer 48 2
      else s.answer 48 0 ((List.range len).map fun j => mapByte die (off + j)))) ∧
    (die < 64 → r < 4096 → exec (.blackBoxRead die r) s = .next (s.answer 48 0
      (((sget [] s.bbox die).reverse[r]?.map BbRec.bytes).getD (List.replicate 32 0)))) ∧
    (die < 64 → 4096 ≤ r → exec (.blackBoxRead die r) s = .next (s.answer 48 1)) ∧
    (exec (.repairRecordRead i) s = .next (match s.repairs[i]? with
      | some e => s.answer 48 0 (toBytes 8 e)
      | none => s.answer 48 1)) ∧
    (i < 544 → exec (.marginAccess i 0 v) s = .next (s.answer 48 0 (toBytes 8 (s.margin i)))) ∧
    (die < 64 → exec (.marginAccess (544 + die) 0 v) s = .next (s.answer 48 0 (toBytes 8 (s.railByte die)))) ∧
    (608 ≤ i → exec (.marginAccess i wr v) s = .next (s.answer 48 1)) ∧
    (v < 8 → exec (.operatorWorld v) s = .next (({ s with opWorld := v + 1 } : State).answer 48 0)) ∧
    (v = 0xFF → exec (.operatorWorld v) s = .next (({ s with opWorld := 0 } : State).answer 48 0))) ∧
  (∀ (s : State) (i wr v : Nat), s.up = false ∨ s.romFail ≠ 0 →
    exec (.repairRecordRead i) s = .next (s.answer 48 3) ∧ exec (.marginAccess i wr v) s = .next (s.answer 48 3) ∧
    exec (.operatorWorld v) s = .next (s.answer 48 3) ∧ exec (.selfTest i wr v) s = .next (s.answer 48 3)) ∧
  ∀ (s : State) (die word seed : Nat), s.romFail = 0 → s.up = true → die < 64 → sget none s.tests die = none → badTest true word seed = false →
    s.bistReady (bits word 24 12) word = true → bits word 24 12 / 64 = die →
    exec (.selfTest die word seed) s = .next { s with tests := sput none s.tests die (some (word, seed)) } ∧
    ∀ t, sget none t.tests die = some (word, seed) → t.unitBusy (bits word 24 12) (bTarget word) = false →
      ∃ u bs, exec (.selfTestComplete die) t = .next u ∧ sget none u.tests die = none ∧ sget (0, []) u.answers 48 = (0, bs) ∧ bs.length = 8 ∧
        u.slots = t.slots

/-! ### Launches and the host's other requests -/

/-- A host request of that kind of world w is looked at: the world has a function, no certificate write of it is held, and its interface
state lets requests in (15 R373, 14 R363). -/
def Sys2Proof.Claim.HostReady (s : State) (w kind : Nat) : Prop :=
  s.hasWorld w = true ∧ s.hget w 0x1000 1 = kind ∧ (s.world w).certw = none ∧ (s.world w).td ≠ .quiesced ∧ (s.world w).td ≠ .error
/-- The answer stands in the window of world w: status and kind. -/
def Sys2Proof.Claim.Answered (t : State) (w kind status : Nat) : Prop := t.hget w 8 1 = status ∧ t.hget w 9 1 = kind
/-- A request that is turned away changes the two bytes of its answer and nothing else. -/
def Sys2Proof.Claim.TurnedAway (s t : State) (w kind status : Nat) : Prop :=
  Answered t w kind status ∧ t = { s with mem := t.mem } ∧
    ∀ a, a ≠ flat (spHost w) 8 → a ≠ flat (spHost w) 9 → mget t.mem a = mget s.mem a
/-- The launch in the window of world w, and the partition fields of its tensor records. -/
def Sys2Proof.Claim.launchAt (s : State) (w : Nat) : Launch := launchOf (s.hget w)
def Sys2Proof.Claim.partsAt (s : State) (w : Nat) : List Nat := (List.range 4).map fun n => s.hget w (0x1140 + 48 * n + 0x28) 4

/-- Whether every byte that the start of a launch reads is resident, and every store to its objects is applied, in s and whatever its
memory and its run table hold. -/
def Sys2Proof.Claim.LaunchHere (s : State) (l : Launch) (b : Bool) : Prop :=
  ∀ m r n, State.launchReady { s with mem := m, runs := r, runNext := n } l = b
/-- The reasons of the statuses 1 to 6 (11 R279). 1: the partition word is refused (05 R117). -/
def Sys2Proof.Claim.RefusedPartition (l : Launch) : Prop :=
  let v := if tbit l.pword 10 then 4096 else 2048
  2 ^ 18 ≤ l.pword ∨ 16 < l.pword % 32 + bits l.pword 5 5 ∨ l.pword % 32 + bits l.pword 5 5 = 0 ∨ 96 < bits l.pword 11 7 ∨
    0x200000 < 0x1000 + 16 * v + bits l.pword 5 5 * 4096 + bits l.pword 11 7 * 16384 + (if l.image = 0 then 0 else l.dlen * 64)
/-- The object lies outside the world, or its id names no valid entry. -/
def Sys2Proof.Claim.Unnamed (s : State) (w o : Nat) : Prop := s.dieIn w (oidDie o) = false ∨ namesEntry o = false ∨ (s.entry o).valid = false
/-- 2: the tile set (05 R120), a named object, a rank, the code object's segment (R131), or the reservation (19 R421). -/
def Sys2Proof.Claim.RefusedSet (s : State) (w : Nat) (l : Launch) : Prop :=
  ¬(pkgRow l.tlo ≤ pkgRow l.thi ∧ pkgCol l.tlo ≤ pkgCol l.thi) ∨
    (∃ g ∈ setTiles l.tlo l.thi, s.dieIn w (g / 64) = false ∨ (s.tile g).fenced = true) ∨
    Unnamed s w l.code ∨ (∃ x ∈ l.objs, Unnamed s w x.1) ∨ (l.image ≠ 0 ∧ Unnamed s w l.image) ∨
    (∃ x ∈ l.objs, x.2.1 = 2 ∧ (setTiles l.tlo l.thi).length ≤ x.2.2) ∨ (s.entry l.code).len ≤ l.seg * 8192 ∨
    (l.resv ≠ 0 ∧ (s.dieIn w l.die = false ∨ s.freeRun l.die l.resv = none))
/-- 3: a tensor record names an axis code above 2, or one axis for two dimensions (05 R121). -/
def Sys2Proof.Claim.RefusedTensor (parts : List Nat) : Prop :=
  ∃ p ∈ parts, ∃ i, i < 4 ∧ (3 ≤ bits p (8 * i) 8 ∨ (bits p (8 * i) 8 ≠ 0 ∧ ∃ j, j < i ∧ bits p (8 * j) 8 = bits p (8 * i) 8))
/-- 4: the holding indices overlap, exceed 3,839, or cannot hold the arguments and what the Separator places (05 R119). -/
def Sys2Proof.Claim.RefusedIndices (l : Launch) : Prop :=
  3839 < l.codeIx ∨ 3839 < l.args ∨ 3840 < l.args + l.objs.length ∨ (l.args ≤ l.codeIx ∧ l.codeIx < l.args + l.objs.length) ∨
    l.indices.1 = 0xFFFF ∨ (l.data ≠ 0 ∧ l.indices.2.1 = 0xFFFF) ∨ (accOf l.pword ≠ 0 ∧ l.indices.2.2 = 0xFFFF)
/-- 6: a count of fractions or shares would pass 4,095, or an object whose ownership moves has fractions or fill delegates out. -/
def Sys2Proof.Claim.RefusedCounts (s : State) (l : Launch) : Prop :=
  (∃ o ∈ l.code :: l.objs.map (·.1), 4095 < (s.entry o).fracs + l.takes (s.entry o).amo (setTiles l.tlo l.thi).length o) ∨
    ∃ x ∈ l.objs, x.2.1 = 2 ∧ (0 < (s.entry x.1).fracs ∨ 0 < (s.entry x.1).fills)
/-- None of the reasons holds. -/
def Sys2Proof.Claim.LaunchAdmitted (s : State) (w : Nat) : Prop :=
  let l := launchAt s w
  ¬RefusedPartition l ∧ ¬RefusedSet s w l ∧ ¬RefusedTensor (partsAt s w) ∧ ¬RefusedIndices l ∧ s.freeRunEntry ≠ none ∧ ¬RefusedCounts s l
/-- 11 R279: a request that is not malformed, in RUN, has the status of the first reason that holds in the order 1 to 6. -/
def Sys2Proof.Claim.LaunchRefusals : Prop :=
  ∀ (s : State) (w : Nat), HostReady s w 1 → badLaunch (s.hget w) (s.hzero w) = false → (s.world w).td = .run →
    let l := launchAt s w
    let turned (n : Nat) : Prop := ∃ t, exec (.launchRequest w) s = .next t ∧ TurnedAway s t w 1 n
    (RefusedPartition l → turned 1) ∧
    (¬RefusedPartition l →
      (RefusedSet s w l → turned 2) ∧
      (¬RefusedSet s w l →
        (RefusedTensor (partsAt s w) → turned 3) ∧
        (¬RefusedTensor (partsAt s w) →
          (RefusedIndices l → turned 4) ∧
          (¬RefusedIndices l →
            (s.freeRunEntry = none → turned 5) ∧
            (s.freeRunEntry ≠ none → RefusedCounts s l → turned 6)))))
/-- 11 R297, R298: the notice reaches a tile with one fallback chained for that run: its grant is made over the whole object, in the claimed
holding entry, and its descriptor is decremented. -/
def Sys2Proof.Claim.NoticeServes : Prop :=
  ∀ (s : State) (g i : Nat) (f : Fallback), g ∈ (sget {} s.runs i).notify → (s.tile g).fbs.filter (fun f => f.pslot == i) = [f] →
    s.matches_ f.handle = true → s.descBad f.handle = false → 1 ≤ s.dget (hHome f.handle) (hAddr f.handle) 0 4 →
    (∀ h, f.grant = some h → h < 3840) →
    ∃ t, exec (.completionNotice g i) s = .next t ∧ (t.tile g).notices = (s.tile g).notices ++ [i] ∧ (∀ x ∈ (t.tile g).fbs, x.pslot ≠ i) ∧
      Decremented s t f.handle (s.dget (hHome f.handle) (hAddr f.handle) 0 4) 1 ∧
      ∀ h, f.grant = some h →
        let e := s.entry f.oid
        let c := Cap.mk' e.gen 0x8C f.oid e.len 0
        t.claimed g h = false ∧
          (oidIdx f.oid ≠ 0 → e.fracs < 4095 → e.amo = false → s.check16 c g = none →
            t.holdAt g h = c ∧ (t.entry f.oid).fracs = e.fracs + 1 ∧ t.l1Of g = []) ∧
          (oidIdx f.oid = 0 ∨ 4095 ≤ e.fracs ∨ e.amo = true ∨ s.check16 c g ≠ none → t.holdAt g h = .null)
/-- 11 R279 to R283, R297, 15 R373, R376: a launch request is answered 0xFF, 7, or the first status whose reason holds; accepted, its run is held
with status 8 while its tiles are not free, or while a QUIESCE of its world is in progress (log 111), and otherwise takes them and, when what it reads is resident, starts: every tile of the set belongs to the run and its persistent slots hold
strands. That the run ids grow by 1 is the model's choice (log 24). A run whose tiles are done is complete and its report is posted; its
notice reaches each tile, where it serves the fallbacks that wait for it; the host takes reports in order.
19 R421: no tile of a complete run holds an arena capability over the run's HBM reservation. -/
def Obligations.Launches : Prop :=
  LaunchRefusals ∧ NoticeServes ∧
  (∀ (s : State) (w : Nat), HostReady s w (s.hget w 0x1000 1) → (s.hget w 0x1000 1 = 0 ∨ 5 < s.hget w 0x1000 1) →
    ∃ t, exec (.malformedRequest w) s = .next t ∧ TurnedAway s t w (s.hget w 0x1000 1) 0xFF) ∧
  (∀ (s : State) (w : Nat), HostReady s w 1 →
    let bad := badLaunch (s.hget w) (s.hzero w)
    (bad = true → ∃ t, exec (.launchRequest w) s = .next t ∧ TurnedAway s t w 1 0xFF) ∧
    (bad = false → (s.world w).td ≠ .run → ∃ t, exec (.launchRequest w) s = .next t ∧ TurnedAway s t w 1 7) ∧
    (∀ i, bad = false → (s.world w).td = .run → LaunchAdmitted s w → s.freeRunEntry = some i →
      (s.tilesFree (launchAt s w).tlo (launchAt s w).thi = false ∨ (s.world w).quiesce = true →
        ∃ t, exec (.launchRequest w) s = .next t ∧ Answered t w 1 8 ∧ t.hget w 12 4 = s.runNext % 2 ^ 32 ∧ (sget {} t.runs i).st = .held ∧
          (sget {} t.runs i).id = s.runNext ∧ t.runNext = s.runNext + 1 ∧ t.tiles = s.tiles ∧ t.slots = s.slots) ∧
      (s.tilesFree (launchAt s w).tlo (launchAt s w).thi = true → (s.world w).quiesce = false → LaunchHere s (launchAt s w) false →
        ∃ t, exec (.launchRequest w) s = .next t ∧ Answered t w 1 0 ∧ (sget {} t.runs i).st = .held ∧ (sget {} t.runs i).begun = true ∧
          t.runNext = s.runNext + 1 ∧ t.tiles = s.tiles ∧ t.slots = s.slots) ∧
      (s.tilesFree (launchAt s w).tlo (launchAt s w).thi = true → (s.world w).quiesce = false → LaunchHere s (launchAt s w) true →
        ∃ t, exec (.launchRequest w) s = .next t ∧ (sget {} t.runs i).st = .running ∧ (sget {} t.runs i).id = s.runNext ∧
          t.runNext = s.runNext + 1 ∧
          ∀ g ∈ setTiles (launchAt s w).tlo (launchAt s w).thi, (t.tile g).run = true ∧ (t.tile g).runid = s.runNext ∧
            (t.tile g).pword = (launchAt s w).pword ∧ (t.tile g).oslot = i ∧
            ∀ j, j < (tileOf (launchAt s w).pword).pers → (t.slot (g * 16 + j)).occ = .persistent ∧ (t.slot (g * 16 + j)).mode = .u))) ∧
  (∀ (s : State) (i : Nat), s.nextHeld = some i → ∃ t, exec .heldLaunchStart s = .next t ∧
    (sget {} t.runs i).st = (if s.launchReady (sget {} s.runs i).launch then .running else .held) ∧
    (s.launchReady (sget {} s.runs i).launch = false → (sget {} t.runs i).begun = true) ∧
    (sget {} t.runs i).id = (sget {} s.runs i).id ∧ t.runNext = s.runNext) ∧
  (∀ (s : State) (i : Nat), (sget {} s.runs i).st = .running →
    (∀ g ∈ setTiles (sget {} s.runs i).tlo (sget {} s.runs i).thi, s.tileDone g = true) →
    ∃ t, exec (.runComplete i) s = .next t ∧ (sget {} t.runs i).st = .complete ∧
      (t.world (sget {} s.runs i).world).reports = (s.world (sget {} s.runs i).world).reports ++ [i] ∧
      (∀ g ∈ setTiles (sget {} s.runs i).tlo (sget {} s.runs i).thi, (t.tile g).run = false) ∧
      ∀ r, (sget {} s.runs i).resv = some r → ∀ g ∈ setTiles (sget {} s.runs i).tlo (sget {} s.runs i).thi, ∀ h, h < 4096 →
        (t.holdAt g h).ofResv r = false) ∧
  (∀ (s : State) (g i : Nat), g ∈ (sget {} s.runs i).notify → (∀ f ∈ (s.tile g).fbs, f.pslot ≠ i) →
    ∃ t, exec (.completionNotice g i) s = .next t ∧ (t.tile g).notices = (s.tile g).notices ++ [i] ∧
      (sget {} t.runs i).notify = (sget {} s.runs i).notify.filter (· != g) ∧ t.mem = s.mem ∧ t.slots = s.slots) ∧
  ∀ (s : State) (w i : Nat) (rest : List Nat), s.hasWorld w = true → (s.world w).td ≠ .quiesced → (s.world w).td ≠ .error →
    (s.world w).reports = i :: rest →
    ∃ t, exec (.completionReportNext w) s = .next t ∧ (t.world w).reports = rest ∧ t.slots = s.slots ∧
      (rest = [] → t.hget w 0x10 8 = 0 ∧ t.hget w 0x18 8 = 0) ∧
      ∀ j more, rest = j :: more → t.hget w 0x10 8 = ((sget {} s.runs j).id * 2 ^ 32 + (sget {} s.runs j).hnote) % 2 ^ 64

/-- 15 R381, R384, R385: an export gives a whole owned object to a window or to the aperture of its world, and a revoke gives it back: nothing
waits on a granule through the window any more, and the tile that gets the capability holds no L1 line (06 R147; log 107). -/
def Sys2Proof.Claim.Exports : Prop :=
  (∀ (s : State) (w : Nat) (c : Cap), HostReady s w 2 → s.badExport w = false →
    let h := s.hget w 0x1002 2
    let g := s.hget w 0x1004 2
    let rights := s.hget w 0x1006 1
    let base := s.hget w 0x1008 8
    let len := s.hget w 0x1010 8
    s.exportable w g h = some c → (s.entry c.o).fracs = 0 → (s.entry c.o).fills = 0 → base + len ≤ (s.entry c.o).len →
    rights &&& c.rights.toNat = rights →
    (∀ sn i, s.hget w 0x1001 1 = 0 → s.freeStation g = some (sn, i) →
      ∃ t, exec (.exportRequest w) s = .next t ∧ Answered t w 2 0 ∧ t.hget w 0x20 8 = winOid sn i % 2 ^ 64 ∧
        t.holdAt g h = Cap.mk' (sget {} s.wtab (winOid sn i)).gen (rights + 8) (winOid sn i) len 0 ∧
        (let e := sget {} t.wtab (winOid sn i)
         e.valid = true ∧ e.exported = true ∧ e.oid = c.o ∧ e.base = base ∧ e.len = len ∧ e.gen = (sget {} s.wtab (winOid sn i)).gen)) ∧
    (∀ i, s.hget w 0x1001 1 = 1 → s.freeAper w = some i → s.badAperture w (s.hget w 0x1018 8) len = false →
      ∃ t, exec (.exportRequest w) s = .next t ∧ Answered t w 2 0 ∧ t.hget w 0x20 8 = i % 2 ^ 64 ∧ t.holdAt g h = .null ∧
        sget {} (t.world w).aper i = { valid := true, off := s.hget w 0x1018 8, len := len, oid := c.o, base := base,
                                       write := tbit rights 6, read := tbit rights 7 })) ∧
  (∀ (s : State) (w : Nat), HostReady s w 2 → s.badExport w = false → s.exportable w (s.hget w 0x1004 2) (s.hget w 0x1002 2) = none →
    ∃ t, exec (.exportRequest w) s = .next t ∧ TurnedAway s t w 2 1) ∧
  ∀ (s : State) (w : Nat), HostReady s w 3 → s.hget w 0x1002 2 < 4096 → s.hget w 0x1004 2 < 4096 → s.hget w 0x1006 2 = 0 →
    s.hzero w 0x1010 0x2000 = true →
    let h := s.hget w 0x1002 2
    let g := s.hget w 0x1004 2
    let o := s.hget w 0x1008 8
    (s.hget w 0x1001 1 < 2 → (s.hget w 0x1001 1 = 0 → o < 2 ^ 28) → (s.hget w 0x1001 1 = 1 → o < 256) →
      s.holdAt g h ≠ .null ∨ s.claimed g h = true → ∃ t, exec (.revokeRequest w) s = .next t ∧ TurnedAway s t w 3 1) ∧
    (∀ e, s.hget w 0x1001 1 = 0 → o < 2 ^ 28 → s.holdAt g h = .null → s.claimed g h = false → s.winEnt o = some e → e.valid = true →
      e.exported = true → s.dieIn w (oidDie o) = true → (s.entry e.oid).owner = g →
      ∃ t, exec (.revokeRequest w) s = .next t ∧ Answered t w 3 0 ∧ t.holdAt g h = s.wholeCap e.oid ∧ (sget {} t.wtab o).valid = false ∧
        (e.gen < 4096 → (sget {} t.wtab o).gen = e.gen + 1) ∧ t.l1Of g = [] ∧
        ∀ k, ∀ y ∈ (t.slot k).wins, y.parkedOn o = false) ∧
    (s.hget w 0x1001 1 = 1 → o < 256 → s.holdAt g h = .null → s.claimed g h = false → (sget {} (s.world w).aper o).valid = true →
      (s.entry (sget {} (s.world w).aper o).oid).owner = g →
      ∃ t, exec (.revokeRequest w) s = .next t ∧ Answered t w 3 0 ∧ t.holdAt g h = s.wholeCap (sget {} (s.world w).aper o).oid ∧
        (sget {} (t.world w).aper o).valid = false ∧ t.l1Of g = [])

/-- 05 R133, R136, 15 R378: an eviction of one granule moves its bytes to the host tier and marks its map entry; a restore brings it back. -/
def Sys2Proof.Claim.Residency : Prop :=
  (∀ (s : State) (w x a : Nat), HostReady s w 5 → s.hget w 0x1001 1 = 3 →
    let o := s.hget w 0x1008 4
    let first := s.hget w 0x1010 4
    let hg := s.hget w 0x1018 8 / 65536
    let m := (s.entry o).base
    o < 2 ^ 28 → s.hget w 0x1014 4 = 1 → s.badGranules w o first 1 = false → s.hget w 0x1018 8 % 65536 = 0 → s.hostGranule w hg = some a →
    s.engineOn o first 1 = false → (s.entry o).ext = true → mnat s.mem (flat (oidSp o) (m + 4 * first)) 4 = x → x < 2 ^ 31 → s.l2 = [] →
    m + 4 * first + 4 ≤ 2 ^ 48 → a / 2 ^ 48 % 128 = 69 → a / 2 ^ 48 < 8192 →
    ∃ t, exec (.evictGranules w) s = .next t ∧ Answered t w 5 0 ∧ (t.entry o).resident = false ∧
      mnat t.mem (flat (oidSp o) (m + 4 * first)) 4 = 2 ^ 31 + hg % 2 ^ 31 ∧
      mbytes t.mem a 65536 = mbytes s.mem (flat (oidSp o) (x * 65536)) 65536) ∧
  ∀ (s : State) (w : Nat), HostReady s w 5 → s.hget w 0x1001 1 = 4 →
    let o := s.hget w 0x1008 4
    let first := s.hget w 0x1010 4
    let m := (s.entry o).base
    o < 2 ^ 28 → s.late = [] → (∀ p ∈ s.slots, p.2.wins = []) →
    (s.badGranules w o first (s.hget w 0x1014 4) = true → ∃ t, exec (.restoreGranules w) s = .next t ∧ TurnedAway s t w 5 4) ∧
    (s.badGranules w o first (s.hget w 0x1014 4) = false → (s.entry o).ext = false →
      ∃ t, exec (.restoreGranules w) s = .next t ∧ Answered t w 5 0 ∧ (t.entry o).resident = true) ∧
    (∀ p, s.hget w 0x1014 4 = 1 → s.badGranules w o first 1 = false → (s.entry o).ext = true →
      2 ^ 31 ≤ mnat s.mem (flat (oidSp o) (m + 4 * first)) 4 → s.freeGranules (oidSp o) (2 ^ 19) 0 1 = [p] → p < 2 ^ 31 →
      m + 4 * first + 4 ≤ 2 ^ 48 →
      ∃ t, exec (.restoreGranules w) s = .next t ∧ Answered t w 5 0 ∧ mnat t.mem (flat (oidSp o) (m + 4 * first)) 4 = p)

/-- No certificate write of that slot is held. -/
def Sys2Proof.Claim.NoHeldWrite (s : State) (slot : Nat) : Prop :=
  (∀ p ∈ s.worlds, ∀ c, p.2.certw = some c → c.slot ≠ slot) ∧ ∀ c ∈ s.boardCert, c.slot ≠ slot
/-- The ranges of a grant request, each of whole granules and not empty. -/
def Sys2Proof.Claim.GoodGrant (s : State) (w : Nat) : Prop :=
  let n := s.hget w 0x1002 2
  s.hget w 0x1001 1 = 0 ∧ 0 < n ∧ n ≤ 128 ∧ s.hget w 0x1004 1 < 64 ∧ s.hzero w 0x1005 0x1010 = true ∧
    s.hzero w (0x1010 + 16 * n) 0x2000 = true ∧
    ∀ i, i < n → s.hget w (0x1010 + 16 * i) 8 % 65536 = 0 ∧ s.hget w (0x1018 + 16 * i) 8 ≠ 0
/-- 15 R374, R377, R378, R381, R384, R385, 14 R352, R368, 05 R136: exports and revokes; a grant of host memory; a new row assignment, by the
board controller or the operator's world; a certificate slot's write, by the host or the board controller, which waits while the slot is being read; and residency. The order in
which a grant's reasons are looked at and status 1 for an export that its table names no status for (log 74), the board controller's channel 48 and
the codes 2 and 3 of its answers to a row assignment and a certificate write (log 25), the station that an export takes (log 32) and M4's extension by SHAKE256 of the four bytes of wrow
(log 33) are the model's; a certificate write comes after the writes that are held for its slot. -/
def Obligations.HostRequests : Prop :=
  Exports ∧ Residency ∧
  (∀ (s : State) (w : Nat), HostReady s w 4 → GoodGrant s w →
    let rs := s.grantRanges w (s.hget w 0x1002 2)
    let die := s.hget w 0x1004 1
    let old := s.worlds.flatMap fun p => p.2.grants.map fun x => (x.2.2.1, x.2.2.2)
    (overlapping rs = true ∨ (∃ r ∈ rs, ∃ y ∈ old, rangesMeet r y = true) → ∃ t, exec (.hostTierGrant w) s = .next t ∧ TurnedAway s t w 4 1) ∧
    (overlapping rs = false → (∀ r ∈ rs, ∀ y ∈ old, rangesMeet r y = false) →
      (s.dieIn w die = false → ∃ t, exec (.hostTierGrant w) s = .next t ∧ TurnedAway s t w 4 2) ∧
      (s.dieIn w die = true → s.granted die + (rs.map (·.2)).sum ≤ 2 ^ 32 →
        ∃ t, exec (.hostTierGrant w) s = .next t ∧ Answered t w 4 0 ∧
          (t.world w).grants.map (fun x => (x.1, x.2.2.1, x.2.2.2)) =
            (s.world w).grants.map (fun x => (x.1, x.2.2.1, x.2.2.2)) ++ rs.map fun r => (die, r.1, r.2)))) ∧
  (∀ (s : State) (v : Nat), v < 2 ^ 32 →
    (s.romFail ≠ 0 ∨ s.up = false → exec (.writeWrow 8 v) s = .next (s.answer 48 3)) ∧
    (s.romFail = 0 → s.up = true → s.badWrow v = true → exec (.writeWrow 8 v) s = .next (s.answer 48 2)) ∧
    (s.romFail = 0 → s.up = true → s.badWrow v = false → ∃ t, exec (.writeWrow 8 v) s = .next t ∧ t.wrow = v ∧ sget (0, []) t.answers 48 = (0, []) ∧
      (v ≠ s.wrow → t.measure 4 = shake256 (s.measure 4 ++ shake256 (toBytes 4 v) 64) 64)) ∧
    ∀ w, w < 8 → HostReady s w 5 → s.hget w 0x1001 1 = 1 → s.hget w 0x1008 4 = v →
      (s.opWorld ≠ w + 1 → ∃ t, exec (.writeWrow w v) s = .next t ∧ TurnedAway s t w 5 1) ∧
      (s.opWorld = w + 1 → s.badWrow v = true → ∃ t, exec (.writeWrow w v) s = .next t ∧ TurnedAway s t w 5 2) ∧
      (s.opWorld = w + 1 → s.badWrow v = false → ∃ t, exec (.writeWrow w v) s = .next t ∧ Answered t w 5 0 ∧ t.wrow = v)) ∧
  (∀ (s : State) (slot off : Nat) (data : List Byte), s.romFail = 0 → s.up = true → 0 < slot → slot < 8 → data ≠ [] → off + data.length ≤ 4096 →
    (NoHeldWrite s slot → s.certFlush slot = s) ∧
    (s.certBusy slot = false → ∃ t, s.certWrite slot off data = .next t ∧
      t.cert slot = spliceBytes ((s.certFlush slot).cert slot) off data ∧
      sget (0, []) t.answers 48 = (0, []) ∧ ∀ i, i ≠ slot → t.cert i = s.cert i) ∧
    (s.certBusy slot = true → ∃ t, s.certWrite slot off data = .next t ∧ t.certs = s.certs ∧ sget (0, []) t.answers 48 = (3, []) ∧
      t.boardCert = s.boardCert ++ [⟨slot, off, data⟩]) ∧
    ∀ (u : State) (c : CertW), u.boardCert.find? (fun c => !u.certBusy c.slot) = some c → 0 < c.slot →
      ∃ v, exec (.certWriteApply 8) u = .next v ∧ v.cert c.slot = spliceBytes (u.cert c.slot) c.off c.bytes ∧
        v.boardCert = u.boardCert.erase c ∧ sget (0, []) v.answers 48 = (0, [])) ∧
  ∀ (s : State) (w : Nat), HostReady s w 5 → s.hget w 0x1001 1 = 2 →
    let slot := s.hget w 0x1002 2
    let off := s.hget w 0x1004 2
    let len := s.hget w 0x1006 2
    0 < slot → slot < 8 → 0 < len → off + len ≤ 4096 → s.opWorld = w + 1 →
    let new := spliceBytes (s.cert slot) off (mbytes s.mem (flat (spHost w) 0x1100) len)
    (s.certBusy slot = false → ∃ t, exec (.writeCertificateSlot w) s = .next t ∧ Answered t w 5 0 ∧
      t.cert slot = spliceBytes ((s.certFlush slot).cert slot) off (mbytes s.mem (flat (spHost w) 0x1100) len) ∧
      ∀ i, i ≠ slot → t.cert i = s.cert i) ∧
    (s.certBusy slot = true → ∃ t, exec (.writeCertificateSlot w) s = .next t ∧ Answered t w 5 3 ∧ t.certs = s.certs ∧
      ∃ c, (t.world w).certw = some c ∧ c.slot = slot ∧ c.off = off ∧
        ∀ u : State, u.certBusy slot = false → (u.world w).certw = some c → u.certs = s.certs →
          ∃ v, exec (.certWriteApply w) u = .next v ∧ v.cert slot = new ∧ (v.world w).certw = none ∧ Answered v w 5 0)

/-! ### The interface of a world, attestation, links, errors -/

/-- What is left of a world that has been reset (14 R365). -/
def Sys2Proof.Claim.WorldReset (s t : State) (w : Nat) : Prop :=
  (t.world w).td = .unlocked ∧ (t.world w).quiesce = false ∧ (t.world w).aper = [] ∧ t.wrow = s.wrow ∧
    (∀ k, k < sepKey → s.dieIn w (k / 1024) = true → (t.slot k).occ = .empty ∧ (t.slot k).x = [] ∧ (t.slot k).c = [] ∧ (t.slot k).v = []) ∧
    (∀ o, s.dieIn w (oidDie o) = true → sget {} t.entries o = {}) ∧
    (∀ g i, i < 4096 → s.dieIn w (g / 64) = true → t.holdAt g i = .null) ∧
    (∀ d p a, s.dieIn w d = true → p < 68 → a < 2 ^ 48 → mget t.mem (flat (d * 128 + p) a) = 0)
/-- 14 R361 to R365: the requests to the interface of a world and the states they lead to; an error event puts a configured interface into
ERROR; a stop or a function-level reset leaves the world reset. Answer codes and their channel are the model's (log 34). -/
def Obligations.WorldInterface : Prop :=
  ∀ (s : State) (w : Nat), s.hasWorld w = true →
    exec (.getTdispVersion w) s = .next (s.tdAns w 0) ∧ exec (.getTdispCapabilities w) s = .next (s.tdAns w 0) ∧
    exec (.getDeviceInterfaceReport w) s = .next (s.tdAns w 0) ∧
    exec (.getDeviceInterfaceState w) s = .next (s.tdAns w 0 [BitVec.ofNat 8 (s.world w).td.code]) ∧
    ((s.world w).td = .unlocked → ∃ t, exec (.lockInterfaceRequest w) s = .next t ∧ (t.world w).td = .locked ∧ t.slots = s.slots ∧
      t.mem = s.mem) ∧
    ((s.world w).td ≠ .unlocked → exec (.lockInterfaceRequest w) s = .next (s.tdAns w tdInvalidState)) ∧
    ((s.world w).td = .locked → ∃ t, exec (.startInterfaceRequest w) s = .next t ∧ (t.world w).td = .run ∧ t.slots = s.slots ∧
      t.mem = s.mem) ∧
    ((s.world w).td ≠ .locked → exec (.startInterfaceRequest w) s = .next (s.tdAns w tdInvalidState)) ∧
    (∀ b, b ≠ 1 → b ≠ 2 → exec (.tdispUnsupportedRequest w b) s = .next (s.tdAns w (if 256 ≤ b then tdUnsupported else tdInvalidRequest))) ∧
    ((s.world w).td = .run → (s.world w).quiesce = false → ∃ t, exec (.quiesce w) s = .next t ∧ (t.world w).quiesce = true ∧
      (t.world w).td = .run ∧ t.mem = s.mem ∧ ∀ k, k ∈ s.strandsOf w → (s.slot k).holds = true →
        (t.slot k).stopReq = true ∨ (t.slot k).stopped = true) ∧
    ((s.world w).quiesce = true → s.quiet w = true → ∃ t, exec (.quiesceComplete w) s = .next t ∧ (t.world w).quiesce = false ∧
      (t.world w).td = .quiesced ∧ t.slots = s.slots ∧ t.mem = s.mem) ∧
    ((s.world w).td = .quiesced → (∀ k ∈ s.strandsOf w, (s.slot k).recs = [] ∧ (s.slot k).hold = none) →
      ∃ t, exec (.resume w) s = .next t ∧ (t.world w).td = .run ∧ t.mem = s.mem ∧ ∀ k ∈ s.strandsOf w, (t.slot k).stopped = false) ∧
    ((s.world w).td ≠ .quiesced → exec (.resume w) s = .next (s.tdAns w tdInvalidState)) ∧
    (∀ c ∈ [Instr.ideIntegrityFailure w, .lockedConfigWrite w, .separatorStateError w], ∃ t, exec c s = .next t ∧ t.slots = s.slots ∧ t.mem = s.mem ∧
      (t.world w).td = (if (s.world w).td = .unlocked then .unlocked else .error)) ∧
    (∀ digest, (s.world w).td = .quiesced → ∃ t, exec (.firmwareActivation w digest) s = .next t ∧
      t.measure 1 = shake256 (s.measure 1 ++ toBytes 64 digest) 64 ∧ t = { s with meas := t.meas }) ∧
    (∃ t, exec (.functionLevelReset w) s = .next t ∧ WorldReset s t w) ∧
    ((s.world w).td ≠ .unlocked → ∃ t, exec (.stopInterfaceRequest w) s = .next t ∧ WorldReset s t w) ∧
    ((s.world w).td = .unlocked → exec (.stopInterfaceRequest w) s = .next (s.tdAns w tdInvalidState))

/-- A connection on a transport that has reached a phase (14 R369). -/
def Sys2Proof.Claim.SpdmReady (s : State) (t phase : Nat) : Prop := t < 3 ∧ s.romFail = 0 ∧ phase ≤ (s.conn t).phase
/-- The answer with that code and those bytes. -/
def Sys2Proof.Claim.Answers (i : Instr) (s : State) (t code : Nat) (bs : List Byte) : Prop :=
  ∃ u, exec i s = .next u ∧ sget (0, []) u.answers t = (code, bs) ∧ u.mem = s.mem ∧ u.slots = s.slots ∧ u.meas = s.meas ∧ u.certs = s.certs
/-- The signature of a transcript with the device identity key: Ed448 over the SHA3-512 hash, behind the text that names it (14 R369). -/
def Sys2Proof.Claim.signature (s : State) (what : String) (transcript : List Byte) : List Byte :=
  edSign (s.sepKeyOf 0) (spPrefix what ++ sha3512 transcript)
/-- The connection's transcript of versions, capabilities and algorithms after a message and its answer, with those of measurements
dropped. -/
def Sys2Proof.Claim.Joined (s : State) (i : Instr) (t phase : Nat) (request answer : List Byte) : Prop :=
  ∃ u, exec i s = .next u ∧ sget (0, []) u.answers t = (0, answer) ∧ (u.conn t).phase = max (s.conn t).phase phase ∧
    (u.conn t).vca = (s.conn t).vca ++ request ++ answer ∧ (u.conn t).meas = [] ∧ u.mem = s.mem ∧ u.slots = s.slots
/-- The measurement block of one register: its index, DMTF's form, a raw bit stream of 64 bytes (14 R367; log 34). -/
def Sys2Proof.Claim.block (s : State) (i : Nat) : List Byte := toBytes 1 (i + 1) ++ [1] ++ toBytes 2 67 ++ [0x81] ++ toBytes 2 64 ++ s.measure i
/-- The MEASUREMENTS message but for its signature. -/
def Sys2Proof.Claim.measured (count : Nat) (record : List Byte) (n : Nat) (nonce : List Byte) (ver : Nat) : List Byte :=
  spMsg 0x60 count (ofBytes (spRest ver 33 1) % 16) (toBytes 1 n ++ toBytes 3 record.length ++ record ++ nonce ++ toBytes 2 0 ++ spRest ver 34 8)
/-- A request for measurements `idx` is answered with that record, behind it a signature where one is asked for. -/
def Sys2Proof.Claim.Measures (s : State) (t ver idx count : Nat) (record : List Byte) (n : Nat) : Prop :=
  ∃ nonce, nonce.length = 32 ∧
    let m := measured count record n nonce ver
    let req := spMsg 0xE0 (ofBytes (spRest ver 0 1)) idx (if spSigned ver then spRest ver 1 41 else spRest ver 34 8)
    Answers (.spdmGetMeasurements t ver idx) s t 0
      (m ++ if spSigned ver then signature s "responder-measurements signing" ((s.conn t).vca ++ (s.conn t).meas ++ req ++ m) else [])
/-- 14 R367 to R369: the requests of an attestation connection in their order, what each answers, and the refusals; a CHALLENGE and
measurements are signed with the device identity key over the SHA3-512 hash of the transcript. The layouts of the messages, the error codes
and what an event's version argument carries beside the version are the model's (log 34); nonces are free (log 15). -/
def Obligations.Attestation : Prop :=
  ∀ (s : State) (t ver : Nat), t < 3 → s.romFail = 0 →
    (∃ u, exec (.spdmGetVersion t) s = .next u ∧ (u.conn t).phase = 1 ∧ (u.conn t).certs = [] ∧ (u.conn t).meas = [] ∧ (u.conn t).cert = none ∧
      (u.conn t).vca = spMsg 0x84 0 0 [] 0x10 ++ spVersionMsg ∧ sget (0, []) u.answers t = (0, spVersionMsg)) ∧
    (ver % 256 ≠ 0x13 → ∀ a h slot off len idx, ∀ i ∈ [Instr.spdmGetCapabilities t ver, .spdmNegotiateAlgorithms t ver a h, .spdmGetDigests t ver,
        .spdmGetCertificate t ver slot off len, .spdmChallenge t ver slot, .spdmGetMeasurements t ver idx],
      Answers i s t spVersionMismatch []) ∧
    (ver % 256 = 0x13 →
      ((s.conn t).phase = 0 → Answers (.spdmGetCapabilities t ver) s t spUnexpected []) ∧
      ((s.conn t).phase < 2 → ∀ a h, Answers (.spdmNegotiateAlgorithms t ver a h) s t spUnexpected []) ∧
      ((s.conn t).phase < 3 → ∀ slot off len idx, ∀ i ∈ [Instr.spdmGetDigests t ver, .spdmGetCertificate t ver slot off len,
          .spdmChallenge t ver slot, .spdmGetMeasurements t ver idx],
        Answers i s t spUnexpected []) ∧
      (SpdmReady s t 1 → (spCapabilitiesMsg.drop 8).take 4 = toBytes 4 0x16 ∧
        Joined s (.spdmGetCapabilities t ver) t 2 (spMsg 0xE1 0 0 (spRest ver 0 16)) spCapabilitiesMsg) ∧
      (∀ a h, SpdmReady s t 2 → tbit a 11 = true → tbit h 5 = true →
        (spAlgorithmsMsg.drop 12).take 8 = toBytes 4 (2 ^ 11) ++ toBytes 4 (2 ^ 5) ∧
        Joined s (.spdmNegotiateAlgorithms t ver a h) t 3 (spMsg 0xE3 0 0 (toBytes 2 32 ++ spRest ver 0 2 ++ toBytes 4 a ++ toBytes 4 h ++
          List.replicate 15 0 ++ spRest ver 2 1)) spAlgorithmsMsg) ∧
      (∀ a h, SpdmReady s t 2 → tbit a 11 = false ∨ tbit h 5 = false → Answers (.spdmNegotiateAlgorithms t ver a h) s t spInvalid []) ∧
      (SpdmReady s t 3 →
        Answers (.spdmGetDigests t ver) s t 0 (spMsg 0x01 0xFF (((List.range 8).filter s.certThere).foldl (fun m i => m + 2 ^ i) 0)
          (((List.range 8).filter s.certThere).flatMap fun i => sha3512 (s.cert i))) ∧
        (∀ slot off len, s.certThere slot = true → off < (s.cert slot).length → (s.cert slot).length ≤ 4096 → len ≤ 4096 →
          Answers (.spdmGetCertificate t ver slot off len) s t 0 (spMsg 0x02 slot 0 (toBytes 2 (min len ((s.cert slot).length - off)) ++
            toBytes 2 ((s.cert slot).length - off - min len ((s.cert slot).length - off)) ++ ((s.cert slot).drop off).take len))) ∧
        (∀ slot off len, s.certThere slot = false ∨ (s.cert slot).length ≤ off →
          Answers (.spdmGetCertificate t ver slot off len) s t spInvalid []) ∧
        (∀ slot, s.certThere slot = true → ∃ nonce, nonce.length = 32 ∧
          let m := spMsg 0x03 slot (2 ^ slot) (sha3512 (s.cert slot) ++ nonce ++
            (if spRest ver 0 1 = [0] then [] else sha3512 ((List.range 8).flatMap (block s))) ++ toBytes 2 0 ++ spRest ver 33 8)
          Answers (.spdmChallenge t ver slot) s t 0 (m ++ signature s "responder-challenge_auth signing"
            ((s.conn t).vca ++ (s.conn t).certs ++ spMsg 0x83 slot (ofBytes (spRest ver 0 1)) (spRest ver 1 40) ++ m))) ∧
        (∀ slot, s.certThere slot = false → Answers (.spdmChallenge t ver slot) s t spInvalid []) ∧
        (∀ i, 1 ≤ i → i ≤ 8 → Measures s t ver i 0 (block s (i - 1)) 1) ∧
        Measures s t ver 0 8 [] 0 ∧ Measures s t ver 0xFF 0 ((List.range 8).flatMap (block s)) 8 ∧
        ∀ i, 8 < i → i ≠ 0xFF → Answers (.spdmGetMeasurements t ver i) s t spInvalid []) ∧
      ∀ code, code ∉ [0x81, 0x82, 0x83, 0x84, 0xE0, 0xE1, 0xE3] → Answers (.spdmUnsupportedRequest t ver code) s t spUnsupported [])

/-- 15 R382, R383, R385 to R387, R372, R374, 14 R353: a request to another package is sent again while no answer comes, sixteen times, and
then ends its access with ENGINE 24; one answered BUSY goes out again after 10 microseconds; the duplicate cache holds an entry for 2
milliseconds; a window's opening and a write counted at a landing word, performed once; the peer's revoke of an import; accesses at an exporter
and through the aperture; snoops and link training; a request that leaves its world. The channels and codes of answers (64 + station with a
cause plus 64, 1 for BUSY; 50 for the host), the packing of the arguments of WINDOW_OPEN and WINDOW_ACCESS_AT_EXPORTER and the speeds of CXL
are the model's (logs 25, 42, 80). -/
def Obligations.Links : Prop :=
  (∀ (s : State) (id : Nat) (r : UaReq), s.uaReq id = some r →
    (r.busy = none → r.sentAt + 30000 ≤ s.cycle → r.tries < 16 → ∃ t, exec (.ualinkRetransmit id) s = .next t ∧ t.slots = s.slots ∧
      t.uaReq id = some { r with tries := r.tries + 1, sentAt := s.cycle }) ∧
    (∀ k w, r.busy = none → r.sentAt + 30000 ≤ s.cycle → 16 ≤ r.tries → r.op = .access k w →
      ∃ t, exec (.ualinkRequestTimeout id) s = .next t ∧ t.uaReq id = none ∧ t.mem = s.mem ∧ Ended t k w (.fail cENGINE 24)) ∧
    (∀ m, r.busy = none → r.sentAt + 30000 ≤ s.cycle → 16 ≤ r.tries → r.op = .message m → ∀ c, s.cmds.find? (fun c => c.id == m) = some c →
      s.msgs.find? (fun x => x.id == m) ≠ none → c.hurt = false → (s.slot c.key).holds = true →
      ∃ t, exec (.ualinkRequestTimeout id) s = .next t ∧ (c.win, cENGINE, 24, c.addr) ∈ (t.slot c.key).dfs) ∧
    (∀ at_, r.busy = some at_ → at_ + 15000 ≤ s.cycle → ∃ t, exec (.busyRetry id) s = .next t ∧ t.slots = s.slots ∧
      t.uaReq id = some { r with busy := none, sentAt := s.cycle })) ∧
  (∀ (s : State) (st i : Nat) (e : DupEnt), (sget [] s.dups st)[i]? = some e → e.at_ + 3000000 ≤ s.cycle →
    ∃ t, exec (.duplicateCacheExpiry st i) s = .next t ∧ sget [] t.dups st = (sget [] s.dups st).eraseIdx i ∧ t = { s with dups := t.dups }) ∧
  (∀ (s : State) (st : Nat), ∀ d ∈ s.liveDups st, d ∈ sget [] s.dups st ∧ s.cycle < d.at_ + 3000000) ∧
  (∀ (s : State) (st i off len v : Nat), st < 64 → i < 4096 →
    let e := sget {} s.wtab (winOid st i)
    (∀ gen wr d, 2 ≤ wr → (s.liveDups st).find? (fun d => d.pkg == bits wr 2 8 && d.st == bits wr 10 6 && d.id == wr / 2 ^ 16) = some d →
      exec (.windowAccessAtExporter st i gen off len wr v) s = .next (s.answer (64 + st) d.code d.data)) ∧
    (∀ wr, e.valid = true → e.exported = true → off + len ≤ e.len → s.checkExported e.oid true = none →
      s.rangeHere e.oid (s.entry e.oid) (e.base + off) len = true → s.refusedWrite e.oid (s.entry e.oid) (e.base + off) len = none →
      s.versionEnd e.oid (s.entry e.oid) (e.base + off) len = false →
      (wr = 1 → exec (.windowAccessAtExporter st i e.gen off len wr v) s =
        .next ((s.writeObj e.oid (s.entry e.oid) (e.base + off) (toBytes len v)).answer (64 + st) 0)) ∧
      (2 ≤ wr → (s.liveDups st).find? (fun d => d.pkg == bits wr 2 8 && d.st == bits wr 10 6 && d.id == wr / 2 ^ 16) = none →
        (4096 ≤ (s.liveDups st).length → exec (.windowAccessAtExporter st i e.gen off len wr v) s = .next (s.answer (64 + st) 1)) ∧
        ((s.liveDups st).length < 4096 → ∃ t, exec (.windowAccessAtExporter st i e.gen off len wr v) s = .next t ∧
          t.mem = (s.writeObj e.oid (s.entry e.oid) (e.base + off) (toBytes len v)).mem ∧ sget (0, []) t.answers (64 + st) = (0, []) ∧
          sget [] t.dups st = s.liveDups st ++ [⟨bits wr 2 8, bits wr 10 6, wr / 2 ^ 16, 0, s.cycle, []⟩]))) ∧
    (e.valid = false → ∃ t, exec (.windowAccessAtExporter st i e.gen off len 0 v) s = .next t ∧ t = { s with answers := t.answers } ∧
      sget (0, []) t.answers (64 + st) = (cCAP_STALE + 64, [])) ∧
    (e.valid = true → e.exported = true → e.len < off + len → ∃ t, exec (.windowAccessAtExporter st i e.gen off len 0 v) s = .next t ∧
      t = { s with answers := t.answers } ∧ sget (0, []) t.answers (64 + st) = (cCAP_BOUNDS + 64, [])) ∧
    (e.valid = true → e.exported = true → off + len ≤ e.len → s.checkExported e.oid false = none →
      s.rangeHere e.oid (s.entry e.oid) (e.base + off) len = true → s.badIn e.oid (s.entry e.oid) (e.base + off) len = 0 →
      ∃ t, exec (.windowAccessAtExporter st i e.gen off len 0 v) s = .next t ∧ t = { s with answers := t.answers } ∧
        sget (0, []) t.answers (64 + st) = (0, s.readObj e.oid (s.entry e.oid) (e.base + off) len)) ∧
    (∀ peer d, (s.liveDups st).find? (fun d => d.pkg == bits peer 86 8 && d.st == bits peer 94 6 && d.id == bits peer 100 32) = some d →
      exec (.windowOpen st i peer) s = .next (s.answer (64 + st) d.code d.data)) ∧
    (∀ peer, (s.liveDups st).find? (fun d => d.pkg == bits peer 86 8 && d.st == bits peer 94 6 && d.id == bits peer 100 32) = none →
      4096 ≤ (s.liveDups st).length → exec (.windowOpen st i peer) s = .next (s.answer (64 + st) 1)) ∧
    (∀ peer j, (s.liveDups st).find? (fun d => d.pkg == bits peer 86 8 && d.st == bits peer 94 6 && d.id == bits peer 100 32) = none →
      (s.liveDups st).length < 4096 → bits peer 0 8 ≠ s.pkgno → s.freeWin st = some j →
      ∃ t, exec (.windowOpen st i peer) s = .next t ∧
        (let e := sget {} t.wtab (winOid st j)
         e.valid = true ∧ e.exported = false ∧ e.len = bits peer 26 40 ∧ e.pkg = bits peer 0 8 ∧ e.pidx = i ∧ e.pgen = bits peer 14 12) ∧
        t = { s with wtab := t.wtab, answers := t.answers, dups := t.dups } ∧ (sget [] t.dups st).length = (s.liveDups st).length + 1)) ∧
  (∀ (s : State) (o gen : Nat) (e : WinEnt), s.winEnt o = some e →
    (e.valid = true → e.exported = false → e.pgen = gen → ∃ t, s.winRevoked o gen = .next t ∧ t = { s with wtab := t.wtab } ∧
      (sget {} t.wtab o).valid = false ∧ (e.gen < 4096 → (sget {} t.wtab o).gen = e.gen + 1))) ∧
  (∀ (s : State) (w off len v : Nat), s.hasWorld w = true → (s.world w).td ≠ .quiesced → (s.world w).td ≠ .error →
    (s.aperHit w off len false = none → exec (.apertureRead w off len) s = .next (s.answer 50 1)) ∧
    (∀ o x, s.aperHit w off len false = some (o, x) → s.badIn o (s.entry o) x len = 0 →
      exec (.apertureRead w off len) s = .next (s.answer 50 0 (s.readObj o (s.entry o) x len))) ∧
    (s.aperHit w off len true = none → ∃ t, exec (.apertureWrite w off len v) s = .next t ∧ t.mem = s.mem ∧
      (t.world w).aperRefused = ((s.world w).aperRefused + 1) % 2 ^ 32) ∧
    (∀ o x, s.aperHit w off len true = some (o, x) → isSram o = true → ∃ t, exec (.apertureWrite w off len v) s = .next t ∧
      (∀ a, mget t.mem a = mget (mwrite s.mem (flat (oidSp o) ((s.entry o).base + x)) (toBytes len v)) a) ∧
      (t.world w).aperRefused = (s.world w).aperRefused)) ∧
  (∀ (s : State) (sector : Nat), sector * 256 / 2 ^ 48 < 8192 → sector * 256 / 2 ^ 48 % 128 = 69 →
    ∃ t, exec (.cxlSnoop sector) s = .next t ∧ sget 0 t.l2 sector = 0 ∧ t.slots = s.slots ∧
      (sget 0 s.l2 sector ≠ 0 → sget 0xFFFFFFFF t.ktags sector = sget 0 s.l2 sector - 1)) ∧
  (∀ (s : State) (p width speed : Nat), p < 2 →
    ((width = 16 ∨ width = 8) → speed ∈ [64, 32, 16, 8, 5, 2] → ∃ t, exec (.cxlLinkTraining p width speed) s = .next t ∧ t = { s with cxl := t.cxl } ∧
      sget 0 t.cxl p = (if width = 16 ∧ speed = 64 then 0 else width * 256 + speed)) ∧
    (width ≠ 16 → width ≠ 8 → exec (.cxlLinkTraining p width speed) s = .next (s.answer 50 2))) ∧
  ∀ (s : State) (die k o : Nat), die < 64 → k < sepKey → (s.slot k).holds = true → s.foreignDie (k / 1024) die = true → s.foreign (k / 16) o = true →
    ∃ t, exec (.foreignWorldRequest die k o) s = .next t ∧ t.mem = s.mem ∧
      (∃ edge, edge < 4 ∧ sget 0 t.refused (4 * die + edge) = (sget 0 s.refused (4 * die + edge) + 1) % 2 ^ 32 ∧
        ∀ p, p ≠ 4 * die + edge → sget 0 t.refused p = sget 0 s.refused p) ∧
      (t.slot k).dfs = (s.slot k).dfs ++ [((s.slot k).nextWid, cWORLD, o, (s.slot k).pc.toNat)] ∧ (t.slot k).x = (s.slot k).x

/-- 05 R137, 13 R344 to R350, 01 R24, 14 R366: an error that is corrected changes nothing that is read and is counted; one of SRAM that is not
corrected poisons its word and object; a flit whose failures are not cured leaves its eight words poisoned, or fails the load that it
answers; only the dies on the edges have UALink stations, and dies 3 and 60 the CXL ports (01 R18, R19); a fenced tile has no strands and no
commands (log 38) and is recorded; the core of a tile on a die that throttles picks no slot; the resets. The numbers by which an event names
a place and its 32-byte row (log 39), the packing of LINK_CRC_FAILURE's arguments and its count of 8 replays for the eighth failure (log 77), and that a warm reset keeps pkgno (log 41) are the
model's. -/
def Obligations.ErrorsAndResets : Prop :=
  (∀ (s : State) (die port a : Nat), die < 64 → 64 ≤ port → port < 68 → a < 2 ^ 24 → sget (0, 0) s.errCnt (resKey die (1, port * 2 ^ 24 + a / 32)) = (0, 0) →
    1 < s.threshold die 1 →
    (∃ t, exec (.correctableError die 1 (port * 2 ^ 24 + a)) s = .next t ∧ t.mem = s.mem ∧ t.slots = s.slots ∧ t.entries = s.entries ∧
      (sget 0x7DBA8218000 s.errwin die ≠ 0 → sget (0, 0) t.errCnt (resKey die (1, port * 2 ^ 24 + a / 32)) = (1, 0)) ∧
      ∃ r, (sget [] t.bbox die).getLast? = some r ∧ r.code = 1) ∧
    (∃ t, exec (.uncorrectableError die 1 (port * 2 ^ 24 + a)) s = .next t ∧ t.mem = s.mem ∧ t.slots = s.slots ∧
      sget 0 t.badw (flat (die * 128 + port) a / 8) = 1 ∧
      ∀ o, oidIdx o ≠ 0 → s.objectAt (die * 128 + port) a = some o → (t.entry o).poison = true)) ∧
  (∀ (s : State) (die lane n : Nat), die < 64 → lane < 4 → 1 ≤ n → n ≤ 8 → tbit (s.margin (4 * die + lane)) 63 = true →
    ∃ t, exec (.linkCrcFailure die lane n) s = .next t ∧ t = { s with bbox := t.bbox } ∧
      ∃ r, (sget [] t.bbox die).getLast? = some r ∧ r.code = (if n = 8 then 4 else 3)) ∧
  (∀ (s : State) (die lane x : Nat), die < 64 → lane < 68 → (4 ≤ lane ∨ tbit (s.margin (4 * die + lane)) 63 = true) →
    ∃ t, exec (.linkCrcFailure die lane (8 + 16 * (2 * (x + 1)))) s = .next t ∧ (∀ i, i < 8 → sget 0 t.badw (x * 8 + i) = 1) ∧
      (∀ j, j / 8 ≠ x → sget 0 t.badw j = sget 0 s.badw j) ∧ t.mem = s.mem ∧ t.slots = s.slots) ∧
  (∀ (s : State) (die lane what : Nat), (lane = 69 ∧ die ≠ 3 ∧ die ≠ 60) ∨ (lane = 70 ∧ die % 8 ≠ 0 ∧ die % 8 ≠ 7) →
    exec (.linkCrcFailure die lane what) s = .fault .noSuchUnit) ∧
  (∀ (s : State) (die lane x : Nat), die < 64 → 68 ≤ lane → lane < 71 → (lane = 69 → die = 3 ∨ die = 60) →
    (lane = 70 → die % 8 = 0 ∨ die % 8 = 7) →
    ∃ t, exec (.linkCrcFailure die lane (1 + 16 * (2 * (x + 1)))) s = .next t ∧ (∀ i, i < 8 → sget 0 t.badw (x * 8 + i) = 1) ∧
      t = { s with badw := t.badw, bbox := t.bbox } ∧ ∃ r, (sget [] t.bbox die).getLast? = some r ∧ r.code = 2) ∧
  (∀ (s : State) (die lane k : Nat) (x : Win) (r : Res), die < 64 → 4 ≤ lane → lane < 68 → k < 2 ^ 17 → x.obj ≠ 0 → x.st = .done r →
    (s.slot k).wins.find? (fun y => y.id == x.id) = some x →
    ∃ t, exec (.linkCrcFailure die lane (8 + 16 * (1 + 2 * k + 2 ^ 18 * x.id))) s = .next t ∧ Ended t k x.id (.fail cCAP_POISON x.obj) ∧
      t.mem = s.mem ∧ (isWindow x.obj = false → (t.entry x.obj).poison = true)) ∧
  (∀ (s : State) (die : Nat), sget 0x7DBA8218000 s.errwin die ≠ 0 → (s.cycle + 1) / 15 % sget 0x7DBA8218000 s.errwin die = 0 →
    (∃ p ∈ s.errCnt, p.1 / 2 ^ 80 = die) → die ∈ s.windowsEnd) ∧
  (∀ (s : State) (die : Nat), die < 64 → die ∈ s.winDue →
    ∃ t, exec (.errorWindowBoundary die) s = .next t ∧ t = { s with errCnt := t.errCnt, winDue := t.winDue } ∧ die ∉ t.winDue ∧
      ∀ k, sget (0, 0) t.errCnt k = if k / 2 ^ 80 = die then (0, 0) else sget (0, 0) s.errCnt k) ∧
  (∀ (s : State) (g : Nat), g < 4096 → (s.tile g).fenced = false → ∃ t, exec (.tileFence g) s = .next t ∧ (t.tile g).fenced = true ∧
    (∀ i, i < 16 → (t.slot (g * 16 + i)).occ = .empty ∧ (t.slot (g * 16 + i)).wins = []) ∧ (∀ c ∈ t.cmds, c.g ≠ g) ∧
    ∃ r, (sget [] t.bbox (g / 64)).getLast? = some r ∧ r.code = 7 ∧ r.info = g) ∧
  (∀ (s : State) (die : Nat), die < 64 → (∃ t, exec (.powerThrottle die) s = .next t ∧ t = { s with throttle := t.throttle } ∧
      sget false t.throttle die = true) ∧
    (sget false s.throttle die = true → ∃ t, exec (.throttleEnd die) s = .next t ∧ t = { s with throttle := t.throttle } ∧
      sget false t.throttle die = false)) ∧
  (∀ (s : State) (g : Nat), sget false s.throttle (g / 64) = true → s.pick g = none ∧ (s.tryTile g = none → s.issue g = .fault .notDue)) ∧
  (∀ (s : State), ∃ t, exec .coldReset s = .next t ∧ t.slots = State.reset.slots ∧ t.entries = [] ∧ t.runs = [] ∧ t.hold = [] ∧ t.wrow = 0 ∧
    (t.up = true ∨ t.romFail ≠ 0) ∧ t.certs = s.certs ∧ t.cycle = 0 ∧ t.ktags = []) ∧
  ∀ (s : State), ∃ t, exec .warmReset s = .next t ∧ t.slots = State.reset.slots ∧ t.entries = [] ∧ t.runs = [] ∧ t.hold = [] ∧ t.wrow = 0 ∧
    t.meas = (s.setWrow 0).meas ∧ t.pkgno = s.pkgno

/-! ### Encodings, the step, reset -/

/-- The words of an instruction, and their meaning: an encoded well-formed instruction decodes to itself with every operand; a pattern that
decodes is the encoding of what it decodes to, of its low parcel where it is a 16-bit form, and its operands are well-formed. -/
def Obligations.DecodeEncode : Prop :=
  (∀ (i : Instr) (w : Nat), wf i = true → encode i = some w → decode w = .ok i ∧ w < 2 ^ 32) ∧
  ∀ (w : Nat) (i : Instr), w < 2 ^ 32 → decode w = .ok i → wf i = true ∧ encode i = some (if w % 4 = 3 then w else w % 2 ^ 16)

/-- 02 R25 to R41: words of several families, written out from their encodings, and the instructions that they stand for. -/
def Obligations.DecodeSamples : Prop :=
  decode 0x003100B3 = .ok (.add 1 2 3) ∧ decode 0xFFF10093 = .ok (.addi 1 2 0xFFF) ∧ decode 0x023100B3 = .ok (.mul 1 2 3) ∧
  decode 0x00208463 = .ok (.beq 1 2 8) ∧ decode 0x008000EF = .ok (.jal 1 8) ∧ decode 0x00000073 = .ok .ecall ∧
  decode 0x10500073 = .ok .wfi ∧ decode 0x8C0110F3 = .ok (.csrrw 1 0x8C0 2) ∧ decode 0x239BF40B = .ok (.landWait 2 3 9 8) ∧
  decode 0 = .error .quadrant ∧ decode 1 = .error .quadrant ∧ decode 0x1F = .error .longPrefix

/-- The instruction that the bytes of the overlay give at `pc`: its low parcel, or the four bytes (02 R25, R27). -/
def Sys2Proof.Claim.wordAtPc (s : State) (g pc : Nat) : Nat :=
  if mnat s.mem (flat (spOverlay g) pc) 2 % 4 = 3 then mnat s.mem (flat (spOverlay g) pc) 4 else mnat s.mem (flat (spOverlay g) pc) 2
/-- Tile g issues next, when no slot of it comes to wait first, from slot k, whose strand fetches at `pc` in loaded overlay slots (03 R52, R53, 05 R131). -/
def Sys2Proof.Claim.Issues (s : State) (g k pc : Nat) (ts : List Turn) : Prop :=
  s.expiry = none ∧ s.agenda = .issue g :: ts ∧ g < 4096 ∧ State.tryTile { s with agenda := ts } g = none ∧ (s.tile g).issuedAt ≠ s.cycle + 1 ∧ s.pick g = some k ∧ k / 16 = g ∧
    (s.slot k).pbPos = none ∧ (s.slot k).startFault = none ∧ ((s.slot k).skip = 0 ∨ (s.slot k).mode = .d) ∧
    (s.slot k).pc.toNat = pc ∧ pc % 2 = 0 ∧ pc + 4 ≤ 2 ^ 16 ∧
    ∀ j, j = pc / 8192 ∨ j = (pc + 2) / 8192 → (sget {} (s.tile g).ov j).busy = false ∧ (sget {} (s.tile g).ov j).valid = true
/-- 02 R25 to R27, 03 R52: the step of a tile whose turn it is executes the instruction that the bytes at the pc of the slot it picks decode
to, with that slot's strand executing, and the cycle is used; bytes that decode to none raise ILLEGAL with their bits. An eligible slot of
the tile whose next instruction must wait comes to wait first, in a step of its own (03 R51; log 5). The slot that
is picked, the triggers and the agenda are those of 03 R53, 16 R395 and log 5. -/
def Obligations.StepRunsDecoded : Prop :=
  (∀ (s u : State) (g : Nat) (ts : List Turn), s.expiry = none → s.agenda = .issue g :: ts → g < 4096 →
    State.tryTile { s with agenda := ts } g = some u →
    step s = .next u ∧ ∃ i, i < 16 ∧ s.eligible (g * 16 + i) = true ∧ u.heldNow (g * 16 + i) = true ∧
      State.issueSlot { s with agenda := ts } (g * 16 + i) = .next u) ∧
  ∀ (s : State) (g k pc : Nat) (ts : List Turn), Issues s g k pc ts →
    (∀ i, decode (wordAtPc s g pc) = .ok i → State.trigger { s with agenda := ts, cur := k } k (some i) = none →
      step s = issueEnd k (wordAtPc s g pc) (exec i { s with agenda := ts, cur := k })) ∧
    (∀ r, decode (wordAtPc s g pc) = .error r → State.trigger { s with agenda := ts, cur := k } k none = none →
      step s = issueEnd k (wordAtPc s g pc) (.next (State.raise { s with agenda := ts, cur := k } cILLEGAL (wordAtPc s g pc)))) ∧
    ∀ t u, issueEnd k (wordAtPc s g pc) (.next t) = .next u → t.heldNow k = false → (u.tile g).issuedAt = t.cycle + 1 ∧ u.mem = t.mem ∧
      (u.slot k).x = (t.slot k).x ∧ (u.slot k).pc = (t.slot k).pc

/-- Memory keeps its canonical form (addresses rising, no byte equal to what an unlisted address reads as) in every step, from every state
that has it, whatever unit moves. -/
def Obligations.StepKeepsMemoryCanonical : Prop :=
  ∀ s t : State, s.Canonical → step s = .next t → t.Canonical
/-- The memory of the state after reset has the canonical form. -/
def Obligations.ResetMemoryCanonical : Prop := State.reset.Canonical

/-- What the spec says of the machine after reset: no strand in any tile, no run, no object but the arenas, every key Free (14 R356), every world
unassigned and unlocked (14 R352, R362), no capability in any holding entry, the error window and its thresholds (13 R347), the black boxes
and the measurement registers (14 R367) empty. -/
def Obligations.ResetState : Prop :=
  (∀ k, k < sepKey → (State.reset.slot k).occ = .empty) ∧ (State.reset.slot sepKey).mode = .m ∧
  (∀ g, (State.reset.tile g).run = false ∧ (State.reset.tile g).fenced = false) ∧
  (∀ o, oidIdx o ≠ 0 → (State.reset.entry o).valid = false ∧ (State.reset.entry o).gen = 1) ∧
  (∀ o, oidIdx o = 0 → (State.reset.entry o).valid = true ∧ (State.reset.entry o).gen = 1) ∧
  (∀ k, (State.reset.key k).st = .free) ∧ State.reset.wrow = 0 ∧ (∀ w, (State.reset.world w).td = .unlocked) ∧
  (∀ g i, State.reset.holdAt g i = .null) ∧ (∀ o, (sget {} State.reset.wtab o).valid = false) ∧
  (∀ d, sget 0x7DBA8218000 State.reset.errwin d = 0x7DBA8218000 ∧ sget 0x0004004000100010 State.reset.errthr d = 0x0004004000100010) ∧
  (∀ d, sget [] State.reset.bbox d = []) ∧ (∀ i, State.reset.measure i = List.replicate 64 0) ∧ State.reset.cycle = 0

/-! ### Every instruction completes somewhere -/

/-- 05 R130, 14 R358, R360, 10 R267, R268, 03 R76, R79: land.arm, land.wait, land.get, key.new, key.end, mb.recv, mb.peek, rpt and jseg
complete: whenever the state and the operands meet the conditions of normal execution, exec answers a next state, in which the
instruction has issued and its result is written or its window open. -/
def Obligations.InstructionsComplete : Prop :=
  ∀ (s : State) (la a b c d o r n imm : Nat),
    (MaySync s (s.c c) (s.xn o) 16 [rW] true → s.refusedWrite (s.c c).o (s.entry (s.c c).o) ((s.c c).b + s.xn o) 16 = none →
      s.me.restartable = false →
      ∃ t, exec (.landArm la c o r) s = .next t ∧ Opened s t la (.landArm la c o r) (.done {}) ∧
        bits (t.land0 (wordAt s (s.c c) (s.xn o))) 0 56 = (s.x r).toNat % 2 ^ 56) ∧
    (MaySync s (s.c c) (s.xn o) 16 [rR] false → s.me.occ ≠ .codelet →
      ∃ t st, exec (.landWait la c o r) s = .next t ∧ Opened s t la (.landWait la c o r) st ∧ Pending s t ∧ SameMem s t) ∧
    (MaySync s (s.c c) (s.xn o) 16 [rR] false →
      ∃ t, exec (.landGet la c o r) s = .next t ∧ Pending s t ∧ SameMem s t ∧ Opened s t la (.landGet la c o r)
        (.done { xs := [(r, BitVec.ofNat 64 (s.land0 (wordAt s (s.c c) (s.xn o)))),
          (r + 1, BitVec.ofNat 64 (s.land1 (wordAt s (s.c c) (s.xn o))))] })) ∧
    (s.me.mode ≠ .u → ∃ t v, exec (.keyNew d) s = .next t ∧ WroteX s t d v ∧ SameC s t ∧ SameMem s t ∧ Advanced s t 4) ∧
    (s.me.mode ≠ .u → RoomForWindow s →
      ∃ t st, exec (.keyEnd la a d) s = .next t ∧ Opened s t la (.keyEnd la a d) st ∧ Pending s t ∧ SameMem s t) ∧
    (s.me.occ ≠ .codelet → RoomForWindow s → Droppable s d → (s.mbox s.gta n).isSome = true →
      s.badw = [] → sget 0 s.badh (s.gta * 4096 + (3840 + n)) = 0 →
      ∃ t st, exec (.mbRecv la a n d) s = .next t ∧ Opened s t la (.mbRecv la a n d) st ∧ Pending s t) ∧
    ((s.mbox s.gta n).isSome = true → s.badw = [] → sget 0 s.badh (s.gta * 4096 + (3840 + n)) = 0 →
      ∃ t v, exec (.mbPeek n d) s = .next t ∧ WroteX s t d v ∧ SameC s t ∧ SameMem s t ∧ Advanced s t 4) ∧
    (1 ≤ n → n ≤ 31 → s.me.rptLive = false →
      ∃ t, exec (.rpt n b) s = .next t ∧ OnlyMe s t ∧ SameMem s t ∧ SameX s t ∧ SameC s t ∧ t.me.instret = s.me.instret + 1 ∧
        t.me.pc = s.me.pc + 4) ∧
    (s.xn a < 2 ^ 21 → imm < 8 → (sget {} (s.tile s.gta).ov imm).valid = true → (sget {} (s.tile s.gta).ov imm).landed = true →
      (sget {} (s.tile s.gta).ov imm).seg = s.xn a / 8192 →
      ∃ t v, exec (.jseg a d) s = .next t ∧ OnlyMe s t ∧ SameMem s t ∧ SameC s t ∧ WroteX s t d v ∧ t.me.instret = s.me.instret + 1)

/-- 12 R319, R321, R332, 13 R342, 05 R125: the expiries WAIT_LIMIT_EXPIRY of a landing wait, BAR_WAIT_LIMIT_EXPIRY, TIMER_EXPIRY and
WATCHDOG_EXPIRY, and WAIT_LIST_RETRY of a full/empty request, happen whenever they are due. -/
def Sys2Proof.Claim.ExpiriesHappen : Prop :=
  ∀ (s : State) (k : Nat) (x : Win), s.frozen k = false →
    (∀ c gen off d, (s.slot k).wins.find? (fun z => z.id == x.id) = some x → x.id ≠ 0 → x.st = .wait (.land c off gen d) → x.lim = some 0 →
      (s.slot k).wdPend = false →
      ∃ t, exec (.waitLimitExpiry k x.id) s = .next t ∧ t.mem = s.mem ∧ ∀ y ∈ (t.slot k).wins, y.id = x.id → y.st = .fail cWAIT_LIMIT off) ∧
    (∀ v d, (s.slot k).wins.find? (fun z => z.id == x.id) = some x → x.st = .wait (.bar v d) → x.lim = some 0 →
      (s.slot k).wdPend = false →
      ∃ t, exec (.barWaitLimitExpiry k x.id) s = .next t ∧ ∀ y ∈ (t.slot k).wins, y.id = x.id → y.st = .done { xs := [(d, 1)] }) ∧
    ((s.slot k).tmDue = true → ∃ t, exec (.timerExpiry k) s = .next t ∧ tbit (t.slot k).tip.toNat 1 = true) ∧
    ((s.slot k).wdPend = true → (s.slot k).stopped = false → (s.slot k).halted = false →
      ∃ t, exec (.watchdogExpiry k) s = .next t ∧ (t.slot k).wdPend = false ∧ (t.slot k).wdDue = true) ∧
    (∀ op c off d val, (s.slot k).wins.find? (fun z => z.id == x.id) = some x → x.st = .wait (.fe op c off val d false false 0) →
      0 < x.retryAt → x.retryAt ≤ s.cycle → ∃ t, exec (.waitListRetry k x.id) s = .next t ∧ t = s.feArrive k x.id)

/-- 11 R279 to R283, R297, 15 R373, R376: MALFORMED_REQUEST, LAUNCH_REQUEST, HELD_LAUNCH_START, RUN_COMPLETE, COMPLETION_NOTICE and
COMPLETION_REPORT_NEXT happen whenever they are due: a well-formed launch that no status refuses is accepted and its run has the next
id. -/
def Sys2Proof.Claim.RunsHappen : Prop :=
  ∀ (s : State) (w i g : Nat),
    (HostReady s w (s.hget w 0x1000 1) → (s.hget w 0x1000 1 = 0 ∨ 5 < s.hget w 0x1000 1) →
      ∃ t, exec (.malformedRequest w) s = .next t ∧ t.hget w 8 1 = 0xFF ∧ t.slots = s.slots) ∧
    (HostReady s w 1 → badLaunch (s.hget w) (s.hzero w) = false → (s.world w).td = .run →
      LaunchAdmitted s w → s.freeRunEntry = some i →
      ∃ t, exec (.launchRequest w) s = .next t ∧ (sget {} t.runs i).id = s.runNext ∧ t.runNext = s.runNext + 1) ∧
    (s.nextHeld = some i → ∃ t, exec .heldLaunchStart s = .next t ∧ (sget {} t.runs i).id = (sget {} s.runs i).id) ∧
    ((sget {} s.runs i).st = .running → (∀ h ∈ setTiles (sget {} s.runs i).tlo (sget {} s.runs i).thi, s.tileDone h = true) →
      ∃ t, exec (.runComplete i) s = .next t ∧ (sget {} t.runs i).st = .complete) ∧
    (g ∈ (sget {} s.runs i).notify → ∃ t, exec (.completionNotice g i) s = .next t ∧ g ∉ (sget {} t.runs i).notify) ∧
    (s.hasWorld w = true → (s.world w).td ≠ .quiesced → (s.world w).td ≠ .error → (s.world w).reports ≠ [] →
      ∃ t, exec (.completionReportNext w) s = .next t ∧ (t.world w).reports = (s.world w).reports.drop 1)

/-- 15 R372, R374, R382, R383, R385 to R387, 14 R353, R359, R360, 10 R255, R262: UALINK_RETRANSMIT, UALINK_REQUEST_TIMEOUT of an access,
BUSY_RETRY, DUPLICATE_CACHE_EXPIRY, WINDOW_OPEN, WINDOW_ACCESS_AT_EXPORTER and APERTURE_WRITE where they are refused, APERTURE_READ,
CXL_SNOOP, CXL_LINK_TRAINING, FOREIGN_WORLD_REQUEST, ENTROPY_HEALTH_FAILURE, KEY_END_ZERO_FILL_COMPLETE, MESSAGE_COMPLETE of a message
without a capability and BYTE_COPY_COMPLETE happen whenever they are due. The code of a refusal at a station, its cause plus 64, and the
speeds of CXL are the model's (logs 25, 80). -/
def Sys2Proof.Claim.UnitsHappen : Prop :=
  ∀ (s : State) (id st i w k o : Nat) (r : UaReq) (m : Msg),
    (s.uaReq id = some r → r.busy = none → r.sentAt + 30000 ≤ s.cycle → r.tries < 16 →
      ∃ t, exec (.ualinkRetransmit id) s = .next t ∧ t.uaReq id = some { r with tries := r.tries + 1, sentAt := s.cycle }) ∧
    (s.uaReq id = some r → r.busy = none → r.sentAt + 30000 ≤ s.cycle → 16 ≤ r.tries → r.op = .access k w →
      ∃ t, exec (.ualinkRequestTimeout id) s = .next t ∧ t.uaReq id = none) ∧
    (∀ u, s.uaReq id = some r → r.busy = some u → u + 15000 ≤ s.cycle →
      ∃ t, exec (.busyRetry id) s = .next t ∧ t.uaReq id = some { r with busy := none, sentAt := s.cycle }) ∧
    (∀ e, (sget [] s.dups st)[i]? = some e → e.at_ + 3000000 ≤ s.cycle →
      ∃ t, exec (.duplicateCacheExpiry st i) s = .next t ∧ sget [] t.dups st = (sget [] s.dups st).eraseIdx i) ∧
    (∀ peer, st < 64 → i < 4096 → ∃ t, exec (.windowOpen st i peer) s = .next t ∧ t.mem = s.mem ∧
      (bits peer 0 8 ≠ s.pkgno → t.slots = s.slots)) ∧
    (∀ gen off len v, st < 64 → i < 4096 → (sget {} s.wtab (winOid st i)).valid = false →
      ∃ t, exec (.windowAccessAtExporter st i gen off len 0 v) s = .next t ∧ sget (0, []) t.answers (64 + st) = (cCAP_STALE + 64, [])) ∧
    (∀ off len, s.hasWorld w = true → ∃ t, exec (.apertureRead w off len) s = .next t ∧ t.slots = s.slots ∧ t.mem = s.mem) ∧
    (∀ off len v, s.hasWorld w = true → s.aperHit w off len true = none → (s.world w).td = .run →
      ∃ t, exec (.apertureWrite w off len v) s = .next t ∧ (t.world w).aperRefused = ((s.world w).aperRefused + 1) % 2 ^ 32) ∧
    (i * 256 / 2 ^ 48 < 8192 → i * 256 / 2 ^ 48 % 128 = 69 → ∃ t, exec (.cxlSnoop i) s = .next t ∧ sget 0 t.l2 i = 0) ∧
    (∀ width speed, i < 2 → width = 16 ∨ width = 8 → speed ∈ [64, 32, 16, 8, 5, 2] →
      ∃ t, exec (.cxlLinkTraining i width speed) s = .next t ∧ t = { s with cxl := t.cxl }) ∧
    (st < 64 → k < sepKey → (s.slot k).holds = true → s.foreignDie (k / 1024) st = true → s.foreign (k / 16) o = true →
      ∃ t, exec (.foreignWorldRequest st k o) s = .next t ∧ (t.slot k).dfs.length = (s.slot k).dfs.length + 1) ∧
    (∃ t, exec .entropyHealthFailure s = .next t ∧ t.entropyBad = true) ∧
    ((s.zfill.find? fun z => z.1 == st && z.2.1 == i).isSome = true →
      ∃ t, exec (.keyEndZeroFillComplete st i) s = .next t ∧ t.zfill = s.zfill.filter fun y => !(y.1 == st && y.2.1 == i)) ∧
    (∀ pos, s.msgs.find? (fun y => y.id == id) = some m → m.st = .reserved pos → (s.mbox m.dest m.mbox).isSome = true →
      m.payDone = true → m.how = .none → s.countHeld id = false →
      ∃ t, exec (.messageComplete id) s = .next t ∧ ∀ y ∈ t.msgs, y.id ≠ id) ∧
    (∀ pos, s.msgs.find? (fun y => y.id == id) = some m → m.st = .reserved pos → m.how = .copy → m.todo = [] → m.copyDone = false →
      ∃ t, exec (.byteCopyComplete id) s = .next t ∧ ∀ y ∈ t.msgs, y.id = id → y.copyDone = true)

/-- 12 R319, R321, R332, 13 R342, 05 R125: the expiries WAIT_LIMIT_EXPIRY of a landing wait, BAR_WAIT_LIMIT_EXPIRY, TIMER_EXPIRY
and WATCHDOG_EXPIRY, and WAIT_LIST_RETRY of a full/empty request, happen whenever they are due. 11 R279 to R283, R297, 15 R373,
R376: MALFORMED_REQUEST, LAUNCH_REQUEST, HELD_LAUNCH_START, RUN_COMPLETE, COMPLETION_NOTICE and COMPLETION_REPORT_NEXT happen
whenever they are due: a well-formed launch that no status refuses is accepted and its run has the next id. 15 R372, R374, R382,
R383, R385 to R387, 14 R353, R359, R360, 10 R255, R262: UALINK_RETRANSMIT, UALINK_REQUEST_TIMEOUT of an access, BUSY_RETRY,
DUPLICATE_CACHE_EXPIRY, WINDOW_OPEN, WINDOW_ACCESS_AT_EXPORTER and APERTURE_WRITE where they are refused, APERTURE_READ,
CXL_SNOOP, CXL_LINK_TRAINING, FOREIGN_WORLD_REQUEST, ENTROPY_HEALTH_FAILURE, KEY_END_ZERO_FILL_COMPLETE, MESSAGE_COMPLETE of a
message without a capability and BYTE_COPY_COMPLETE happen whenever they are due. The code of a refusal at a station, its cause
plus 64, and the speeds of CXL are the model's (logs 25, 80). -/
def Obligations.EventsComplete : Prop := ExpiriesHappen ∧ RunsHappen ∧ UnitsHappen
end

