-- ==== Sys2Proof/Laws/Tables.lean ====
section
/-! SUPPORT. Laws of sparse tables and of memory: what a read after a write gives, and that every operation keeps the canonical
form. They hold of every list, in canonical form or not, except where the form is the subject. -/
namespace Sys2Proof.Machine

/-! ### Tables -/

section
variable {α : Type} [DecidableEq α]

omit [DecidableEq α] in
theorem sget_sins_self (d : α) (m : SMap α) (k : Nat) (v : α) : sget d (sins m k v) k = v := by
  induction m with
  | nil => simp [sins, sget]
  | cons p r ih =>
    obtain ⟨k', v'⟩ := p
    simp only [sins]
    split
    · simp [sget]
    · split
      · simp [sget]
      · next h => have : k' ≠ k := fun e => h e.symm
                  simp [sget, this, ih]

omit [DecidableEq α] in
theorem sget_sins_ne (d : α) (m : SMap α) {k j : Nat} (v : α) (h : j ≠ k) : sget d (sins m k v) j = sget d m j := by
  induction m with
  | nil => simp [sins, sget, h.symm]
  | cons p r ih =>
    obtain ⟨k', v'⟩ := p
    simp only [sins]
    split
    · simp [sget, h.symm]
    · split
      · next e => subst e; simp [sget, h.symm]
      · simp [sget, ih]

omit [DecidableEq α] in
theorem sget_drop_self (d : α) (m : SMap α) (k : Nat) : sget d (m.filter fun p => p.1 != k) k = d := by
  induction m with
  | nil => rfl
  | cons p r ih =>
    by_cases e : p.1 = k
    · simpa [e] using ih
    · have : (p.1 != k) = true := by simpa using e
      simp only [List.filter, this, sget, if_neg e, ih]

omit [DecidableEq α] in
theorem sget_drop_ne (d : α) (m : SMap α) {k j : Nat} (h : j ≠ k) : sget d (m.filter fun p => p.1 != k) j = sget d m j := by
  induction m with
  | nil => rfl
  | cons p r ih =>
    by_cases e : p.1 = k
    · have : p.1 ≠ j := fun x => h (x ▸ e)
      have c : (p.1 != k) = false := by simpa using e
      simp only [List.filter, c, sget, if_neg this, ih]
    · have c : (p.1 != k) = true := by simpa using e
      simp only [List.filter, c, sget, ih]

/-- Reading the entry just written gives the value. -/
@[simp] theorem sget_sput_self (d : α) (m : SMap α) (k : Nat) (v : α) : sget d (sput d m k v) k = v := by
  unfold sput
  split
  · next h => rw [sget_drop_self, h]
  · exact sget_sins_self d m k v

/-- Writing an entry leaves every other one. -/
theorem sget_sput_ne (d : α) (m : SMap α) {k j : Nat} (v : α) (h : j ≠ k) : sget d (sput d m k v) j = sget d m j := by
  unfold sput
  split
  · exact sget_drop_ne d m h
  · exact sget_sins_ne d m v h

/-- A read after a write, both ways at once. -/
theorem sget_sput (d : α) (m : SMap α) (k j : Nat) (v : α) : sget d (sput d m k v) j = if j = k then v else sget d m j := by
  split
  · next h => rw [h, sget_sput_self]
  · next h => exact sget_sput_ne d m v h

theorem swfFrom_mono (d : α) {a b : Nat} (h : a ≤ b) {m : SMap α} (w : swfFrom d b m = true) : swfFrom d a m = true := by
  cases m with
  | nil => rfl
  | cons p r =>
    simp only [swfFrom, Bool.and_eq_true, decide_eq_true_eq] at w ⊢
    exact ⟨⟨Nat.le_trans h w.1.1, w.1.2⟩, w.2⟩

theorem swfFrom_filter (d : α) (f : Nat × α → Bool) {lo : Nat} {m : SMap α} (w : swfFrom d lo m = true) :
    swfFrom d lo (m.filter f) = true := by
  induction m generalizing lo with
  | nil => rfl
  | cons p r ih =>
    simp only [swfFrom, Bool.and_eq_true, decide_eq_true_eq] at w
    by_cases e : f p = true
    · simp only [List.filter, e, swfFrom, Bool.and_eq_true, decide_eq_true_eq]
      exact ⟨w.1, ih w.2⟩
    · simp only [List.filter, e]
      exact swfFrom_mono d (Nat.le_succ_of_le w.1.1) (ih w.2)

theorem swfFrom_sins (d : α) {lo k : Nat} {v : α} (h : v ≠ d) (hk : lo ≤ k) {m : SMap α} (w : swfFrom d lo m = true) :
    swfFrom d lo (sins m k v) = true := by
  induction m generalizing lo with
  | nil => simp [sins, swfFrom, hk, h]
  | cons p r ih =>
    obtain ⟨k', v'⟩ := p
    simp only [swfFrom, Bool.and_eq_true, decide_eq_true_eq] at w
    simp only [sins]
    split
    · simp only [swfFrom, Bool.and_eq_true, decide_eq_true_eq]
      exact ⟨⟨hk, h⟩, ⟨by omega, w.1.2⟩, w.2⟩
    · split
      · next e => subst e; simp only [swfFrom, Bool.and_eq_true, decide_eq_true_eq]; exact ⟨⟨hk, h⟩, w.2⟩
      · simp only [swfFrom, Bool.and_eq_true, decide_eq_true_eq]
        exact ⟨w.1, ih (by omega) w.2⟩

/-- A write keeps the canonical form. -/
theorem swf_sput (d : α) {m : SMap α} (k : Nat) (v : α) (w : swf d m = true) : swf d (sput d m k v) = true := by
  unfold sput
  split
  · exact swfFrom_filter d _ w
  · next h => exact swfFrom_sins d h (Nat.zero_le k) w

/-- Removing entries keeps the canonical form. -/
theorem swf_filter (d : α) {m : SMap α} (f : Nat × α → Bool) (w : swf d m = true) : swf d (m.filter f) = true :=
  swfFrom_filter d f w

end

/-! ### Memory -/

@[simp] theorem mget_mset_self (m : List Host.Cell) (a : Nat) (b : Byte) : mget (mset m a b) a = b := sget_sput_self 0 m a b
theorem mget_mset (m : List Host.Cell) (a j : Nat) (b : Byte) : mget (mset m a b) j = if j = a then b else mget m j :=
  sget_sput 0 m a j b

/-- A read after bytes were written from `a` on: the byte written there, or what was there before. -/
theorem mget_mwrite (m : List Host.Cell) (a j : Nat) (bs : List Byte) :
    mget (mwrite m a bs) j = if a ≤ j ∧ j < a + bs.length then bs.getD (j - a) 0 else mget m j := by
  induction bs generalizing m a with
  | nil => rw [mwrite, if_neg (by simp)]
  | cons b bs ih =>
    simp only [mwrite, ih, mget_mset, List.length_cons]
    by_cases h : j = a
    · subst h
      rw [if_neg (by omega), if_pos rfl, if_pos (by omega)]; simp
    · by_cases g : a + 1 ≤ j ∧ j < a + 1 + bs.length
      · rw [if_pos g, if_pos (by omega), show j - a = (j - (a + 1)) + 1 by omega]; simp
      · rw [if_neg g, if_neg h, if_neg (by omega)]

/-- A store leaves every byte outside its own. -/
theorem mget_mwrite_out (m : List Host.Cell) (a j : Nat) (bs : List Byte) (h : j < a ∨ a + bs.length ≤ j) :
    mget (mwrite m a bs) j = mget m j := by rw [mget_mwrite, if_neg (by omega)]

/-- The bytes just written are read back. -/
theorem mbytes_mwrite (m : List Host.Cell) (a : Nat) (bs : List Byte) : mbytes (mwrite m a bs) a bs.length = bs := by
  have key : ∀ (n k : Nat) (cs : List Byte), (∀ i, i < n → mget (mwrite m a bs) (k + i) = cs.getD i 0) → cs.length = n →
      mbytes (mwrite m a bs) k n = cs := by
    intro n
    induction n with
    | zero => intro k cs _ h; simp [mbytes, List.length_eq_zero_iff.mp h]
    | succ n ih =>
      intro k cs h l
      match cs, l with
      | c :: cs, l =>
        have h0 : mget (mwrite m a bs) k = c := by simpa using h 0 (by omega)
        have ht : mbytes (mwrite m a bs) (k + 1) n = cs := ih (k + 1) cs
          (fun i hi => by simpa [Nat.add_assoc, Nat.add_comm 1 i] using h (i + 1) (by omega)) (by simpa using l)
        simp [mbytes, h0, ht]
  exact key _ _ _ (fun i hi => by rw [mget_mwrite, if_pos (by omega)]; simp) rfl

theorem wf_mset {m : List Host.Cell} (a : Nat) (b : Byte) (h : Memory.wf m = true) : Memory.wf (mset m a b) = true :=
  swf_sput 0 a b h
/-- Writing bytes keeps the canonical form of memory. -/
theorem wf_mwrite {m : List Host.Cell} (a : Nat) (bs : List Byte) (h : Memory.wf m = true) : Memory.wf (mwrite m a bs) = true := by
  induction bs generalizing m a with
  | nil => exact h
  | cons b bs ih => exact ih (a + 1) (wf_mset a b h)
/-- Clearing bytes keeps it. -/
theorem wf_mzero {m : List Host.Cell} (a n : Nat) (h : Memory.wf m = true) : Memory.wf (mzero m a n) = true := swf_filter 0 _ h

/-- Clearing bytes, read back. -/
theorem mget_mzero (m : List Host.Cell) (a n j : Nat) : mget (mzero m a n) j = if a ≤ j ∧ j < a + n then 0 else mget m j := by
  induction m with
  | nil => simp [mzero, mget, sget]
  | cons p r ih =>
    obtain ⟨k, b⟩ := p
    simp only [mget, mzero] at ih
    simp only [mget, mzero, List.filter]
    by_cases c : k < a ∨ a + n ≤ k
    · have : (decide (k < a) || decide (a + n ≤ k)) = true := by simpa using c
      simp only [this, sget, ih]
      by_cases e : k = j
      · subst e; rw [if_pos rfl, if_neg (by omega), if_pos rfl]
      · simp [e]
    · have : (decide (k < a) || decide (a + n ≤ k)) = false := by simpa using c
      simp only [this, sget, ih]
      by_cases e : k = j
      · subst e; rw [if_pos (by omega), if_pos (by omega)]
      · simp [e]

theorem swfFrom_append {lo mid : Nat} {l r : List Host.Cell} (h : swfFrom (0 : Byte) lo l = true)
    (hl : ∀ p ∈ l, p.1 < mid) (hm : lo ≤ mid) (hr : swfFrom (0 : Byte) mid r = true) : swfFrom (0 : Byte) lo (l ++ r) = true := by
  induction l generalizing lo with
  | nil => exact swfFrom_mono 0 hm hr
  | cons p l ih =>
    obtain ⟨k, b⟩ := p
    simp only [swfFrom, Bool.and_eq_true, decide_eq_true_eq, List.cons_append] at h ⊢
    exact ⟨h.1, ih h.2 (fun q hq => hl q (List.mem_cons_of_mem _ hq)) (hl (k, b) List.mem_cons_self)⟩

theorem swfFrom_ge {lo lo' : Nat} {l : List Host.Cell} (h : swfFrom (0 : Byte) lo l = true) (hl : ∀ p ∈ l, lo' ≤ p.1) :
    swfFrom (0 : Byte) lo' l = true := by
  cases l with
  | nil => rfl
  | cons p r =>
    simp only [swfFrom, Bool.and_eq_true, decide_eq_true_eq] at h ⊢
    exact ⟨⟨hl p List.mem_cons_self, h.1.2⟩, h.2⟩

theorem swfFrom_shift {lo src dst : Nat} {l : List Host.Cell} (hs : src ≤ lo) (h : swfFrom (0 : Byte) lo l = true) :
    swfFrom (0 : Byte) (lo - src + dst) (l.map fun c => (c.1 - src + dst, c.2)) = true := by
  induction l generalizing lo with
  | nil => rfl
  | cons p l ih =>
    obtain ⟨k, b⟩ := p
    simp only [swfFrom, Bool.and_eq_true, decide_eq_true_eq, List.map_cons] at h ⊢
    refine ⟨⟨by omega, h.1.2⟩, ?_⟩
    have := ih (lo := k + 1) (by omega) h.2
    rwa [show k + 1 - src + dst = k - src + dst + 1 by omega] at this

/-- Copying a range keeps the canonical form of memory. -/
theorem wf_mcopy {m : List Host.Cell} (src dst n : Nat) (h : Memory.wf m = true) : Memory.wf (mcopy m src dst n) = true := by
  have hf : ∀ f : Host.Cell → Bool, swfFrom (0 : Byte) 0 (m.filter f) = true := fun f => swfFrom_filter 0 f h
  have mid := swfFrom_shift (dst := dst) (Nat.le_refl src) (swfFrom_ge (lo' := src)
    (hf fun c => decide (src ≤ c.1) && decide (c.1 < src + n)) (fun p hp => by simp at hp; omega))
  simp only [Nat.sub_self, Nat.zero_add] at mid
  have last := swfFrom_ge (lo' := dst + n) (hf fun c => decide (dst + n ≤ c.1)) (fun p hp => by simpa using (List.mem_filter.mp hp).2)
  have right := swfFrom_append mid (fun p hp => by
    obtain ⟨q, hq, rfl⟩ := List.mem_map.mp hp
    simp at hq; simp; omega) (Nat.le_add_right dst n) last
  have first := swfFrom_append (hf fun c => decide (c.1 < dst)) (fun p hp => by simpa using (List.mem_filter.mp hp).2)
    (Nat.zero_le dst) right
  unfold Memory.wf swf mcopy
  rw [List.append_assoc]
  exact first

end Sys2Proof.Machine
end

