-- ==== Sys2Proof/Laws/State.lean ====
section
/-! SUPPORT. What each named update of the state leaves alone, field by field, and what it writes. -/
namespace Sys2Proof.Machine
set_option Elab.async false

/-! ### Slots and tiles of the package -/

@[simp] theorem State.slot_putSlot (s : State) (k j : Nat) (t : Slot) : (s.putSlot k t).slot j = if j = k then t else s.slot j :=
  sget_sput ({} : Slot) s.slots k j t
@[simp] theorem State.tile_putTile (s : State) (g j : Nat) (t : Tile) : (s.putTile g t).tile j = if j = g then t else s.tile j :=
  sget_sput ({} : Tile) s.tiles g j t
@[simp] theorem State.tile_putSlot (s : State) (k j : Nat) (t : Slot) : (s.putSlot k t).tile j = s.tile j := rfl
@[simp] theorem State.slot_putTile (s : State) (g j : Nat) (t : Tile) : (s.putTile g t).slot j = s.slot j := rfl
theorem State.upd_eq (s : State) (f : Slot → Slot) : s.upd f = s.putSlot s.cur (f s.me) := rfl
theorem State.updSlot_eq (s : State) (k : Nat) (f : Slot → Slot) : s.updSlot k f = s.putSlot k (f (s.slot k)) := rfl
theorem State.updTile_eq (s : State) (g : Nat) (f : Tile → Tile) : s.updTile g f = s.putTile g (f (s.tile g)) := rfl
@[simp] theorem State.me_upd (s : State) (f : Slot → Slot) : (s.upd f).me = f s.me := sget_sput_self ({} : Slot) s.slots s.cur _
@[simp] theorem State.slot_upd (s : State) (f : Slot → Slot) (j : Nat) : (s.upd f).slot j = if j = s.cur then f s.me else s.slot j :=
  sget_sput ({} : Slot) s.slots s.cur j _
@[simp] theorem State.putSlot_agenda (s : State) (k : Nat) (t : Slot) : (s.putSlot k t).agenda = s.agenda := rfl
@[simp] theorem State.upd_agenda (s : State) (f : Slot → Slot) : (s.upd f).agenda = s.agenda := rfl
@[simp] theorem State.putSlot_cur (s : State) (k : Nat) (t : Slot) : (s.putSlot k t).cur = s.cur := rfl
@[simp] theorem State.upd_cur (s : State) (f : Slot → Slot) : (s.upd f).cur = s.cur := rfl
@[simp] theorem State.putSlot_free (s : State) (k : Nat) (t : Slot) : (s.putSlot k t).free = s.free := rfl
@[simp] theorem State.upd_free (s : State) (f : Slot → Slot) : (s.upd f).free = s.free := rfl
@[simp] theorem State.putSlot_cycle (s : State) (k : Nat) (t : Slot) : (s.putSlot k t).cycle = s.cycle := rfl
@[simp] theorem State.upd_cycle (s : State) (f : Slot → Slot) : (s.upd f).cycle = s.cycle := rfl
@[simp] theorem State.putSlot_tiles (s : State) (k : Nat) (t : Slot) : (s.putSlot k t).tiles = s.tiles := rfl
@[simp] theorem State.upd_tiles (s : State) (f : Slot → Slot) : (s.upd f).tiles = s.tiles := rfl
@[simp] theorem State.putSlot_hold (s : State) (k : Nat) (t : Slot) : (s.putSlot k t).hold = s.hold := rfl
@[simp] theorem State.upd_hold (s : State) (f : Slot → Slot) : (s.upd f).hold = s.hold := rfl
@[simp] theorem State.putSlot_claims (s : State) (k : Nat) (t : Slot) : (s.putSlot k t).claims = s.claims := rfl
@[simp] theorem State.upd_claims (s : State) (f : Slot → Slot) : (s.upd f).claims = s.claims := rfl
@[simp] theorem State.putSlot_mem (s : State) (k : Nat) (t : Slot) : (s.putSlot k t).mem = s.mem := rfl
@[simp] theorem State.upd_mem (s : State) (f : Slot → Slot) : (s.upd f).mem = s.mem := rfl
@[simp] theorem State.putSlot_fe (s : State) (k : Nat) (t : Slot) : (s.putSlot k t).fe = s.fe := rfl
@[simp] theorem State.upd_fe (s : State) (f : Slot → Slot) : (s.upd f).fe = s.fe := rfl
@[simp] theorem State.putSlot_entries (s : State) (k : Nat) (t : Slot) : (s.putSlot k t).entries = s.entries := rfl
@[simp] theorem State.upd_entries (s : State) (f : Slot → Slot) : (s.upd f).entries = s.entries := rfl
@[simp] theorem State.putSlot_l1 (s : State) (k : Nat) (t : Slot) : (s.putSlot k t).l1 = s.l1 := rfl
@[simp] theorem State.upd_l1 (s : State) (f : Slot → Slot) : (s.upd f).l1 = s.l1 := rfl
@[simp] theorem State.putSlot_bbox (s : State) (k : Nat) (t : Slot) : (s.putSlot k t).bbox = s.bbox := rfl
@[simp] theorem State.upd_bbox (s : State) (f : Slot → Slot) : (s.upd f).bbox = s.bbox := rfl
@[simp] theorem State.putSlot_wrow (s : State) (k : Nat) (t : Slot) : (s.putSlot k t).wrow = s.wrow := rfl
@[simp] theorem State.upd_wrow (s : State) (f : Slot → Slot) : (s.upd f).wrow = s.wrow := rfl
@[simp] theorem State.putSlot_pkgno (s : State) (k : Nat) (t : Slot) : (s.putSlot k t).pkgno = s.pkgno := rfl
@[simp] theorem State.upd_pkgno (s : State) (f : Slot → Slot) : (s.upd f).pkgno = s.pkgno := rfl
@[simp] theorem State.putSlot_keys (s : State) (k : Nat) (t : Slot) : (s.putSlot k t).keys = s.keys := rfl
@[simp] theorem State.upd_keys (s : State) (f : Slot → Slot) : (s.upd f).keys = s.keys := rfl
@[simp] theorem State.putSlot_ktags (s : State) (k : Nat) (t : Slot) : (s.putSlot k t).ktags = s.ktags := rfl
@[simp] theorem State.upd_ktags (s : State) (f : Slot → Slot) : (s.upd f).ktags = s.ktags := rfl
@[simp] theorem State.putSlot_vers (s : State) (k : Nat) (t : Slot) : (s.putSlot k t).vers = s.vers := rfl
@[simp] theorem State.upd_vers (s : State) (f : Slot → Slot) : (s.upd f).vers = s.vers := rfl
@[simp] theorem State.putSlot_l2 (s : State) (k : Nat) (t : Slot) : (s.putSlot k t).l2 = s.l2 := rfl
@[simp] theorem State.upd_l2 (s : State) (f : Slot → Slot) : (s.upd f).l2 = s.l2 := rfl
@[simp] theorem State.putSlot_badw (s : State) (k : Nat) (t : Slot) : (s.putSlot k t).badw = s.badw := rfl
@[simp] theorem State.upd_badw (s : State) (f : Slot → Slot) : (s.upd f).badw = s.badw := rfl
@[simp] theorem State.putSlot_marks (s : State) (k : Nat) (t : Slot) : (s.putSlot k t).marks = s.marks := rfl
@[simp] theorem State.upd_marks (s : State) (f : Slot → Slot) : (s.upd f).marks = s.marks := rfl
@[simp] theorem State.putSlot_mcaps (s : State) (k : Nat) (t : Slot) : (s.putSlot k t).mcaps = s.mcaps := rfl
@[simp] theorem State.upd_mcaps (s : State) (f : Slot → Slot) : (s.upd f).mcaps = s.mcaps := rfl
@[simp] theorem State.putSlot_badh (s : State) (k : Nat) (t : Slot) : (s.putSlot k t).badh = s.badh := rfl
@[simp] theorem State.upd_badh (s : State) (f : Slot → Slot) : (s.upd f).badh = s.badh := rfl
@[simp] theorem State.putSlot_umark (s : State) (k : Nat) (t : Slot) : (s.putSlot k t).umark = s.umark := rfl
@[simp] theorem State.upd_umark (s : State) (f : Slot → Slot) : (s.upd f).umark = s.umark := rfl
@[simp] theorem State.putSlot_dead (s : State) (k : Nat) (t : Slot) : (s.putSlot k t).dead = s.dead := rfl
@[simp] theorem State.upd_dead (s : State) (f : Slot → Slot) : (s.upd f).dead = s.dead := rfl
@[simp] theorem State.putSlot_wtab (s : State) (k : Nat) (t : Slot) : (s.putSlot k t).wtab = s.wtab := rfl
@[simp] theorem State.upd_wtab (s : State) (f : Slot → Slot) : (s.upd f).wtab = s.wtab := rfl
@[simp] theorem State.putSlot_uareqs (s : State) (k : Nat) (t : Slot) : (s.putSlot k t).uareqs = s.uareqs := rfl
@[simp] theorem State.upd_uareqs (s : State) (f : Slot → Slot) : (s.upd f).uareqs = s.uareqs := rfl
@[simp] theorem State.putSlot_uaNext (s : State) (k : Nat) (t : Slot) : (s.putSlot k t).uaNext = s.uaNext := rfl
@[simp] theorem State.upd_uaNext (s : State) (f : Slot → Slot) : (s.upd f).uaNext = s.uaNext := rfl
@[simp] theorem State.putSlot_dups (s : State) (k : Nat) (t : Slot) : (s.putSlot k t).dups = s.dups := rfl
@[simp] theorem State.upd_dups (s : State) (f : Slot → Slot) : (s.upd f).dups = s.dups := rfl
@[simp] theorem State.putSlot_routes (s : State) (k : Nat) (t : Slot) : (s.putSlot k t).routes = s.routes := rfl
@[simp] theorem State.upd_routes (s : State) (f : Slot → Slot) : (s.upd f).routes = s.routes := rfl
@[simp] theorem State.putSlot_answers (s : State) (k : Nat) (t : Slot) : (s.putSlot k t).answers = s.answers := rfl
@[simp] theorem State.upd_answers (s : State) (f : Slot → Slot) : (s.upd f).answers = s.answers := rfl
@[simp] theorem State.putSlot_tags (s : State) (k : Nat) (t : Slot) : (s.putSlot k t).tags = s.tags := rfl
@[simp] theorem State.upd_tags (s : State) (f : Slot → Slot) : (s.upd f).tags = s.tags := rfl
@[simp] theorem State.putSlot_waits (s : State) (k : Nat) (t : Slot) : (s.putSlot k t).waits = s.waits := rfl
@[simp] theorem State.upd_waits (s : State) (f : Slot → Slot) : (s.upd f).waits = s.waits := rfl
@[simp] theorem State.putSlot_late (s : State) (k : Nat) (t : Slot) : (s.putSlot k t).late = s.late := rfl
@[simp] theorem State.upd_late (s : State) (f : Slot → Slot) : (s.upd f).late = s.late := rfl
@[simp] theorem State.putSlot_stopq (s : State) (k : Nat) (t : Slot) : (s.putSlot k t).stopq = s.stopq := rfl
@[simp] theorem State.upd_stopq (s : State) (f : Slot → Slot) : (s.upd f).stopq = s.stopq := rfl
@[simp] theorem State.putSlot_cmds (s : State) (k : Nat) (t : Slot) : (s.putSlot k t).cmds = s.cmds := rfl
@[simp] theorem State.upd_cmds (s : State) (f : Slot → Slot) : (s.upd f).cmds = s.cmds := rfl
@[simp] theorem State.putSlot_msgs (s : State) (k : Nat) (t : Slot) : (s.putSlot k t).msgs = s.msgs := rfl
@[simp] theorem State.upd_msgs (s : State) (f : Slot → Slot) : (s.upd f).msgs = s.msgs := rfl
@[simp] theorem State.putSlot_subs (s : State) (k : Nat) (t : Slot) : (s.putSlot k t).subs = s.subs := rfl
@[simp] theorem State.upd_subs (s : State) (f : Slot → Slot) : (s.upd f).subs = s.subs := rfl
@[simp] theorem State.putSlot_treqs (s : State) (k : Nat) (t : Slot) : (s.putSlot k t).treqs = s.treqs := rfl
@[simp] theorem State.upd_treqs (s : State) (f : Slot → Slot) : (s.upd f).treqs = s.treqs := rfl
@[simp] theorem State.putSlot_nextId (s : State) (k : Nat) (t : Slot) : (s.putSlot k t).nextId = s.nextId := rfl
@[simp] theorem State.upd_nextId (s : State) (f : Slot → Slot) : (s.upd f).nextId = s.nextId := rfl
@[simp] theorem State.putSlot_refused (s : State) (k : Nat) (t : Slot) : (s.putSlot k t).refused = s.refused := rfl
@[simp] theorem State.upd_refused (s : State) (f : Slot → Slot) : (s.upd f).refused = s.refused := rfl
@[simp] theorem State.putSlot_migs (s : State) (k : Nat) (t : Slot) : (s.putSlot k t).migs = s.migs := rfl
@[simp] theorem State.upd_migs (s : State) (f : Slot → Slot) : (s.upd f).migs = s.migs := rfl
@[simp] theorem State.putSlot_saved (s : State) (k : Nat) (t : Slot) : (s.putSlot k t).saved = s.saved := rfl
@[simp] theorem State.upd_saved (s : State) (f : Slot → Slot) : (s.upd f).saved = s.saved := rfl
@[simp] theorem State.putSlot_bars (s : State) (k : Nat) (t : Slot) : (s.putSlot k t).bars = s.bars := rfl
@[simp] theorem State.upd_bars (s : State) (f : Slot → Slot) : (s.upd f).bars = s.bars := rfl
@[simp] theorem State.putSlot_runs (s : State) (k : Nat) (t : Slot) : (s.putSlot k t).runs = s.runs := rfl
@[simp] theorem State.upd_runs (s : State) (f : Slot → Slot) : (s.upd f).runs = s.runs := rfl
@[simp] theorem State.putSlot_runNext (s : State) (k : Nat) (t : Slot) : (s.putSlot k t).runNext = s.runNext := rfl
@[simp] theorem State.upd_runNext (s : State) (f : Slot → Slot) : (s.upd f).runNext = s.runNext := rfl
@[simp] theorem State.putSlot_worlds (s : State) (k : Nat) (t : Slot) : (s.putSlot k t).worlds = s.worlds := rfl
@[simp] theorem State.upd_worlds (s : State) (f : Slot → Slot) : (s.upd f).worlds = s.worlds := rfl
@[simp] theorem State.putSlot_keyEnds (s : State) (k : Nat) (t : Slot) : (s.putSlot k t).keyEnds = s.keyEnds := rfl
@[simp] theorem State.upd_keyEnds (s : State) (f : Slot → Slot) : (s.upd f).keyEnds = s.keyEnds := rfl
@[simp] theorem State.putSlot_zfill (s : State) (k : Nat) (t : Slot) : (s.putSlot k t).zfill = s.zfill := rfl
@[simp] theorem State.upd_zfill (s : State) (f : Slot → Slot) : (s.upd f).zfill = s.zfill := rfl
@[simp] theorem State.putSlot_conns (s : State) (k : Nat) (t : Slot) : (s.putSlot k t).conns = s.conns := rfl
@[simp] theorem State.upd_conns (s : State) (f : Slot → Slot) : (s.upd f).conns = s.conns := rfl
@[simp] theorem State.putSlot_certs (s : State) (k : Nat) (t : Slot) : (s.putSlot k t).certs = s.certs := rfl
@[simp] theorem State.upd_certs (s : State) (f : Slot → Slot) : (s.upd f).certs = s.certs := rfl
@[simp] theorem State.putSlot_meas (s : State) (k : Nat) (t : Slot) : (s.putSlot k t).meas = s.meas := rfl
@[simp] theorem State.upd_meas (s : State) (f : Slot → Slot) : (s.upd f).meas = s.meas := rfl
@[simp] theorem State.putSlot_boardCert (s : State) (k : Nat) (t : Slot) : (s.putSlot k t).boardCert = s.boardCert := rfl
@[simp] theorem State.upd_boardCert (s : State) (f : Slot → Slot) : (s.upd f).boardCert = s.boardCert := rfl
@[simp] theorem State.putSlot_romFail (s : State) (k : Nat) (t : Slot) : (s.putSlot k t).romFail = s.romFail := rfl
@[simp] theorem State.upd_romFail (s : State) (f : Slot → Slot) : (s.upd f).romFail = s.romFail := rfl
@[simp] theorem State.putSlot_entropyBad (s : State) (k : Nat) (t : Slot) : (s.putSlot k t).entropyBad = s.entropyBad := rfl
@[simp] theorem State.upd_entropyBad (s : State) (f : Slot → Slot) : (s.upd f).entropyBad = s.entropyBad := rfl
@[simp] theorem State.putSlot_up (s : State) (k : Nat) (t : Slot) : (s.putSlot k t).up = s.up := rfl
@[simp] theorem State.upd_up (s : State) (f : Slot → Slot) : (s.upd f).up = s.up := rfl
@[simp] theorem State.putSlot_deadDie (s : State) (k : Nat) (t : Slot) : (s.putSlot k t).deadDie = s.deadDie := rfl
@[simp] theorem State.upd_deadDie (s : State) (f : Slot → Slot) : (s.upd f).deadDie = s.deadDie := rfl
@[simp] theorem State.putSlot_opWorld (s : State) (k : Nat) (t : Slot) : (s.putSlot k t).opWorld = s.opWorld := rfl
@[simp] theorem State.upd_opWorld (s : State) (f : Slot → Slot) : (s.upd f).opWorld = s.opWorld := rfl
@[simp] theorem State.putSlot_margins (s : State) (k : Nat) (t : Slot) : (s.putSlot k t).margins = s.margins := rfl
@[simp] theorem State.upd_margins (s : State) (f : Slot → Slot) : (s.upd f).margins = s.margins := rfl
@[simp] theorem State.putSlot_rails (s : State) (k : Nat) (t : Slot) : (s.putSlot k t).rails = s.rails := rfl
@[simp] theorem State.upd_rails (s : State) (f : Slot → Slot) : (s.upd f).rails = s.rails := rfl
@[simp] theorem State.putSlot_railsNew (s : State) (k : Nat) (t : Slot) : (s.putSlot k t).railsNew = s.railsNew := rfl
@[simp] theorem State.upd_railsNew (s : State) (f : Slot → Slot) : (s.upd f).railsNew = s.railsNew := rfl
@[simp] theorem State.putSlot_tests (s : State) (k : Nat) (t : Slot) : (s.putSlot k t).tests = s.tests := rfl
@[simp] theorem State.upd_tests (s : State) (f : Slot → Slot) : (s.upd f).tests = s.tests := rfl
@[simp] theorem State.putSlot_winDue (s : State) (k : Nat) (t : Slot) : (s.putSlot k t).winDue = s.winDue := rfl
@[simp] theorem State.upd_winDue (s : State) (f : Slot → Slot) : (s.upd f).winDue = s.winDue := rfl
@[simp] theorem State.putSlot_errCnt (s : State) (k : Nat) (t : Slot) : (s.putSlot k t).errCnt = s.errCnt := rfl
@[simp] theorem State.upd_errCnt (s : State) (f : Slot → Slot) : (s.upd f).errCnt = s.errCnt := rfl
@[simp] theorem State.putSlot_spares (s : State) (k : Nat) (t : Slot) : (s.putSlot k t).spares = s.spares := rfl
@[simp] theorem State.upd_spares (s : State) (f : Slot → Slot) : (s.upd f).spares = s.spares := rfl
@[simp] theorem State.putSlot_repairs (s : State) (k : Nat) (t : Slot) : (s.putSlot k t).repairs = s.repairs := rfl
@[simp] theorem State.upd_repairs (s : State) (f : Slot → Slot) : (s.upd f).repairs = s.repairs := rfl
@[simp] theorem State.putSlot_l2off (s : State) (k : Nat) (t : Slot) : (s.putSlot k t).l2off = s.l2off := rfl
@[simp] theorem State.upd_l2off (s : State) (f : Slot → Slot) : (s.upd f).l2off = s.l2off := rfl
@[simp] theorem State.putSlot_l2new (s : State) (k : Nat) (t : Slot) : (s.putSlot k t).l2new = s.l2new := rfl
@[simp] theorem State.upd_l2new (s : State) (f : Slot → Slot) : (s.upd f).l2new = s.l2new := rfl
@[simp] theorem State.putSlot_throttle (s : State) (k : Nat) (t : Slot) : (s.putSlot k t).throttle = s.throttle := rfl
@[simp] theorem State.upd_throttle (s : State) (f : Slot → Slot) : (s.upd f).throttle = s.throttle := rfl
@[simp] theorem State.putSlot_cxl (s : State) (k : Nat) (t : Slot) : (s.putSlot k t).cxl = s.cxl := rfl
@[simp] theorem State.upd_cxl (s : State) (f : Slot → Slot) : (s.upd f).cxl = s.cxl := rfl
@[simp] theorem State.putSlot_errwin (s : State) (k : Nat) (t : Slot) : (s.putSlot k t).errwin = s.errwin := rfl
@[simp] theorem State.upd_errwin (s : State) (f : Slot → Slot) : (s.upd f).errwin = s.errwin := rfl
@[simp] theorem State.putSlot_errthr (s : State) (k : Nat) (t : Slot) : (s.putSlot k t).errthr = s.errthr := rfl
@[simp] theorem State.upd_errthr (s : State) (f : Slot → Slot) : (s.upd f).errthr = s.errthr := rfl
@[simp] theorem State.putTile_agenda (s : State) (g : Nat) (t : Tile) : (s.putTile g t).agenda = s.agenda := rfl
@[simp] theorem State.putTile_cur (s : State) (g : Nat) (t : Tile) : (s.putTile g t).cur = s.cur := rfl
@[simp] theorem State.putTile_free (s : State) (g : Nat) (t : Tile) : (s.putTile g t).free = s.free := rfl
@[simp] theorem State.putTile_cycle (s : State) (g : Nat) (t : Tile) : (s.putTile g t).cycle = s.cycle := rfl
@[simp] theorem State.putTile_slots (s : State) (g : Nat) (t : Tile) : (s.putTile g t).slots = s.slots := rfl
@[simp] theorem State.putTile_hold (s : State) (g : Nat) (t : Tile) : (s.putTile g t).hold = s.hold := rfl
@[simp] theorem State.putTile_claims (s : State) (g : Nat) (t : Tile) : (s.putTile g t).claims = s.claims := rfl
@[simp] theorem State.putTile_mem (s : State) (g : Nat) (t : Tile) : (s.putTile g t).mem = s.mem := rfl
@[simp] theorem State.putTile_fe (s : State) (g : Nat) (t : Tile) : (s.putTile g t).fe = s.fe := rfl
@[simp] theorem State.putTile_entries (s : State) (g : Nat) (t : Tile) : (s.putTile g t).entries = s.entries := rfl
@[simp] theorem State.putTile_l1 (s : State) (g : Nat) (t : Tile) : (s.putTile g t).l1 = s.l1 := rfl
@[simp] theorem State.putTile_bbox (s : State) (g : Nat) (t : Tile) : (s.putTile g t).bbox = s.bbox := rfl
@[simp] theorem State.putTile_wrow (s : State) (g : Nat) (t : Tile) : (s.putTile g t).wrow = s.wrow := rfl
@[simp] theorem State.putTile_pkgno (s : State) (g : Nat) (t : Tile) : (s.putTile g t).pkgno = s.pkgno := rfl
@[simp] theorem State.putTile_keys (s : State) (g : Nat) (t : Tile) : (s.putTile g t).keys = s.keys := rfl
@[simp] theorem State.putTile_ktags (s : State) (g : Nat) (t : Tile) : (s.putTile g t).ktags = s.ktags := rfl
@[simp] theorem State.putTile_vers (s : State) (g : Nat) (t : Tile) : (s.putTile g t).vers = s.vers := rfl
@[simp] theorem State.putTile_l2 (s : State) (g : Nat) (t : Tile) : (s.putTile g t).l2 = s.l2 := rfl
@[simp] theorem State.putTile_badw (s : State) (g : Nat) (t : Tile) : (s.putTile g t).badw = s.badw := rfl
@[simp] theorem State.putTile_marks (s : State) (g : Nat) (t : Tile) : (s.putTile g t).marks = s.marks := rfl
@[simp] theorem State.putTile_mcaps (s : State) (g : Nat) (t : Tile) : (s.putTile g t).mcaps = s.mcaps := rfl
@[simp] theorem State.putTile_badh (s : State) (g : Nat) (t : Tile) : (s.putTile g t).badh = s.badh := rfl
@[simp] theorem State.putTile_umark (s : State) (g : Nat) (t : Tile) : (s.putTile g t).umark = s.umark := rfl
@[simp] theorem State.putTile_dead (s : State) (g : Nat) (t : Tile) : (s.putTile g t).dead = s.dead := rfl
@[simp] theorem State.putTile_wtab (s : State) (g : Nat) (t : Tile) : (s.putTile g t).wtab = s.wtab := rfl
@[simp] theorem State.putTile_uareqs (s : State) (g : Nat) (t : Tile) : (s.putTile g t).uareqs = s.uareqs := rfl
@[simp] theorem State.putTile_uaNext (s : State) (g : Nat) (t : Tile) : (s.putTile g t).uaNext = s.uaNext := rfl
@[simp] theorem State.putTile_dups (s : State) (g : Nat) (t : Tile) : (s.putTile g t).dups = s.dups := rfl
@[simp] theorem State.putTile_routes (s : State) (g : Nat) (t : Tile) : (s.putTile g t).routes = s.routes := rfl
@[simp] theorem State.putTile_answers (s : State) (g : Nat) (t : Tile) : (s.putTile g t).answers = s.answers := rfl
@[simp] theorem State.putTile_tags (s : State) (g : Nat) (t : Tile) : (s.putTile g t).tags = s.tags := rfl
@[simp] theorem State.putTile_waits (s : State) (g : Nat) (t : Tile) : (s.putTile g t).waits = s.waits := rfl
@[simp] theorem State.putTile_late (s : State) (g : Nat) (t : Tile) : (s.putTile g t).late = s.late := rfl
@[simp] theorem State.putTile_stopq (s : State) (g : Nat) (t : Tile) : (s.putTile g t).stopq = s.stopq := rfl
@[simp] theorem State.putTile_cmds (s : State) (g : Nat) (t : Tile) : (s.putTile g t).cmds = s.cmds := rfl
@[simp] theorem State.putTile_msgs (s : State) (g : Nat) (t : Tile) : (s.putTile g t).msgs = s.msgs := rfl
@[simp] theorem State.putTile_subs (s : State) (g : Nat) (t : Tile) : (s.putTile g t).subs = s.subs := rfl
@[simp] theorem State.putTile_treqs (s : State) (g : Nat) (t : Tile) : (s.putTile g t).treqs = s.treqs := rfl
@[simp] theorem State.putTile_nextId (s : State) (g : Nat) (t : Tile) : (s.putTile g t).nextId = s.nextId := rfl
@[simp] theorem State.putTile_refused (s : State) (g : Nat) (t : Tile) : (s.putTile g t).refused = s.refused := rfl
@[simp] theorem State.putTile_migs (s : State) (g : Nat) (t : Tile) : (s.putTile g t).migs = s.migs := rfl
@[simp] theorem State.putTile_saved (s : State) (g : Nat) (t : Tile) : (s.putTile g t).saved = s.saved := rfl
@[simp] theorem State.putTile_bars (s : State) (g : Nat) (t : Tile) : (s.putTile g t).bars = s.bars := rfl
@[simp] theorem State.putTile_runs (s : State) (g : Nat) (t : Tile) : (s.putTile g t).runs = s.runs := rfl
@[simp] theorem State.putTile_runNext (s : State) (g : Nat) (t : Tile) : (s.putTile g t).runNext = s.runNext := rfl
@[simp] theorem State.putTile_worlds (s : State) (g : Nat) (t : Tile) : (s.putTile g t).worlds = s.worlds := rfl
@[simp] theorem State.putTile_keyEnds (s : State) (g : Nat) (t : Tile) : (s.putTile g t).keyEnds = s.keyEnds := rfl
@[simp] theorem State.putTile_zfill (s : State) (g : Nat) (t : Tile) : (s.putTile g t).zfill = s.zfill := rfl
@[simp] theorem State.putTile_conns (s : State) (g : Nat) (t : Tile) : (s.putTile g t).conns = s.conns := rfl
@[simp] theorem State.putTile_certs (s : State) (g : Nat) (t : Tile) : (s.putTile g t).certs = s.certs := rfl
@[simp] theorem State.putTile_meas (s : State) (g : Nat) (t : Tile) : (s.putTile g t).meas = s.meas := rfl
@[simp] theorem State.putTile_boardCert (s : State) (g : Nat) (t : Tile) : (s.putTile g t).boardCert = s.boardCert := rfl
@[simp] theorem State.putTile_romFail (s : State) (g : Nat) (t : Tile) : (s.putTile g t).romFail = s.romFail := rfl
@[simp] theorem State.putTile_entropyBad (s : State) (g : Nat) (t : Tile) : (s.putTile g t).entropyBad = s.entropyBad := rfl
@[simp] theorem State.putTile_up (s : State) (g : Nat) (t : Tile) : (s.putTile g t).up = s.up := rfl
@[simp] theorem State.putTile_deadDie (s : State) (g : Nat) (t : Tile) : (s.putTile g t).deadDie = s.deadDie := rfl
@[simp] theorem State.putTile_opWorld (s : State) (g : Nat) (t : Tile) : (s.putTile g t).opWorld = s.opWorld := rfl
@[simp] theorem State.putTile_margins (s : State) (g : Nat) (t : Tile) : (s.putTile g t).margins = s.margins := rfl
@[simp] theorem State.putTile_rails (s : State) (g : Nat) (t : Tile) : (s.putTile g t).rails = s.rails := rfl
@[simp] theorem State.putTile_railsNew (s : State) (g : Nat) (t : Tile) : (s.putTile g t).railsNew = s.railsNew := rfl
@[simp] theorem State.putTile_tests (s : State) (g : Nat) (t : Tile) : (s.putTile g t).tests = s.tests := rfl
@[simp] theorem State.putTile_winDue (s : State) (g : Nat) (t : Tile) : (s.putTile g t).winDue = s.winDue := rfl
@[simp] theorem State.putTile_errCnt (s : State) (g : Nat) (t : Tile) : (s.putTile g t).errCnt = s.errCnt := rfl
@[simp] theorem State.putTile_spares (s : State) (g : Nat) (t : Tile) : (s.putTile g t).spares = s.spares := rfl
@[simp] theorem State.putTile_repairs (s : State) (g : Nat) (t : Tile) : (s.putTile g t).repairs = s.repairs := rfl
@[simp] theorem State.putTile_l2off (s : State) (g : Nat) (t : Tile) : (s.putTile g t).l2off = s.l2off := rfl
@[simp] theorem State.putTile_l2new (s : State) (g : Nat) (t : Tile) : (s.putTile g t).l2new = s.l2new := rfl
@[simp] theorem State.putTile_throttle (s : State) (g : Nat) (t : Tile) : (s.putTile g t).throttle = s.throttle := rfl
@[simp] theorem State.putTile_cxl (s : State) (g : Nat) (t : Tile) : (s.putTile g t).cxl = s.cxl := rfl
@[simp] theorem State.putTile_errwin (s : State) (g : Nat) (t : Tile) : (s.putTile g t).errwin = s.errwin := rfl
@[simp] theorem State.putTile_errthr (s : State) (g : Nat) (t : Tile) : (s.putTile g t).errthr = s.errthr := rfl

/-! ### Registers of a strand -/

@[simp] theorem Slot.setX_occ (t : Slot) (n : Nat) (w : Word) : (t.setX n w).occ = t.occ := by unfold Slot.setX; split <;> rfl
@[simp] theorem Slot.setX_wasFree (t : Slot) (n : Nat) (w : Word) : (t.setX n w).wasFree = t.wasFree := by unfold Slot.setX; split <;> rfl
@[simp] theorem Slot.setX_cls (t : Slot) (n : Nat) (w : Word) : (t.setX n w).cls = t.cls := by unfold Slot.setX; split <;> rfl
@[simp] theorem Slot.setX_stopReq (t : Slot) (n : Nat) (w : Word) : (t.setX n w).stopReq = t.stopReq := by unfold Slot.setX; split <;> rfl
@[simp] theorem Slot.setX_stopped (t : Slot) (n : Nat) (w : Word) : (t.setX n w).stopped = t.stopped := by unfold Slot.setX; split <;> rfl
@[simp] theorem Slot.setX_haltReq (t : Slot) (n : Nat) (w : Word) : (t.setX n w).haltReq = t.haltReq := by unfold Slot.setX; split <;> rfl
@[simp] theorem Slot.setX_halted (t : Slot) (n : Nat) (w : Word) : (t.setX n w).halted = t.halted := by unfold Slot.setX; split <;> rfl
@[simp] theorem Slot.setX_mode (t : Slot) (n : Nat) (w : Word) : (t.setX n w).mode = t.mode := by unfold Slot.setX; split <;> rfl
@[simp] theorem Slot.setX_pc (t : Slot) (n : Nat) (w : Word) : (t.setX n w).pc = t.pc := by unfold Slot.setX; split <;> rfl
@[simp] theorem Slot.setX_c (t : Slot) (n : Nat) (w : Word) : (t.setX n w).c = t.c := by unfold Slot.setX; split <;> rfl
@[simp] theorem Slot.setX_c15s (t : Slot) (n : Nat) (w : Word) : (t.setX n w).c15s = t.c15s := by unfold Slot.setX; split <;> rfl
@[simp] theorem Slot.setX_v (t : Slot) (n : Nat) (w : Word) : (t.setX n w).v = t.v := by unfold Slot.setX; split <;> rfl
@[simp] theorem Slot.setX_badv (t : Slot) (n : Nat) (w : Word) : (t.setX n w).badv = t.badv := by unfold Slot.setX; split <;> rfl
@[simp] theorem Slot.setX_m (t : Slot) (n : Nat) (w : Word) : (t.setX n w).m = t.m := by unfold Slot.setX; split <;> rfl
@[simp] theorem Slot.setX_fmode (t : Slot) (n : Nat) (w : Word) : (t.setX n w).fmode = t.fmode := by unfold Slot.setX; split <;> rfl
@[simp] theorem Slot.setX_flagNow (t : Slot) (n : Nat) (w : Word) : (t.setX n w).flagNow = t.flagNow := by unfold Slot.setX; split <;> rfl
@[simp] theorem Slot.setX_mxcfg (t : Slot) (n : Nat) (w : Word) : (t.setX n w).mxcfg = t.mxcfg := by unfold Slot.setX; split <;> rfl
@[simp] theorem Slot.setX_wlim (t : Slot) (n : Nat) (w : Word) : (t.setX n w).wlim = t.wlim := by unfold Slot.setX; split <;> rfl
@[simp] theorem Slot.setX_lkey (t : Slot) (n : Nat) (w : Word) : (t.setX n w).lkey = t.lkey := by unfold Slot.setX; split <;> rfl
@[simp] theorem Slot.setX_rptc (t : Slot) (n : Nat) (w : Word) : (t.setX n w).rptc = t.rptc := by unfold Slot.setX; split <;> rfl
@[simp] theorem Slot.setX_instret (t : Slot) (n : Nat) (w : Word) : (t.setX n w).instret = t.instret := by unfold Slot.setX; split <;> rfl
@[simp] theorem Slot.setX_tvec (t : Slot) (n : Nat) (w : Word) : (t.setX n w).tvec = t.tvec := by unfold Slot.setX; split <;> rfl
@[simp] theorem Slot.setX_trpc (t : Slot) (n : Nat) (w : Word) : (t.setX n w).trpc = t.trpc := by unfold Slot.setX; split <;> rfl
@[simp] theorem Slot.setX_tcause (t : Slot) (n : Nat) (w : Word) : (t.setX n w).tcause = t.tcause := by unfold Slot.setX; split <;> rfl
@[simp] theorem Slot.setX_tval (t : Slot) (n : Nat) (w : Word) : (t.setX n w).tval = t.tval := by unfold Slot.setX; split <;> rfl
@[simp] theorem Slot.setX_tstat (t : Slot) (n : Nat) (w : Word) : (t.setX n w).tstat = t.tstat := by unfold Slot.setX; split <;> rfl
@[simp] theorem Slot.setX_tscratch (t : Slot) (n : Nat) (w : Word) : (t.setX n w).tscratch = t.tscratch := by unfold Slot.setX; split <;> rfl
@[simp] theorem Slot.setX_wdog (t : Slot) (n : Nat) (w : Word) : (t.setX n w).wdog = t.wdog := by unfold Slot.setX; split <;> rfl
@[simp] theorem Slot.setX_tie (t : Slot) (n : Nat) (w : Word) : (t.setX n w).tie = t.tie := by unfold Slot.setX; split <;> rfl
@[simp] theorem Slot.setX_tip (t : Slot) (n : Nat) (w : Word) : (t.setX n w).tip = t.tip := by unfold Slot.setX; split <;> rfl
@[simp] theorem Slot.setX_tipNow (t : Slot) (n : Nat) (w : Word) : (t.setX n w).tipNow = t.tipNow := by unfold Slot.setX; split <;> rfl
@[simp] theorem Slot.setX_dcsr (t : Slot) (n : Nat) (w : Word) : (t.setX n w).dcsr = t.dcsr := by unfold Slot.setX; split <;> rfl
@[simp] theorem Slot.setX_dpc (t : Slot) (n : Nat) (w : Word) : (t.setX n w).dpc = t.dpc := by unfold Slot.setX; split <;> rfl
@[simp] theorem Slot.setX_dscratch0 (t : Slot) (n : Nat) (w : Word) : (t.setX n w).dscratch0 = t.dscratch0 := by unfold Slot.setX; split <;> rfl
@[simp] theorem Slot.setX_rptLive (t : Slot) (n : Nat) (w : Word) : (t.setX n w).rptLive = t.rptLive := by unfold Slot.setX; split <;> rfl
@[simp] theorem Slot.setX_skip (t : Slot) (n : Nat) (w : Word) : (t.setX n w).skip = t.skip := by unfold Slot.setX; split <;> rfl
@[simp] theorem Slot.setX_skipS (t : Slot) (n : Nat) (w : Word) : (t.setX n w).skipS = t.skipS := by unfold Slot.setX; split <;> rfl
@[simp] theorem Slot.setX_refusal (t : Slot) (n : Nat) (w : Word) : (t.setX n w).refusal = t.refusal := by unfold Slot.setX; split <;> rfl
@[simp] theorem Slot.setX_wins (t : Slot) (n : Nat) (w : Word) : (t.setX n w).wins = t.wins := by unfold Slot.setX; split <;> rfl
@[simp] theorem Slot.setX_nextWid (t : Slot) (n : Nat) (w : Word) : (t.setX n w).nextWid = t.nextWid := by unfold Slot.setX; split <;> rfl
@[simp] theorem Slot.setX_closedAt (t : Slot) (n : Nat) (w : Word) : (t.setX n w).closedAt = t.closedAt := by unfold Slot.setX; split <;> rfl
@[simp] theorem Slot.setX_closedDst (t : Slot) (n : Nat) (w : Word) : (t.setX n w).closedDst = t.closedDst := by unfold Slot.setX; split <;> rfl
@[simp] theorem Slot.setX_hold (t : Slot) (n : Nat) (w : Word) : (t.setX n w).hold = t.hold := by unfold Slot.setX; split <;> rfl
@[simp] theorem Slot.setX_sync (t : Slot) (n : Nat) (w : Word) : (t.setX n w).sync = t.sync := by unfold Slot.setX; split <;> rfl
@[simp] theorem Slot.setX_dfs (t : Slot) (n : Nat) (w : Word) : (t.setX n w).dfs = t.dfs := by unfold Slot.setX; split <;> rfl
@[simp] theorem Slot.setX_wdPend (t : Slot) (n : Nat) (w : Word) : (t.setX n w).wdPend = t.wdPend := by unfold Slot.setX; split <;> rfl
@[simp] theorem Slot.setX_wdDue (t : Slot) (n : Nat) (w : Word) : (t.setX n w).wdDue = t.wdDue := by unfold Slot.setX; split <;> rfl
@[simp] theorem Slot.setX_wdr (t : Slot) (n : Nat) (w : Word) : (t.setX n w).wdr = t.wdr := by unfold Slot.setX; split <;> rfl
@[simp] theorem Slot.setX_wdAddr (t : Slot) (n : Nat) (w : Word) : (t.setX n w).wdAddr = t.wdAddr := by unfold Slot.setX; split <;> rfl
@[simp] theorem Slot.setX_wdPost (t : Slot) (n : Nat) (w : Word) : (t.setX n w).wdPost = t.wdPost := by unfold Slot.setX; split <;> rfl
@[simp] theorem Slot.setX_tdPost (t : Slot) (n : Nat) (w : Word) : (t.setX n w).tdPost = t.tdPost := by unfold Slot.setX; split <;> rfl
@[simp] theorem Slot.setX_tmDue (t : Slot) (n : Nat) (w : Word) : (t.setX n w).tmDue = t.tmDue := by unfold Slot.setX; split <;> rfl
@[simp] theorem Slot.setX_nextAt (t : Slot) (n : Nat) (w : Word) : (t.setX n w).nextAt = t.nextAt := by unfold Slot.setX; split <;> rfl
@[simp] theorem Slot.setX_lastIssue (t : Slot) (n : Nat) (w : Word) : (t.setX n w).lastIssue = t.lastIssue := by unfold Slot.setX; split <;> rfl
@[simp] theorem Slot.setX_age (t : Slot) (n : Nat) (w : Word) : (t.setX n w).age = t.age := by unfold Slot.setX; split <;> rfl
@[simp] theorem Slot.setX_yieldFor (t : Slot) (n : Nat) (w : Word) : (t.setX n w).yieldFor = t.yieldFor := by unfold Slot.setX; split <;> rfl
@[simp] theorem Slot.setX_yieldUntil (t : Slot) (n : Nat) (w : Word) : (t.setX n w).yieldUntil = t.yieldUntil := by unfold Slot.setX; split <;> rfl
@[simp] theorem Slot.setX_noTrig (t : Slot) (n : Nat) (w : Word) : (t.setX n w).noTrig = t.noTrig := by unfold Slot.setX; split <;> rfl
@[simp] theorem Slot.setX_stepping (t : Slot) (n : Nat) (w : Word) : (t.setX n w).stepping = t.stepping := by unfold Slot.setX; split <;> rfl
@[simp] theorem Slot.setX_startFault (t : Slot) (n : Nat) (w : Word) : (t.setX n w).startFault = t.startFault := by unfold Slot.setX; split <;> rfl
@[simp] theorem Slot.setX_evset (t : Slot) (n : Nat) (w : Word) : (t.setX n w).evset = t.evset := by unfold Slot.setX; split <;> rfl
@[simp] theorem Slot.setX_merr (t : Slot) (n : Nat) (w : Word) : (t.setX n w).merr = t.merr := by unfold Slot.setX; split <;> rfl
@[simp] theorem Slot.setX_mflags (t : Slot) (n : Nat) (w : Word) : (t.setX n w).mflags = t.mflags := by unfold Slot.setX; split <;> rfl
@[simp] theorem Slot.setX_taken (t : Slot) (n : Nat) (w : Word) : (t.setX n w).taken = t.taken := by unfold Slot.setX; split <;> rfl
@[simp] theorem Slot.setX_recs (t : Slot) (n : Nat) (w : Word) : (t.setX n w).recs = t.recs := by unfold Slot.setX; split <;> rfl
@[simp] theorem Slot.setX_dFromS (t : Slot) (n : Nat) (w : Word) : (t.setX n w).dFromS = t.dFromS := by unfold Slot.setX; split <;> rfl
@[simp] theorem Slot.setX_dRpt (t : Slot) (n : Nat) (w : Word) : (t.setX n w).dRpt = t.dRpt := by unfold Slot.setX; split <;> rfl
@[simp] theorem Slot.setX_dSkip (t : Slot) (n : Nat) (w : Word) : (t.setX n w).dSkip = t.dSkip := by unfold Slot.setX; split <;> rfl
@[simp] theorem Slot.setX_dHold (t : Slot) (n : Nat) (w : Word) : (t.setX n w).dHold = t.dHold := by unfold Slot.setX; split <;> rfl
@[simp] theorem Slot.setX_dErr (t : Slot) (n : Nat) (w : Word) : (t.setX n w).dErr = t.dErr := by unfold Slot.setX; split <;> rfl
@[simp] theorem Slot.setX_desc (t : Slot) (n : Nat) (w : Word) : (t.setX n w).desc = t.desc := by unfold Slot.setX; split <;> rfl
@[simp] theorem Slot.setX_restartable (t : Slot) (n : Nat) (w : Word) : (t.setX n w).restartable = t.restartable := by unfold Slot.setX; split <;> rfl
@[simp] theorem Slot.setX_cbuf (t : Slot) (n : Nat) (w : Word) : (t.setX n w).cbuf = t.cbuf := by unfold Slot.setX; split <;> rfl
@[simp] theorem Slot.setX_cbufUsed (t : Slot) (n : Nat) (w : Word) : (t.setX n w).cbufUsed = t.cbufUsed := by unfold Slot.setX; split <;> rfl
@[simp] theorem Slot.setX_nrSeen (t : Slot) (n : Nat) (w : Word) : (t.setX n w).nrSeen = t.nrSeen := by unfold Slot.setX; split <;> rfl
@[simp] theorem Slot.setX_pbPos (t : Slot) (n : Nat) (w : Word) : (t.setX n w).pbPos = t.pbPos := by unfold Slot.setX; split <;> rfl
@[simp] theorem Slot.setX_args (t : Slot) (n : Nat) (w : Word) : (t.setX n w).args = t.args := by unfold Slot.setX; split <;> rfl

@[simp] theorem Slot.setC_occ (t : Slot) (n : Nat) (v : Cap) : (t.setC n v).occ = t.occ := by unfold Slot.setC; split; rfl; split <;> rfl
@[simp] theorem Slot.setC_wasFree (t : Slot) (n : Nat) (v : Cap) : (t.setC n v).wasFree = t.wasFree := by unfold Slot.setC; split; rfl; split <;> rfl
@[simp] theorem Slot.setC_cls (t : Slot) (n : Nat) (v : Cap) : (t.setC n v).cls = t.cls := by unfold Slot.setC; split; rfl; split <;> rfl
@[simp] theorem Slot.setC_stopReq (t : Slot) (n : Nat) (v : Cap) : (t.setC n v).stopReq = t.stopReq := by unfold Slot.setC; split; rfl; split <;> rfl
@[simp] theorem Slot.setC_stopped (t : Slot) (n : Nat) (v : Cap) : (t.setC n v).stopped = t.stopped := by unfold Slot.setC; split; rfl; split <;> rfl
@[simp] theorem Slot.setC_haltReq (t : Slot) (n : Nat) (v : Cap) : (t.setC n v).haltReq = t.haltReq := by unfold Slot.setC; split; rfl; split <;> rfl
@[simp] theorem Slot.setC_halted (t : Slot) (n : Nat) (v : Cap) : (t.setC n v).halted = t.halted := by unfold Slot.setC; split; rfl; split <;> rfl
@[simp] theorem Slot.setC_mode (t : Slot) (n : Nat) (v : Cap) : (t.setC n v).mode = t.mode := by unfold Slot.setC; split; rfl; split <;> rfl
@[simp] theorem Slot.setC_pc (t : Slot) (n : Nat) (v : Cap) : (t.setC n v).pc = t.pc := by unfold Slot.setC; split; rfl; split <;> rfl
@[simp] theorem Slot.setC_x (t : Slot) (n : Nat) (v : Cap) : (t.setC n v).x = t.x := by unfold Slot.setC; split; rfl; split <;> rfl
@[simp] theorem Slot.setC_v (t : Slot) (n : Nat) (v : Cap) : (t.setC n v).v = t.v := by unfold Slot.setC; split; rfl; split <;> rfl
@[simp] theorem Slot.setC_badv (t : Slot) (n : Nat) (v : Cap) : (t.setC n v).badv = t.badv := by unfold Slot.setC; split; rfl; split <;> rfl
@[simp] theorem Slot.setC_m (t : Slot) (n : Nat) (v : Cap) : (t.setC n v).m = t.m := by unfold Slot.setC; split; rfl; split <;> rfl
@[simp] theorem Slot.setC_fmode (t : Slot) (n : Nat) (v : Cap) : (t.setC n v).fmode = t.fmode := by unfold Slot.setC; split; rfl; split <;> rfl
@[simp] theorem Slot.setC_flagNow (t : Slot) (n : Nat) (v : Cap) : (t.setC n v).flagNow = t.flagNow := by unfold Slot.setC; split; rfl; split <;> rfl
@[simp] theorem Slot.setC_mxcfg (t : Slot) (n : Nat) (v : Cap) : (t.setC n v).mxcfg = t.mxcfg := by unfold Slot.setC; split; rfl; split <;> rfl
@[simp] theorem Slot.setC_wlim (t : Slot) (n : Nat) (v : Cap) : (t.setC n v).wlim = t.wlim := by unfold Slot.setC; split; rfl; split <;> rfl
@[simp] theorem Slot.setC_lkey (t : Slot) (n : Nat) (v : Cap) : (t.setC n v).lkey = t.lkey := by unfold Slot.setC; split; rfl; split <;> rfl
@[simp] theorem Slot.setC_rptc (t : Slot) (n : Nat) (v : Cap) : (t.setC n v).rptc = t.rptc := by unfold Slot.setC; split; rfl; split <;> rfl
@[simp] theorem Slot.setC_instret (t : Slot) (n : Nat) (v : Cap) : (t.setC n v).instret = t.instret := by unfold Slot.setC; split; rfl; split <;> rfl
@[simp] theorem Slot.setC_tvec (t : Slot) (n : Nat) (v : Cap) : (t.setC n v).tvec = t.tvec := by unfold Slot.setC; split; rfl; split <;> rfl
@[simp] theorem Slot.setC_trpc (t : Slot) (n : Nat) (v : Cap) : (t.setC n v).trpc = t.trpc := by unfold Slot.setC; split; rfl; split <;> rfl
@[simp] theorem Slot.setC_tcause (t : Slot) (n : Nat) (v : Cap) : (t.setC n v).tcause = t.tcause := by unfold Slot.setC; split; rfl; split <;> rfl
@[simp] theorem Slot.setC_tval (t : Slot) (n : Nat) (v : Cap) : (t.setC n v).tval = t.tval := by unfold Slot.setC; split; rfl; split <;> rfl
@[simp] theorem Slot.setC_tstat (t : Slot) (n : Nat) (v : Cap) : (t.setC n v).tstat = t.tstat := by unfold Slot.setC; split; rfl; split <;> rfl
@[simp] theorem Slot.setC_tscratch (t : Slot) (n : Nat) (v : Cap) : (t.setC n v).tscratch = t.tscratch := by unfold Slot.setC; split; rfl; split <;> rfl
@[simp] theorem Slot.setC_wdog (t : Slot) (n : Nat) (v : Cap) : (t.setC n v).wdog = t.wdog := by unfold Slot.setC; split; rfl; split <;> rfl
@[simp] theorem Slot.setC_tie (t : Slot) (n : Nat) (v : Cap) : (t.setC n v).tie = t.tie := by unfold Slot.setC; split; rfl; split <;> rfl
@[simp] theorem Slot.setC_tip (t : Slot) (n : Nat) (v : Cap) : (t.setC n v).tip = t.tip := by unfold Slot.setC; split; rfl; split <;> rfl
@[simp] theorem Slot.setC_tipNow (t : Slot) (n : Nat) (v : Cap) : (t.setC n v).tipNow = t.tipNow := by unfold Slot.setC; split; rfl; split <;> rfl
@[simp] theorem Slot.setC_dcsr (t : Slot) (n : Nat) (v : Cap) : (t.setC n v).dcsr = t.dcsr := by unfold Slot.setC; split; rfl; split <;> rfl
@[simp] theorem Slot.setC_dpc (t : Slot) (n : Nat) (v : Cap) : (t.setC n v).dpc = t.dpc := by unfold Slot.setC; split; rfl; split <;> rfl
@[simp] theorem Slot.setC_dscratch0 (t : Slot) (n : Nat) (v : Cap) : (t.setC n v).dscratch0 = t.dscratch0 := by unfold Slot.setC; split; rfl; split <;> rfl
@[simp] theorem Slot.setC_rptLive (t : Slot) (n : Nat) (v : Cap) : (t.setC n v).rptLive = t.rptLive := by unfold Slot.setC; split; rfl; split <;> rfl
@[simp] theorem Slot.setC_skip (t : Slot) (n : Nat) (v : Cap) : (t.setC n v).skip = t.skip := by unfold Slot.setC; split; rfl; split <;> rfl
@[simp] theorem Slot.setC_skipS (t : Slot) (n : Nat) (v : Cap) : (t.setC n v).skipS = t.skipS := by unfold Slot.setC; split; rfl; split <;> rfl
@[simp] theorem Slot.setC_refusal (t : Slot) (n : Nat) (v : Cap) : (t.setC n v).refusal = t.refusal := by unfold Slot.setC; split; rfl; split <;> rfl
@[simp] theorem Slot.setC_wins (t : Slot) (n : Nat) (v : Cap) : (t.setC n v).wins = t.wins := by unfold Slot.setC; split; rfl; split <;> rfl
@[simp] theorem Slot.setC_nextWid (t : Slot) (n : Nat) (v : Cap) : (t.setC n v).nextWid = t.nextWid := by unfold Slot.setC; split; rfl; split <;> rfl
@[simp] theorem Slot.setC_closedAt (t : Slot) (n : Nat) (v : Cap) : (t.setC n v).closedAt = t.closedAt := by unfold Slot.setC; split; rfl; split <;> rfl
@[simp] theorem Slot.setC_closedDst (t : Slot) (n : Nat) (v : Cap) : (t.setC n v).closedDst = t.closedDst := by unfold Slot.setC; split; rfl; split <;> rfl
@[simp] theorem Slot.setC_hold (t : Slot) (n : Nat) (v : Cap) : (t.setC n v).hold = t.hold := by unfold Slot.setC; split; rfl; split <;> rfl
@[simp] theorem Slot.setC_sync (t : Slot) (n : Nat) (v : Cap) : (t.setC n v).sync = t.sync := by unfold Slot.setC; split; rfl; split <;> rfl
@[simp] theorem Slot.setC_dfs (t : Slot) (n : Nat) (v : Cap) : (t.setC n v).dfs = t.dfs := by unfold Slot.setC; split; rfl; split <;> rfl
@[simp] theorem Slot.setC_wdPend (t : Slot) (n : Nat) (v : Cap) : (t.setC n v).wdPend = t.wdPend := by unfold Slot.setC; split; rfl; split <;> rfl
@[simp] theorem Slot.setC_wdDue (t : Slot) (n : Nat) (v : Cap) : (t.setC n v).wdDue = t.wdDue := by unfold Slot.setC; split; rfl; split <;> rfl
@[simp] theorem Slot.setC_wdr (t : Slot) (n : Nat) (v : Cap) : (t.setC n v).wdr = t.wdr := by unfold Slot.setC; split; rfl; split <;> rfl
@[simp] theorem Slot.setC_wdAddr (t : Slot) (n : Nat) (v : Cap) : (t.setC n v).wdAddr = t.wdAddr := by unfold Slot.setC; split; rfl; split <;> rfl
@[simp] theorem Slot.setC_wdPost (t : Slot) (n : Nat) (v : Cap) : (t.setC n v).wdPost = t.wdPost := by unfold Slot.setC; split; rfl; split <;> rfl
@[simp] theorem Slot.setC_tdPost (t : Slot) (n : Nat) (v : Cap) : (t.setC n v).tdPost = t.tdPost := by unfold Slot.setC; split; rfl; split <;> rfl
@[simp] theorem Slot.setC_tmDue (t : Slot) (n : Nat) (v : Cap) : (t.setC n v).tmDue = t.tmDue := by unfold Slot.setC; split; rfl; split <;> rfl
@[simp] theorem Slot.setC_nextAt (t : Slot) (n : Nat) (v : Cap) : (t.setC n v).nextAt = t.nextAt := by unfold Slot.setC; split; rfl; split <;> rfl
@[simp] theorem Slot.setC_lastIssue (t : Slot) (n : Nat) (v : Cap) : (t.setC n v).lastIssue = t.lastIssue := by unfold Slot.setC; split; rfl; split <;> rfl
@[simp] theorem Slot.setC_age (t : Slot) (n : Nat) (v : Cap) : (t.setC n v).age = t.age := by unfold Slot.setC; split; rfl; split <;> rfl
@[simp] theorem Slot.setC_yieldFor (t : Slot) (n : Nat) (v : Cap) : (t.setC n v).yieldFor = t.yieldFor := by unfold Slot.setC; split; rfl; split <;> rfl
@[simp] theorem Slot.setC_yieldUntil (t : Slot) (n : Nat) (v : Cap) : (t.setC n v).yieldUntil = t.yieldUntil := by unfold Slot.setC; split; rfl; split <;> rfl
@[simp] theorem Slot.setC_noTrig (t : Slot) (n : Nat) (v : Cap) : (t.setC n v).noTrig = t.noTrig := by unfold Slot.setC; split; rfl; split <;> rfl
@[simp] theorem Slot.setC_stepping (t : Slot) (n : Nat) (v : Cap) : (t.setC n v).stepping = t.stepping := by unfold Slot.setC; split; rfl; split <;> rfl
@[simp] theorem Slot.setC_startFault (t : Slot) (n : Nat) (v : Cap) : (t.setC n v).startFault = t.startFault := by unfold Slot.setC; split; rfl; split <;> rfl
@[simp] theorem Slot.setC_evset (t : Slot) (n : Nat) (v : Cap) : (t.setC n v).evset = t.evset := by unfold Slot.setC; split; rfl; split <;> rfl
@[simp] theorem Slot.setC_merr (t : Slot) (n : Nat) (v : Cap) : (t.setC n v).merr = t.merr := by unfold Slot.setC; split; rfl; split <;> rfl
@[simp] theorem Slot.setC_mflags (t : Slot) (n : Nat) (v : Cap) : (t.setC n v).mflags = t.mflags := by unfold Slot.setC; split; rfl; split <;> rfl
@[simp] theorem Slot.setC_taken (t : Slot) (n : Nat) (v : Cap) : (t.setC n v).taken = t.taken := by unfold Slot.setC; split; rfl; split <;> rfl
@[simp] theorem Slot.setC_recs (t : Slot) (n : Nat) (v : Cap) : (t.setC n v).recs = t.recs := by unfold Slot.setC; split; rfl; split <;> rfl
@[simp] theorem Slot.setC_dFromS (t : Slot) (n : Nat) (v : Cap) : (t.setC n v).dFromS = t.dFromS := by unfold Slot.setC; split; rfl; split <;> rfl
@[simp] theorem Slot.setC_dRpt (t : Slot) (n : Nat) (v : Cap) : (t.setC n v).dRpt = t.dRpt := by unfold Slot.setC; split; rfl; split <;> rfl
@[simp] theorem Slot.setC_dSkip (t : Slot) (n : Nat) (v : Cap) : (t.setC n v).dSkip = t.dSkip := by unfold Slot.setC; split; rfl; split <;> rfl
@[simp] theorem Slot.setC_dHold (t : Slot) (n : Nat) (v : Cap) : (t.setC n v).dHold = t.dHold := by unfold Slot.setC; split; rfl; split <;> rfl
@[simp] theorem Slot.setC_dErr (t : Slot) (n : Nat) (v : Cap) : (t.setC n v).dErr = t.dErr := by unfold Slot.setC; split; rfl; split <;> rfl
@[simp] theorem Slot.setC_desc (t : Slot) (n : Nat) (v : Cap) : (t.setC n v).desc = t.desc := by unfold Slot.setC; split; rfl; split <;> rfl
@[simp] theorem Slot.setC_restartable (t : Slot) (n : Nat) (v : Cap) : (t.setC n v).restartable = t.restartable := by unfold Slot.setC; split; rfl; split <;> rfl
@[simp] theorem Slot.setC_cbuf (t : Slot) (n : Nat) (v : Cap) : (t.setC n v).cbuf = t.cbuf := by unfold Slot.setC; split; rfl; split <;> rfl
@[simp] theorem Slot.setC_cbufUsed (t : Slot) (n : Nat) (v : Cap) : (t.setC n v).cbufUsed = t.cbufUsed := by unfold Slot.setC; split; rfl; split <;> rfl
@[simp] theorem Slot.setC_nrSeen (t : Slot) (n : Nat) (v : Cap) : (t.setC n v).nrSeen = t.nrSeen := by unfold Slot.setC; split; rfl; split <;> rfl
@[simp] theorem Slot.setC_pbPos (t : Slot) (n : Nat) (v : Cap) : (t.setC n v).pbPos = t.pbPos := by unfold Slot.setC; split; rfl; split <;> rfl
@[simp] theorem Slot.setC_args (t : Slot) (n : Nat) (v : Cap) : (t.setC n v).args = t.args := by unfold Slot.setC; split; rfl; split <;> rfl

@[simp] theorem Slot.setV_occ (t : Slot) (n : Nat) (w : VReg) : (t.setV n w).occ = t.occ := rfl
@[simp] theorem Slot.setV_wasFree (t : Slot) (n : Nat) (w : VReg) : (t.setV n w).wasFree = t.wasFree := rfl
@[simp] theorem Slot.setV_cls (t : Slot) (n : Nat) (w : VReg) : (t.setV n w).cls = t.cls := rfl
@[simp] theorem Slot.setV_stopReq (t : Slot) (n : Nat) (w : VReg) : (t.setV n w).stopReq = t.stopReq := rfl
@[simp] theorem Slot.setV_stopped (t : Slot) (n : Nat) (w : VReg) : (t.setV n w).stopped = t.stopped := rfl
@[simp] theorem Slot.setV_haltReq (t : Slot) (n : Nat) (w : VReg) : (t.setV n w).haltReq = t.haltReq := rfl
@[simp] theorem Slot.setV_halted (t : Slot) (n : Nat) (w : VReg) : (t.setV n w).halted = t.halted := rfl
@[simp] theorem Slot.setV_mode (t : Slot) (n : Nat) (w : VReg) : (t.setV n w).mode = t.mode := rfl
@[simp] theorem Slot.setV_pc (t : Slot) (n : Nat) (w : VReg) : (t.setV n w).pc = t.pc := rfl
@[simp] theorem Slot.setV_x (t : Slot) (n : Nat) (w : VReg) : (t.setV n w).x = t.x := rfl
@[simp] theorem Slot.setV_c (t : Slot) (n : Nat) (w : VReg) : (t.setV n w).c = t.c := rfl
@[simp] theorem Slot.setV_c15s (t : Slot) (n : Nat) (w : VReg) : (t.setV n w).c15s = t.c15s := rfl
@[simp] theorem Slot.setV_m (t : Slot) (n : Nat) (w : VReg) : (t.setV n w).m = t.m := rfl
@[simp] theorem Slot.setV_fmode (t : Slot) (n : Nat) (w : VReg) : (t.setV n w).fmode = t.fmode := rfl
@[simp] theorem Slot.setV_flagNow (t : Slot) (n : Nat) (w : VReg) : (t.setV n w).flagNow = t.flagNow := rfl
@[simp] theorem Slot.setV_mxcfg (t : Slot) (n : Nat) (w : VReg) : (t.setV n w).mxcfg = t.mxcfg := rfl
@[simp] theorem Slot.setV_wlim (t : Slot) (n : Nat) (w : VReg) : (t.setV n w).wlim = t.wlim := rfl
@[simp] theorem Slot.setV_lkey (t : Slot) (n : Nat) (w : VReg) : (t.setV n w).lkey = t.lkey := rfl
@[simp] theorem Slot.setV_rptc (t : Slot) (n : Nat) (w : VReg) : (t.setV n w).rptc = t.rptc := rfl
@[simp] theorem Slot.setV_instret (t : Slot) (n : Nat) (w : VReg) : (t.setV n w).instret = t.instret := rfl
@[simp] theorem Slot.setV_tvec (t : Slot) (n : Nat) (w : VReg) : (t.setV n w).tvec = t.tvec := rfl
@[simp] theorem Slot.setV_trpc (t : Slot) (n : Nat) (w : VReg) : (t.setV n w).trpc = t.trpc := rfl
@[simp] theorem Slot.setV_tcause (t : Slot) (n : Nat) (w : VReg) : (t.setV n w).tcause = t.tcause := rfl
@[simp] theorem Slot.setV_tval (t : Slot) (n : Nat) (w : VReg) : (t.setV n w).tval = t.tval := rfl
@[simp] theorem Slot.setV_tstat (t : Slot) (n : Nat) (w : VReg) : (t.setV n w).tstat = t.tstat := rfl
@[simp] theorem Slot.setV_tscratch (t : Slot) (n : Nat) (w : VReg) : (t.setV n w).tscratch = t.tscratch := rfl
@[simp] theorem Slot.setV_wdog (t : Slot) (n : Nat) (w : VReg) : (t.setV n w).wdog = t.wdog := rfl
@[simp] theorem Slot.setV_tie (t : Slot) (n : Nat) (w : VReg) : (t.setV n w).tie = t.tie := rfl
@[simp] theorem Slot.setV_tip (t : Slot) (n : Nat) (w : VReg) : (t.setV n w).tip = t.tip := rfl
@[simp] theorem Slot.setV_tipNow (t : Slot) (n : Nat) (w : VReg) : (t.setV n w).tipNow = t.tipNow := rfl
@[simp] theorem Slot.setV_dcsr (t : Slot) (n : Nat) (w : VReg) : (t.setV n w).dcsr = t.dcsr := rfl
@[simp] theorem Slot.setV_dpc (t : Slot) (n : Nat) (w : VReg) : (t.setV n w).dpc = t.dpc := rfl
@[simp] theorem Slot.setV_dscratch0 (t : Slot) (n : Nat) (w : VReg) : (t.setV n w).dscratch0 = t.dscratch0 := rfl
@[simp] theorem Slot.setV_rptLive (t : Slot) (n : Nat) (w : VReg) : (t.setV n w).rptLive = t.rptLive := rfl
@[simp] theorem Slot.setV_skip (t : Slot) (n : Nat) (w : VReg) : (t.setV n w).skip = t.skip := rfl
@[simp] theorem Slot.setV_skipS (t : Slot) (n : Nat) (w : VReg) : (t.setV n w).skipS = t.skipS := rfl
@[simp] theorem Slot.setV_refusal (t : Slot) (n : Nat) (w : VReg) : (t.setV n w).refusal = t.refusal := rfl
@[simp] theorem Slot.setV_wins (t : Slot) (n : Nat) (w : VReg) : (t.setV n w).wins = t.wins := rfl
@[simp] theorem Slot.setV_nextWid (t : Slot) (n : Nat) (w : VReg) : (t.setV n w).nextWid = t.nextWid := rfl
@[simp] theorem Slot.setV_closedAt (t : Slot) (n : Nat) (w : VReg) : (t.setV n w).closedAt = t.closedAt := rfl
@[simp] theorem Slot.setV_closedDst (t : Slot) (n : Nat) (w : VReg) : (t.setV n w).closedDst = t.closedDst := rfl
@[simp] theorem Slot.setV_hold (t : Slot) (n : Nat) (w : VReg) : (t.setV n w).hold = t.hold := rfl
@[simp] theorem Slot.setV_sync (t : Slot) (n : Nat) (w : VReg) : (t.setV n w).sync = t.sync := rfl
@[simp] theorem Slot.setV_dfs (t : Slot) (n : Nat) (w : VReg) : (t.setV n w).dfs = t.dfs := rfl
@[simp] theorem Slot.setV_wdPend (t : Slot) (n : Nat) (w : VReg) : (t.setV n w).wdPend = t.wdPend := rfl
@[simp] theorem Slot.setV_wdDue (t : Slot) (n : Nat) (w : VReg) : (t.setV n w).wdDue = t.wdDue := rfl
@[simp] theorem Slot.setV_wdr (t : Slot) (n : Nat) (w : VReg) : (t.setV n w).wdr = t.wdr := rfl
@[simp] theorem Slot.setV_wdAddr (t : Slot) (n : Nat) (w : VReg) : (t.setV n w).wdAddr = t.wdAddr := rfl
@[simp] theorem Slot.setV_wdPost (t : Slot) (n : Nat) (w : VReg) : (t.setV n w).wdPost = t.wdPost := rfl
@[simp] theorem Slot.setV_tdPost (t : Slot) (n : Nat) (w : VReg) : (t.setV n w).tdPost = t.tdPost := rfl
@[simp] theorem Slot.setV_tmDue (t : Slot) (n : Nat) (w : VReg) : (t.setV n w).tmDue = t.tmDue := rfl
@[simp] theorem Slot.setV_nextAt (t : Slot) (n : Nat) (w : VReg) : (t.setV n w).nextAt = t.nextAt := rfl
@[simp] theorem Slot.setV_lastIssue (t : Slot) (n : Nat) (w : VReg) : (t.setV n w).lastIssue = t.lastIssue := rfl
@[simp] theorem Slot.setV_age (t : Slot) (n : Nat) (w : VReg) : (t.setV n w).age = t.age := rfl
@[simp] theorem Slot.setV_yieldFor (t : Slot) (n : Nat) (w : VReg) : (t.setV n w).yieldFor = t.yieldFor := rfl
@[simp] theorem Slot.setV_yieldUntil (t : Slot) (n : Nat) (w : VReg) : (t.setV n w).yieldUntil = t.yieldUntil := rfl
@[simp] theorem Slot.setV_noTrig (t : Slot) (n : Nat) (w : VReg) : (t.setV n w).noTrig = t.noTrig := rfl
@[simp] theorem Slot.setV_stepping (t : Slot) (n : Nat) (w : VReg) : (t.setV n w).stepping = t.stepping := rfl
@[simp] theorem Slot.setV_startFault (t : Slot) (n : Nat) (w : VReg) : (t.setV n w).startFault = t.startFault := rfl
@[simp] theorem Slot.setV_evset (t : Slot) (n : Nat) (w : VReg) : (t.setV n w).evset = t.evset := rfl
@[simp] theorem Slot.setV_merr (t : Slot) (n : Nat) (w : VReg) : (t.setV n w).merr = t.merr := rfl
@[simp] theorem Slot.setV_mflags (t : Slot) (n : Nat) (w : VReg) : (t.setV n w).mflags = t.mflags := rfl
@[simp] theorem Slot.setV_taken (t : Slot) (n : Nat) (w : VReg) : (t.setV n w).taken = t.taken := rfl
@[simp] theorem Slot.setV_recs (t : Slot) (n : Nat) (w : VReg) : (t.setV n w).recs = t.recs := rfl
@[simp] theorem Slot.setV_dFromS (t : Slot) (n : Nat) (w : VReg) : (t.setV n w).dFromS = t.dFromS := rfl
@[simp] theorem Slot.setV_dRpt (t : Slot) (n : Nat) (w : VReg) : (t.setV n w).dRpt = t.dRpt := rfl
@[simp] theorem Slot.setV_dSkip (t : Slot) (n : Nat) (w : VReg) : (t.setV n w).dSkip = t.dSkip := rfl
@[simp] theorem Slot.setV_dHold (t : Slot) (n : Nat) (w : VReg) : (t.setV n w).dHold = t.dHold := rfl
@[simp] theorem Slot.setV_dErr (t : Slot) (n : Nat) (w : VReg) : (t.setV n w).dErr = t.dErr := rfl
@[simp] theorem Slot.setV_desc (t : Slot) (n : Nat) (w : VReg) : (t.setV n w).desc = t.desc := rfl
@[simp] theorem Slot.setV_restartable (t : Slot) (n : Nat) (w : VReg) : (t.setV n w).restartable = t.restartable := rfl
@[simp] theorem Slot.setV_cbuf (t : Slot) (n : Nat) (w : VReg) : (t.setV n w).cbuf = t.cbuf := rfl
@[simp] theorem Slot.setV_cbufUsed (t : Slot) (n : Nat) (w : VReg) : (t.setV n w).cbufUsed = t.cbufUsed := rfl
@[simp] theorem Slot.setV_nrSeen (t : Slot) (n : Nat) (w : VReg) : (t.setV n w).nrSeen = t.nrSeen := rfl
@[simp] theorem Slot.setV_pbPos (t : Slot) (n : Nat) (w : VReg) : (t.setV n w).pbPos = t.pbPos := rfl
@[simp] theorem Slot.setV_args (t : Slot) (n : Nat) (w : VReg) : (t.setV n w).args = t.args := rfl

@[simp] theorem Slot.setM_occ (t : Slot) (n : Nat) (w : Mask) : (t.setM n w).occ = t.occ := by unfold Slot.setM; split <;> rfl
@[simp] theorem Slot.setM_wasFree (t : Slot) (n : Nat) (w : Mask) : (t.setM n w).wasFree = t.wasFree := by unfold Slot.setM; split <;> rfl
@[simp] theorem Slot.setM_cls (t : Slot) (n : Nat) (w : Mask) : (t.setM n w).cls = t.cls := by unfold Slot.setM; split <;> rfl
@[simp] theorem Slot.setM_stopReq (t : Slot) (n : Nat) (w : Mask) : (t.setM n w).stopReq = t.stopReq := by unfold Slot.setM; split <;> rfl
@[simp] theorem Slot.setM_stopped (t : Slot) (n : Nat) (w : Mask) : (t.setM n w).stopped = t.stopped := by unfold Slot.setM; split <;> rfl
@[simp] theorem Slot.setM_haltReq (t : Slot) (n : Nat) (w : Mask) : (t.setM n w).haltReq = t.haltReq := by unfold Slot.setM; split <;> rfl
@[simp] theorem Slot.setM_halted (t : Slot) (n : Nat) (w : Mask) : (t.setM n w).halted = t.halted := by unfold Slot.setM; split <;> rfl
@[simp] theorem Slot.setM_mode (t : Slot) (n : Nat) (w : Mask) : (t.setM n w).mode = t.mode := by unfold Slot.setM; split <;> rfl
@[simp] theorem Slot.setM_pc (t : Slot) (n : Nat) (w : Mask) : (t.setM n w).pc = t.pc := by unfold Slot.setM; split <;> rfl
@[simp] theorem Slot.setM_x (t : Slot) (n : Nat) (w : Mask) : (t.setM n w).x = t.x := by unfold Slot.setM; split <;> rfl
@[simp] theorem Slot.setM_c (t : Slot) (n : Nat) (w : Mask) : (t.setM n w).c = t.c := by unfold Slot.setM; split <;> rfl
@[simp] theorem Slot.setM_c15s (t : Slot) (n : Nat) (w : Mask) : (t.setM n w).c15s = t.c15s := by unfold Slot.setM; split <;> rfl
@[simp] theorem Slot.setM_v (t : Slot) (n : Nat) (w : Mask) : (t.setM n w).v = t.v := by unfold Slot.setM; split <;> rfl
@[simp] theorem Slot.setM_badv (t : Slot) (n : Nat) (w : Mask) : (t.setM n w).badv = t.badv := by unfold Slot.setM; split <;> rfl
@[simp] theorem Slot.setM_fmode (t : Slot) (n : Nat) (w : Mask) : (t.setM n w).fmode = t.fmode := by unfold Slot.setM; split <;> rfl
@[simp] theorem Slot.setM_flagNow (t : Slot) (n : Nat) (w : Mask) : (t.setM n w).flagNow = t.flagNow := by unfold Slot.setM; split <;> rfl
@[simp] theorem Slot.setM_mxcfg (t : Slot) (n : Nat) (w : Mask) : (t.setM n w).mxcfg = t.mxcfg := by unfold Slot.setM; split <;> rfl
@[simp] theorem Slot.setM_wlim (t : Slot) (n : Nat) (w : Mask) : (t.setM n w).wlim = t.wlim := by unfold Slot.setM; split <;> rfl
@[simp] theorem Slot.setM_lkey (t : Slot) (n : Nat) (w : Mask) : (t.setM n w).lkey = t.lkey := by unfold Slot.setM; split <;> rfl
@[simp] theorem Slot.setM_rptc (t : Slot) (n : Nat) (w : Mask) : (t.setM n w).rptc = t.rptc := by unfold Slot.setM; split <;> rfl
@[simp] theorem Slot.setM_instret (t : Slot) (n : Nat) (w : Mask) : (t.setM n w).instret = t.instret := by unfold Slot.setM; split <;> rfl
@[simp] theorem Slot.setM_tvec (t : Slot) (n : Nat) (w : Mask) : (t.setM n w).tvec = t.tvec := by unfold Slot.setM; split <;> rfl
@[simp] theorem Slot.setM_trpc (t : Slot) (n : Nat) (w : Mask) : (t.setM n w).trpc = t.trpc := by unfold Slot.setM; split <;> rfl
@[simp] theorem Slot.setM_tcause (t : Slot) (n : Nat) (w : Mask) : (t.setM n w).tcause = t.tcause := by unfold Slot.setM; split <;> rfl
@[simp] theorem Slot.setM_tval (t : Slot) (n : Nat) (w : Mask) : (t.setM n w).tval = t.tval := by unfold Slot.setM; split <;> rfl
@[simp] theorem Slot.setM_tstat (t : Slot) (n : Nat) (w : Mask) : (t.setM n w).tstat = t.tstat := by unfold Slot.setM; split <;> rfl
@[simp] theorem Slot.setM_tscratch (t : Slot) (n : Nat) (w : Mask) : (t.setM n w).tscratch = t.tscratch := by unfold Slot.setM; split <;> rfl
@[simp] theorem Slot.setM_wdog (t : Slot) (n : Nat) (w : Mask) : (t.setM n w).wdog = t.wdog := by unfold Slot.setM; split <;> rfl
@[simp] theorem Slot.setM_tie (t : Slot) (n : Nat) (w : Mask) : (t.setM n w).tie = t.tie := by unfold Slot.setM; split <;> rfl
@[simp] theorem Slot.setM_tip (t : Slot) (n : Nat) (w : Mask) : (t.setM n w).tip = t.tip := by unfold Slot.setM; split <;> rfl
@[simp] theorem Slot.setM_tipNow (t : Slot) (n : Nat) (w : Mask) : (t.setM n w).tipNow = t.tipNow := by unfold Slot.setM; split <;> rfl
@[simp] theorem Slot.setM_dcsr (t : Slot) (n : Nat) (w : Mask) : (t.setM n w).dcsr = t.dcsr := by unfold Slot.setM; split <;> rfl
@[simp] theorem Slot.setM_dpc (t : Slot) (n : Nat) (w : Mask) : (t.setM n w).dpc = t.dpc := by unfold Slot.setM; split <;> rfl
@[simp] theorem Slot.setM_dscratch0 (t : Slot) (n : Nat) (w : Mask) : (t.setM n w).dscratch0 = t.dscratch0 := by unfold Slot.setM; split <;> rfl
@[simp] theorem Slot.setM_rptLive (t : Slot) (n : Nat) (w : Mask) : (t.setM n w).rptLive = t.rptLive := by unfold Slot.setM; split <;> rfl
@[simp] theorem Slot.setM_skip (t : Slot) (n : Nat) (w : Mask) : (t.setM n w).skip = t.skip := by unfold Slot.setM; split <;> rfl
@[simp] theorem Slot.setM_skipS (t : Slot) (n : Nat) (w : Mask) : (t.setM n w).skipS = t.skipS := by unfold Slot.setM; split <;> rfl
@[simp] theorem Slot.setM_refusal (t : Slot) (n : Nat) (w : Mask) : (t.setM n w).refusal = t.refusal := by unfold Slot.setM; split <;> rfl
@[simp] theorem Slot.setM_wins (t : Slot) (n : Nat) (w : Mask) : (t.setM n w).wins = t.wins := by unfold Slot.setM; split <;> rfl
@[simp] theorem Slot.setM_nextWid (t : Slot) (n : Nat) (w : Mask) : (t.setM n w).nextWid = t.nextWid := by unfold Slot.setM; split <;> rfl
@[simp] theorem Slot.setM_closedAt (t : Slot) (n : Nat) (w : Mask) : (t.setM n w).closedAt = t.closedAt := by unfold Slot.setM; split <;> rfl
@[simp] theorem Slot.setM_closedDst (t : Slot) (n : Nat) (w : Mask) : (t.setM n w).closedDst = t.closedDst := by unfold Slot.setM; split <;> rfl
@[simp] theorem Slot.setM_hold (t : Slot) (n : Nat) (w : Mask) : (t.setM n w).hold = t.hold := by unfold Slot.setM; split <;> rfl
@[simp] theorem Slot.setM_sync (t : Slot) (n : Nat) (w : Mask) : (t.setM n w).sync = t.sync := by unfold Slot.setM; split <;> rfl
@[simp] theorem Slot.setM_dfs (t : Slot) (n : Nat) (w : Mask) : (t.setM n w).dfs = t.dfs := by unfold Slot.setM; split <;> rfl
@[simp] theorem Slot.setM_wdPend (t : Slot) (n : Nat) (w : Mask) : (t.setM n w).wdPend = t.wdPend := by unfold Slot.setM; split <;> rfl
@[simp] theorem Slot.setM_wdDue (t : Slot) (n : Nat) (w : Mask) : (t.setM n w).wdDue = t.wdDue := by unfold Slot.setM; split <;> rfl
@[simp] theorem Slot.setM_wdr (t : Slot) (n : Nat) (w : Mask) : (t.setM n w).wdr = t.wdr := by unfold Slot.setM; split <;> rfl
@[simp] theorem Slot.setM_wdAddr (t : Slot) (n : Nat) (w : Mask) : (t.setM n w).wdAddr = t.wdAddr := by unfold Slot.setM; split <;> rfl
@[simp] theorem Slot.setM_wdPost (t : Slot) (n : Nat) (w : Mask) : (t.setM n w).wdPost = t.wdPost := by unfold Slot.setM; split <;> rfl
@[simp] theorem Slot.setM_tdPost (t : Slot) (n : Nat) (w : Mask) : (t.setM n w).tdPost = t.tdPost := by unfold Slot.setM; split <;> rfl
@[simp] theorem Slot.setM_tmDue (t : Slot) (n : Nat) (w : Mask) : (t.setM n w).tmDue = t.tmDue := by unfold Slot.setM; split <;> rfl
@[simp] theorem Slot.setM_nextAt (t : Slot) (n : Nat) (w : Mask) : (t.setM n w).nextAt = t.nextAt := by unfold Slot.setM; split <;> rfl
@[simp] theorem Slot.setM_lastIssue (t : Slot) (n : Nat) (w : Mask) : (t.setM n w).lastIssue = t.lastIssue := by unfold Slot.setM; split <;> rfl
@[simp] theorem Slot.setM_age (t : Slot) (n : Nat) (w : Mask) : (t.setM n w).age = t.age := by unfold Slot.setM; split <;> rfl
@[simp] theorem Slot.setM_yieldFor (t : Slot) (n : Nat) (w : Mask) : (t.setM n w).yieldFor = t.yieldFor := by unfold Slot.setM; split <;> rfl
@[simp] theorem Slot.setM_yieldUntil (t : Slot) (n : Nat) (w : Mask) : (t.setM n w).yieldUntil = t.yieldUntil := by unfold Slot.setM; split <;> rfl
@[simp] theorem Slot.setM_noTrig (t : Slot) (n : Nat) (w : Mask) : (t.setM n w).noTrig = t.noTrig := by unfold Slot.setM; split <;> rfl
@[simp] theorem Slot.setM_stepping (t : Slot) (n : Nat) (w : Mask) : (t.setM n w).stepping = t.stepping := by unfold Slot.setM; split <;> rfl
@[simp] theorem Slot.setM_startFault (t : Slot) (n : Nat) (w : Mask) : (t.setM n w).startFault = t.startFault := by unfold Slot.setM; split <;> rfl
@[simp] theorem Slot.setM_evset (t : Slot) (n : Nat) (w : Mask) : (t.setM n w).evset = t.evset := by unfold Slot.setM; split <;> rfl
@[simp] theorem Slot.setM_merr (t : Slot) (n : Nat) (w : Mask) : (t.setM n w).merr = t.merr := by unfold Slot.setM; split <;> rfl
@[simp] theorem Slot.setM_mflags (t : Slot) (n : Nat) (w : Mask) : (t.setM n w).mflags = t.mflags := by unfold Slot.setM; split <;> rfl
@[simp] theorem Slot.setM_taken (t : Slot) (n : Nat) (w : Mask) : (t.setM n w).taken = t.taken := by unfold Slot.setM; split <;> rfl
@[simp] theorem Slot.setM_recs (t : Slot) (n : Nat) (w : Mask) : (t.setM n w).recs = t.recs := by unfold Slot.setM; split <;> rfl
@[simp] theorem Slot.setM_dFromS (t : Slot) (n : Nat) (w : Mask) : (t.setM n w).dFromS = t.dFromS := by unfold Slot.setM; split <;> rfl
@[simp] theorem Slot.setM_dRpt (t : Slot) (n : Nat) (w : Mask) : (t.setM n w).dRpt = t.dRpt := by unfold Slot.setM; split <;> rfl
@[simp] theorem Slot.setM_dSkip (t : Slot) (n : Nat) (w : Mask) : (t.setM n w).dSkip = t.dSkip := by unfold Slot.setM; split <;> rfl
@[simp] theorem Slot.setM_dHold (t : Slot) (n : Nat) (w : Mask) : (t.setM n w).dHold = t.dHold := by unfold Slot.setM; split <;> rfl
@[simp] theorem Slot.setM_dErr (t : Slot) (n : Nat) (w : Mask) : (t.setM n w).dErr = t.dErr := by unfold Slot.setM; split <;> rfl
@[simp] theorem Slot.setM_desc (t : Slot) (n : Nat) (w : Mask) : (t.setM n w).desc = t.desc := by unfold Slot.setM; split <;> rfl
@[simp] theorem Slot.setM_restartable (t : Slot) (n : Nat) (w : Mask) : (t.setM n w).restartable = t.restartable := by unfold Slot.setM; split <;> rfl
@[simp] theorem Slot.setM_cbuf (t : Slot) (n : Nat) (w : Mask) : (t.setM n w).cbuf = t.cbuf := by unfold Slot.setM; split <;> rfl
@[simp] theorem Slot.setM_cbufUsed (t : Slot) (n : Nat) (w : Mask) : (t.setM n w).cbufUsed = t.cbufUsed := by unfold Slot.setM; split <;> rfl
@[simp] theorem Slot.setM_nrSeen (t : Slot) (n : Nat) (w : Mask) : (t.setM n w).nrSeen = t.nrSeen := by unfold Slot.setM; split <;> rfl
@[simp] theorem Slot.setM_pbPos (t : Slot) (n : Nat) (w : Mask) : (t.setM n w).pbPos = t.pbPos := by unfold Slot.setM; split <;> rfl
@[simp] theorem Slot.setM_args (t : Slot) (n : Nat) (w : Mask) : (t.setM n w).args = t.args := by unfold Slot.setM; split <;> rfl

@[simp] theorem Slot.advance_occ (t : Slot) (n : Nat) : (t.advance n).occ = t.occ := by unfold Slot.advance; simp only; split <;> rfl
@[simp] theorem Slot.advance_wasFree (t : Slot) (n : Nat) : (t.advance n).wasFree = t.wasFree := by unfold Slot.advance; simp only; split <;> rfl
@[simp] theorem Slot.advance_cls (t : Slot) (n : Nat) : (t.advance n).cls = t.cls := by unfold Slot.advance; simp only; split <;> rfl
@[simp] theorem Slot.advance_stopReq (t : Slot) (n : Nat) : (t.advance n).stopReq = t.stopReq := by unfold Slot.advance; simp only; split <;> rfl
@[simp] theorem Slot.advance_stopped (t : Slot) (n : Nat) : (t.advance n).stopped = t.stopped := by unfold Slot.advance; simp only; split <;> rfl
@[simp] theorem Slot.advance_haltReq (t : Slot) (n : Nat) : (t.advance n).haltReq = t.haltReq := by unfold Slot.advance; simp only; split <;> rfl
@[simp] theorem Slot.advance_halted (t : Slot) (n : Nat) : (t.advance n).halted = t.halted := by unfold Slot.advance; simp only; split <;> rfl
@[simp] theorem Slot.advance_mode (t : Slot) (n : Nat) : (t.advance n).mode = t.mode := by unfold Slot.advance; simp only; split <;> rfl
@[simp] theorem Slot.advance_x (t : Slot) (n : Nat) : (t.advance n).x = t.x := by unfold Slot.advance; simp only; split <;> rfl
@[simp] theorem Slot.advance_c (t : Slot) (n : Nat) : (t.advance n).c = t.c := by unfold Slot.advance; simp only; split <;> rfl
@[simp] theorem Slot.advance_c15s (t : Slot) (n : Nat) : (t.advance n).c15s = t.c15s := by unfold Slot.advance; simp only; split <;> rfl
@[simp] theorem Slot.advance_v (t : Slot) (n : Nat) : (t.advance n).v = t.v := by unfold Slot.advance; simp only; split <;> rfl
@[simp] theorem Slot.advance_badv (t : Slot) (n : Nat) : (t.advance n).badv = t.badv := by unfold Slot.advance; simp only; split <;> rfl
@[simp] theorem Slot.advance_m (t : Slot) (n : Nat) : (t.advance n).m = t.m := by unfold Slot.advance; simp only; split <;> rfl
@[simp] theorem Slot.advance_fmode (t : Slot) (n : Nat) : (t.advance n).fmode = t.fmode := by unfold Slot.advance; simp only; split <;> rfl
@[simp] theorem Slot.advance_flagNow (t : Slot) (n : Nat) : (t.advance n).flagNow = t.flagNow := by unfold Slot.advance; simp only; split <;> rfl
@[simp] theorem Slot.advance_mxcfg (t : Slot) (n : Nat) : (t.advance n).mxcfg = t.mxcfg := by unfold Slot.advance; simp only; split <;> rfl
@[simp] theorem Slot.advance_wlim (t : Slot) (n : Nat) : (t.advance n).wlim = t.wlim := by unfold Slot.advance; simp only; split <;> rfl
@[simp] theorem Slot.advance_lkey (t : Slot) (n : Nat) : (t.advance n).lkey = t.lkey := by unfold Slot.advance; simp only; split <;> rfl
@[simp] theorem Slot.advance_instret (t : Slot) (n : Nat) : (t.advance n).instret = t.instret := by unfold Slot.advance; simp only; split <;> rfl
@[simp] theorem Slot.advance_tvec (t : Slot) (n : Nat) : (t.advance n).tvec = t.tvec := by unfold Slot.advance; simp only; split <;> rfl
@[simp] theorem Slot.advance_trpc (t : Slot) (n : Nat) : (t.advance n).trpc = t.trpc := by unfold Slot.advance; simp only; split <;> rfl
@[simp] theorem Slot.advance_tcause (t : Slot) (n : Nat) : (t.advance n).tcause = t.tcause := by unfold Slot.advance; simp only; split <;> rfl
@[simp] theorem Slot.advance_tval (t : Slot) (n : Nat) : (t.advance n).tval = t.tval := by unfold Slot.advance; simp only; split <;> rfl
@[simp] theorem Slot.advance_tstat (t : Slot) (n : Nat) : (t.advance n).tstat = t.tstat := by unfold Slot.advance; simp only; split <;> rfl
@[simp] theorem Slot.advance_tscratch (t : Slot) (n : Nat) : (t.advance n).tscratch = t.tscratch := by unfold Slot.advance; simp only; split <;> rfl
@[simp] theorem Slot.advance_wdog (t : Slot) (n : Nat) : (t.advance n).wdog = t.wdog := by unfold Slot.advance; simp only; split <;> rfl
@[simp] theorem Slot.advance_tie (t : Slot) (n : Nat) : (t.advance n).tie = t.tie := by unfold Slot.advance; simp only; split <;> rfl
@[simp] theorem Slot.advance_tip (t : Slot) (n : Nat) : (t.advance n).tip = t.tip := by unfold Slot.advance; simp only; split <;> rfl
@[simp] theorem Slot.advance_tipNow (t : Slot) (n : Nat) : (t.advance n).tipNow = t.tipNow := by unfold Slot.advance; simp only; split <;> rfl
@[simp] theorem Slot.advance_dcsr (t : Slot) (n : Nat) : (t.advance n).dcsr = t.dcsr := by unfold Slot.advance; simp only; split <;> rfl
@[simp] theorem Slot.advance_dpc (t : Slot) (n : Nat) : (t.advance n).dpc = t.dpc := by unfold Slot.advance; simp only; split <;> rfl
@[simp] theorem Slot.advance_dscratch0 (t : Slot) (n : Nat) : (t.advance n).dscratch0 = t.dscratch0 := by unfold Slot.advance; simp only; split <;> rfl
@[simp] theorem Slot.advance_skip (t : Slot) (n : Nat) : (t.advance n).skip = t.skip := by unfold Slot.advance; simp only; split <;> rfl
@[simp] theorem Slot.advance_skipS (t : Slot) (n : Nat) : (t.advance n).skipS = t.skipS := by unfold Slot.advance; simp only; split <;> rfl
@[simp] theorem Slot.advance_refusal (t : Slot) (n : Nat) : (t.advance n).refusal = t.refusal := by unfold Slot.advance; simp only; split <;> rfl
@[simp] theorem Slot.advance_wins (t : Slot) (n : Nat) : (t.advance n).wins = t.wins := by unfold Slot.advance; simp only; split <;> rfl
@[simp] theorem Slot.advance_nextWid (t : Slot) (n : Nat) : (t.advance n).nextWid = t.nextWid := by unfold Slot.advance; simp only; split <;> rfl
@[simp] theorem Slot.advance_closedAt (t : Slot) (n : Nat) : (t.advance n).closedAt = t.closedAt := by unfold Slot.advance; simp only; split <;> rfl
@[simp] theorem Slot.advance_closedDst (t : Slot) (n : Nat) : (t.advance n).closedDst = t.closedDst := by unfold Slot.advance; simp only; split <;> rfl
@[simp] theorem Slot.advance_hold (t : Slot) (n : Nat) : (t.advance n).hold = t.hold := by unfold Slot.advance; simp only; split <;> rfl
@[simp] theorem Slot.advance_sync (t : Slot) (n : Nat) : (t.advance n).sync = t.sync := by unfold Slot.advance; simp only; split <;> rfl
@[simp] theorem Slot.advance_dfs (t : Slot) (n : Nat) : (t.advance n).dfs = t.dfs := by unfold Slot.advance; simp only; split <;> rfl
@[simp] theorem Slot.advance_wdPend (t : Slot) (n : Nat) : (t.advance n).wdPend = t.wdPend := by unfold Slot.advance; simp only; split <;> rfl
@[simp] theorem Slot.advance_wdDue (t : Slot) (n : Nat) : (t.advance n).wdDue = t.wdDue := by unfold Slot.advance; simp only; split <;> rfl
@[simp] theorem Slot.advance_wdr (t : Slot) (n : Nat) : (t.advance n).wdr = t.wdr := by unfold Slot.advance; simp only; split <;> rfl
@[simp] theorem Slot.advance_wdAddr (t : Slot) (n : Nat) : (t.advance n).wdAddr = t.wdAddr := by unfold Slot.advance; simp only; split <;> rfl
@[simp] theorem Slot.advance_wdPost (t : Slot) (n : Nat) : (t.advance n).wdPost = t.wdPost := by unfold Slot.advance; simp only; split <;> rfl
@[simp] theorem Slot.advance_tdPost (t : Slot) (n : Nat) : (t.advance n).tdPost = t.tdPost := by unfold Slot.advance; simp only; split <;> rfl
@[simp] theorem Slot.advance_tmDue (t : Slot) (n : Nat) : (t.advance n).tmDue = t.tmDue := by unfold Slot.advance; simp only; split <;> rfl
@[simp] theorem Slot.advance_nextAt (t : Slot) (n : Nat) : (t.advance n).nextAt = t.nextAt := by unfold Slot.advance; simp only; split <;> rfl
@[simp] theorem Slot.advance_lastIssue (t : Slot) (n : Nat) : (t.advance n).lastIssue = t.lastIssue := by unfold Slot.advance; simp only; split <;> rfl
@[simp] theorem Slot.advance_age (t : Slot) (n : Nat) : (t.advance n).age = t.age := by unfold Slot.advance; simp only; split <;> rfl
@[simp] theorem Slot.advance_yieldFor (t : Slot) (n : Nat) : (t.advance n).yieldFor = t.yieldFor := by unfold Slot.advance; simp only; split <;> rfl
@[simp] theorem Slot.advance_yieldUntil (t : Slot) (n : Nat) : (t.advance n).yieldUntil = t.yieldUntil := by unfold Slot.advance; simp only; split <;> rfl
@[simp] theorem Slot.advance_noTrig (t : Slot) (n : Nat) : (t.advance n).noTrig = t.noTrig := by unfold Slot.advance; simp only; split <;> rfl
@[simp] theorem Slot.advance_stepping (t : Slot) (n : Nat) : (t.advance n).stepping = t.stepping := by unfold Slot.advance; simp only; split <;> rfl
@[simp] theorem Slot.advance_startFault (t : Slot) (n : Nat) : (t.advance n).startFault = t.startFault := by unfold Slot.advance; simp only; split <;> rfl
@[simp] theorem Slot.advance_evset (t : Slot) (n : Nat) : (t.advance n).evset = t.evset := by unfold Slot.advance; simp only; split <;> rfl
@[simp] theorem Slot.advance_merr (t : Slot) (n : Nat) : (t.advance n).merr = t.merr := by unfold Slot.advance; simp only; split <;> rfl
@[simp] theorem Slot.advance_mflags (t : Slot) (n : Nat) : (t.advance n).mflags = t.mflags := by unfold Slot.advance; simp only; split <;> rfl
@[simp] theorem Slot.advance_taken (t : Slot) (n : Nat) : (t.advance n).taken = t.taken := by unfold Slot.advance; simp only; split <;> rfl
@[simp] theorem Slot.advance_recs (t : Slot) (n : Nat) : (t.advance n).recs = t.recs := by unfold Slot.advance; simp only; split <;> rfl
@[simp] theorem Slot.advance_dFromS (t : Slot) (n : Nat) : (t.advance n).dFromS = t.dFromS := by unfold Slot.advance; simp only; split <;> rfl
@[simp] theorem Slot.advance_dRpt (t : Slot) (n : Nat) : (t.advance n).dRpt = t.dRpt := by unfold Slot.advance; simp only; split <;> rfl
@[simp] theorem Slot.advance_dSkip (t : Slot) (n : Nat) : (t.advance n).dSkip = t.dSkip := by unfold Slot.advance; simp only; split <;> rfl
@[simp] theorem Slot.advance_dHold (t : Slot) (n : Nat) : (t.advance n).dHold = t.dHold := by unfold Slot.advance; simp only; split <;> rfl
@[simp] theorem Slot.advance_dErr (t : Slot) (n : Nat) : (t.advance n).dErr = t.dErr := by unfold Slot.advance; simp only; split <;> rfl
@[simp] theorem Slot.advance_desc (t : Slot) (n : Nat) : (t.advance n).desc = t.desc := by unfold Slot.advance; simp only; split <;> rfl
@[simp] theorem Slot.advance_restartable (t : Slot) (n : Nat) : (t.advance n).restartable = t.restartable := by unfold Slot.advance; simp only; split <;> rfl
@[simp] theorem Slot.advance_cbuf (t : Slot) (n : Nat) : (t.advance n).cbuf = t.cbuf := by unfold Slot.advance; simp only; split <;> rfl
@[simp] theorem Slot.advance_cbufUsed (t : Slot) (n : Nat) : (t.advance n).cbufUsed = t.cbufUsed := by unfold Slot.advance; simp only; split <;> rfl
@[simp] theorem Slot.advance_nrSeen (t : Slot) (n : Nat) : (t.advance n).nrSeen = t.nrSeen := by unfold Slot.advance; simp only; split <;> rfl
@[simp] theorem Slot.advance_pbPos (t : Slot) (n : Nat) : (t.advance n).pbPos = t.pbPos := by unfold Slot.advance; simp only; split <;> rfl
@[simp] theorem Slot.advance_args (t : Slot) (n : Nat) : (t.advance n).args = t.args := by unfold Slot.advance; simp only; split <;> rfl

@[simp] theorem Slot.issued_occ (t : Slot) (L n : Nat) : (t.issued L n).occ = t.occ := rfl
@[simp] theorem Slot.issued_wasFree (t : Slot) (L n : Nat) : (t.issued L n).wasFree = t.wasFree := rfl
@[simp] theorem Slot.issued_cls (t : Slot) (L n : Nat) : (t.issued L n).cls = t.cls := rfl
@[simp] theorem Slot.issued_stopReq (t : Slot) (L n : Nat) : (t.issued L n).stopReq = t.stopReq := rfl
@[simp] theorem Slot.issued_stopped (t : Slot) (L n : Nat) : (t.issued L n).stopped = t.stopped := rfl
@[simp] theorem Slot.issued_haltReq (t : Slot) (L n : Nat) : (t.issued L n).haltReq = t.haltReq := rfl
@[simp] theorem Slot.issued_halted (t : Slot) (L n : Nat) : (t.issued L n).halted = t.halted := rfl
@[simp] theorem Slot.issued_mode (t : Slot) (L n : Nat) : (t.issued L n).mode = t.mode := rfl
@[simp] theorem Slot.issued_pc (t : Slot) (L n : Nat) : (t.issued L n).pc = t.pc := rfl
@[simp] theorem Slot.issued_x (t : Slot) (L n : Nat) : (t.issued L n).x = t.x := rfl
@[simp] theorem Slot.issued_c (t : Slot) (L n : Nat) : (t.issued L n).c = t.c := rfl
@[simp] theorem Slot.issued_c15s (t : Slot) (L n : Nat) : (t.issued L n).c15s = t.c15s := rfl
@[simp] theorem Slot.issued_v (t : Slot) (L n : Nat) : (t.issued L n).v = t.v := rfl
@[simp] theorem Slot.issued_badv (t : Slot) (L n : Nat) : (t.issued L n).badv = t.badv := rfl
@[simp] theorem Slot.issued_m (t : Slot) (L n : Nat) : (t.issued L n).m = t.m := rfl
@[simp] theorem Slot.issued_fmode (t : Slot) (L n : Nat) : (t.issued L n).fmode = t.fmode := rfl
@[simp] theorem Slot.issued_flagNow (t : Slot) (L n : Nat) : (t.issued L n).flagNow = t.flagNow := rfl
@[simp] theorem Slot.issued_mxcfg (t : Slot) (L n : Nat) : (t.issued L n).mxcfg = t.mxcfg := rfl
@[simp] theorem Slot.issued_wlim (t : Slot) (L n : Nat) : (t.issued L n).wlim = t.wlim := rfl
@[simp] theorem Slot.issued_lkey (t : Slot) (L n : Nat) : (t.issued L n).lkey = t.lkey := rfl
@[simp] theorem Slot.issued_rptc (t : Slot) (L n : Nat) : (t.issued L n).rptc = t.rptc := rfl
@[simp] theorem Slot.issued_instret (t : Slot) (L n : Nat) : (t.issued L n).instret = t.instret := rfl
@[simp] theorem Slot.issued_tvec (t : Slot) (L n : Nat) : (t.issued L n).tvec = t.tvec := rfl
@[simp] theorem Slot.issued_trpc (t : Slot) (L n : Nat) : (t.issued L n).trpc = t.trpc := rfl
@[simp] theorem Slot.issued_tcause (t : Slot) (L n : Nat) : (t.issued L n).tcause = t.tcause := rfl
@[simp] theorem Slot.issued_tval (t : Slot) (L n : Nat) : (t.issued L n).tval = t.tval := rfl
@[simp] theorem Slot.issued_tstat (t : Slot) (L n : Nat) : (t.issued L n).tstat = t.tstat := rfl
@[simp] theorem Slot.issued_tscratch (t : Slot) (L n : Nat) : (t.issued L n).tscratch = t.tscratch := rfl
@[simp] theorem Slot.issued_wdog (t : Slot) (L n : Nat) : (t.issued L n).wdog = t.wdog := rfl
@[simp] theorem Slot.issued_tie (t : Slot) (L n : Nat) : (t.issued L n).tie = t.tie := rfl
@[simp] theorem Slot.issued_tip (t : Slot) (L n : Nat) : (t.issued L n).tip = t.tip := rfl
@[simp] theorem Slot.issued_tipNow (t : Slot) (L n : Nat) : (t.issued L n).tipNow = t.tipNow := rfl
@[simp] theorem Slot.issued_dcsr (t : Slot) (L n : Nat) : (t.issued L n).dcsr = t.dcsr := rfl
@[simp] theorem Slot.issued_dpc (t : Slot) (L n : Nat) : (t.issued L n).dpc = t.dpc := rfl
@[simp] theorem Slot.issued_dscratch0 (t : Slot) (L n : Nat) : (t.issued L n).dscratch0 = t.dscratch0 := rfl
@[simp] theorem Slot.issued_rptLive (t : Slot) (L n : Nat) : (t.issued L n).rptLive = t.rptLive := rfl
@[simp] theorem Slot.issued_skip (t : Slot) (L n : Nat) : (t.issued L n).skip = t.skip := rfl
@[simp] theorem Slot.issued_skipS (t : Slot) (L n : Nat) : (t.issued L n).skipS = t.skipS := rfl
@[simp] theorem Slot.issued_refusal (t : Slot) (L n : Nat) : (t.issued L n).refusal = t.refusal := rfl
@[simp] theorem Slot.issued_nextWid (t : Slot) (L n : Nat) : (t.issued L n).nextWid = t.nextWid := rfl
@[simp] theorem Slot.issued_closedAt (t : Slot) (L n : Nat) : (t.issued L n).closedAt = t.closedAt := rfl
@[simp] theorem Slot.issued_closedDst (t : Slot) (L n : Nat) : (t.issued L n).closedDst = t.closedDst := rfl
@[simp] theorem Slot.issued_sync (t : Slot) (L n : Nat) : (t.issued L n).sync = t.sync := rfl
@[simp] theorem Slot.issued_dfs (t : Slot) (L n : Nat) : (t.issued L n).dfs = t.dfs := rfl
@[simp] theorem Slot.issued_wdPend (t : Slot) (L n : Nat) : (t.issued L n).wdPend = t.wdPend := rfl
@[simp] theorem Slot.issued_wdDue (t : Slot) (L n : Nat) : (t.issued L n).wdDue = t.wdDue := rfl
@[simp] theorem Slot.issued_wdr (t : Slot) (L n : Nat) : (t.issued L n).wdr = t.wdr := rfl
@[simp] theorem Slot.issued_wdAddr (t : Slot) (L n : Nat) : (t.issued L n).wdAddr = t.wdAddr := rfl
@[simp] theorem Slot.issued_wdPost (t : Slot) (L n : Nat) : (t.issued L n).wdPost = t.wdPost := rfl
@[simp] theorem Slot.issued_tdPost (t : Slot) (L n : Nat) : (t.issued L n).tdPost = t.tdPost := rfl
@[simp] theorem Slot.issued_tmDue (t : Slot) (L n : Nat) : (t.issued L n).tmDue = t.tmDue := rfl
@[simp] theorem Slot.issued_age (t : Slot) (L n : Nat) : (t.issued L n).age = t.age := rfl
@[simp] theorem Slot.issued_yieldFor (t : Slot) (L n : Nat) : (t.issued L n).yieldFor = t.yieldFor := rfl
@[simp] theorem Slot.issued_yieldUntil (t : Slot) (L n : Nat) : (t.issued L n).yieldUntil = t.yieldUntil := rfl
@[simp] theorem Slot.issued_stepping (t : Slot) (L n : Nat) : (t.issued L n).stepping = t.stepping := rfl
@[simp] theorem Slot.issued_startFault (t : Slot) (L n : Nat) : (t.issued L n).startFault = t.startFault := rfl
@[simp] theorem Slot.issued_evset (t : Slot) (L n : Nat) : (t.issued L n).evset = t.evset := rfl
@[simp] theorem Slot.issued_merr (t : Slot) (L n : Nat) : (t.issued L n).merr = t.merr := rfl
@[simp] theorem Slot.issued_mflags (t : Slot) (L n : Nat) : (t.issued L n).mflags = t.mflags := rfl
@[simp] theorem Slot.issued_taken (t : Slot) (L n : Nat) : (t.issued L n).taken = t.taken := rfl
@[simp] theorem Slot.issued_recs (t : Slot) (L n : Nat) : (t.issued L n).recs = t.recs := rfl
@[simp] theorem Slot.issued_dFromS (t : Slot) (L n : Nat) : (t.issued L n).dFromS = t.dFromS := rfl
@[simp] theorem Slot.issued_dRpt (t : Slot) (L n : Nat) : (t.issued L n).dRpt = t.dRpt := rfl
@[simp] theorem Slot.issued_dSkip (t : Slot) (L n : Nat) : (t.issued L n).dSkip = t.dSkip := rfl
@[simp] theorem Slot.issued_dHold (t : Slot) (L n : Nat) : (t.issued L n).dHold = t.dHold := rfl
@[simp] theorem Slot.issued_dErr (t : Slot) (L n : Nat) : (t.issued L n).dErr = t.dErr := rfl
@[simp] theorem Slot.issued_desc (t : Slot) (L n : Nat) : (t.issued L n).desc = t.desc := rfl
@[simp] theorem Slot.issued_restartable (t : Slot) (L n : Nat) : (t.issued L n).restartable = t.restartable := rfl
@[simp] theorem Slot.issued_cbuf (t : Slot) (L n : Nat) : (t.issued L n).cbuf = t.cbuf := rfl
@[simp] theorem Slot.issued_cbufUsed (t : Slot) (L n : Nat) : (t.issued L n).cbufUsed = t.cbufUsed := rfl
@[simp] theorem Slot.issued_nrSeen (t : Slot) (L n : Nat) : (t.issued L n).nrSeen = t.nrSeen := rfl
@[simp] theorem Slot.issued_pbPos (t : Slot) (L n : Nat) : (t.issued L n).pbPos = t.pbPos := rfl
@[simp] theorem Slot.issued_args (t : Slot) (L n : Nat) : (t.issued L n).args = t.args := rfl

@[simp] theorem Slot.getX_zero (t : Slot) : t.getX 0 = 0 := rfl
@[simp] theorem Slot.getC_zero (t : Slot) : t.getC 0 = .null := rfl
@[simp] theorem Slot.getM_zero (t : Slot) : t.getM 0 = BitVec.allOnes 128 := rfl
/-- x[j] after a write to x[n]: x0 discards it. -/
@[simp] theorem Slot.getX_setX (t : Slot) (n j : Nat) (w : Word) :
    (t.setX n w).getX j = if j = n ∧ n ≠ 0 then w else t.getX j := by
  unfold Slot.setX Slot.getX
  by_cases h : n = 0
  · simp [h]
  · simp only [h, if_false]
    by_cases j0 : j = 0
    · subst j0; simp [Ne.symm h]
    · simp only [j0, if_false, sget_sput]
      by_cases e : j = n <;> simp [e, h]
@[simp] theorem Slot.getM_setM (t : Slot) (n j : Nat) (w : Mask) :
    (t.setM n w).getM j = if j = n ∧ n ≠ 0 then w else t.getM j := by
  unfold Slot.setM Slot.getM
  by_cases h : n = 0
  · simp [h]
  · simp only [h, if_false]
    by_cases j0 : j = 0
    · subst j0; simp [Ne.symm h]
    · simp only [j0, if_false, sget_sput]
      by_cases e : j = n <;> simp [e, h]
@[simp] theorem Slot.getV_setV (t : Slot) (n j : Nat) (w : VReg) : (t.setV n w).getV j = if j = n then w else t.getV j :=
  sget_sput 0 t.v n j w
theorem Slot.c15isS_congr {t u : Slot} (h : u.mode = t.mode) (g : u.dFromS = t.dFromS) : u.c15isS = t.c15isS := by
  unfold Slot.c15isS; rw [h, g]
/-- c[j] after a write to c[n]: c0 discards it, and c15 is one of its two copies. -/
@[simp] theorem Slot.getC_setC (t : Slot) (n j : Nat) (w : Cap) :
    (t.setC n w).getC j = if j = n ∧ n ≠ 0 then w else t.getC j := by
  have hm : (t.setC n w).c15isS = t.c15isS := Slot.c15isS_congr (by simp) (by simp)
  unfold Slot.getC
  rw [hm]
  unfold Slot.setC
  by_cases h : n = 0
  · simp [h]
  · by_cases j0 : j = 0
    · subst j0; simp [Ne.symm h]
    · simp only [h, j0, if_false]
      by_cases f : t.c15isS
      · by_cases n15 : n = 15
        · subst n15
          by_cases j15 : j = 15 <;> simp [f, j15]
        · by_cases j15 : j = 15
          · subst j15; simp [f, n15, Ne.symm n15]
          · simp only [n15, j15, decide_false, Bool.false_and, Bool.false_eq_true, if_false, sget_sput]
            by_cases e : j = n <;> simp [e, h]
      · simp only [f, Bool.and_false, Bool.false_eq_true, if_false, sget_sput]
        by_cases e : j = n <;> simp [e, h]
@[simp] theorem Slot.getX_setC (t : Slot) (n j : Nat) (w : Cap) : (t.setC n w).getX j = t.getX j := by unfold Slot.getX; simp
@[simp] theorem Slot.getX_setV (t : Slot) (n j : Nat) (w : VReg) : (t.setV n w).getX j = t.getX j := rfl
@[simp] theorem Slot.getX_setM (t : Slot) (n j : Nat) (w : Mask) : (t.setM n w).getX j = t.getX j := by unfold Slot.getX; simp
@[simp] theorem Slot.getC_setX (t : Slot) (n j : Nat) (w : Word) : (t.setX n w).getC j = t.getC j := by
  unfold Slot.getC Slot.c15isS; simp
@[simp] theorem Slot.getV_setX (t : Slot) (n j : Nat) (w : Word) : (t.setX n w).getV j = t.getV j := by unfold Slot.getV; simp
@[simp] theorem Slot.getM_setX (t : Slot) (n j : Nat) (w : Word) : (t.setX n w).getM j = t.getM j := by unfold Slot.getM; simp
@[simp] theorem Slot.getC_setV (t : Slot) (n j : Nat) (w : VReg) : (t.setV n w).getC j = t.getC j := rfl
@[simp] theorem Slot.getM_setV (t : Slot) (n j : Nat) (w : VReg) : (t.setV n w).getM j = t.getM j := rfl

/-! ### Retiring -/

/-- The pc after an instruction outside a repeat. -/
theorem Slot.advance_pc (t : Slot) (n : Nat) (h : t.rptLive = false) : t.advance n = { t with pc := t.pc + BitVec.ofNat 64 n } := by
  simp [Slot.advance, h]

@[simp] theorem Slot.retire_occ (t : Slot) (n L now : Nat) : (t.retire n L now).occ = t.occ := Slot.advance_occ t n
@[simp] theorem Slot.retire_wasFree (t : Slot) (n L now : Nat) : (t.retire n L now).wasFree = t.wasFree := Slot.advance_wasFree t n
@[simp] theorem Slot.retire_cls (t : Slot) (n L now : Nat) : (t.retire n L now).cls = t.cls := Slot.advance_cls t n
@[simp] theorem Slot.retire_stopReq (t : Slot) (n L now : Nat) : (t.retire n L now).stopReq = t.stopReq := Slot.advance_stopReq t n
@[simp] theorem Slot.retire_stopped (t : Slot) (n L now : Nat) : (t.retire n L now).stopped = t.stopped := Slot.advance_stopped t n
@[simp] theorem Slot.retire_haltReq (t : Slot) (n L now : Nat) : (t.retire n L now).haltReq = t.haltReq := Slot.advance_haltReq t n
@[simp] theorem Slot.retire_halted (t : Slot) (n L now : Nat) : (t.retire n L now).halted = t.halted := Slot.advance_halted t n
@[simp] theorem Slot.retire_mode (t : Slot) (n L now : Nat) : (t.retire n L now).mode = t.mode := Slot.advance_mode t n
@[simp] theorem Slot.retire_x (t : Slot) (n L now : Nat) : (t.retire n L now).x = t.x := Slot.advance_x t n
@[simp] theorem Slot.retire_c (t : Slot) (n L now : Nat) : (t.retire n L now).c = t.c := Slot.advance_c t n
@[simp] theorem Slot.retire_c15s (t : Slot) (n L now : Nat) : (t.retire n L now).c15s = t.c15s := Slot.advance_c15s t n
@[simp] theorem Slot.retire_v (t : Slot) (n L now : Nat) : (t.retire n L now).v = t.v := Slot.advance_v t n
@[simp] theorem Slot.retire_badv (t : Slot) (n L now : Nat) : (t.retire n L now).badv = t.badv := Slot.advance_badv t n
@[simp] theorem Slot.retire_m (t : Slot) (n L now : Nat) : (t.retire n L now).m = t.m := Slot.advance_m t n
@[simp] theorem Slot.retire_fmode (t : Slot) (n L now : Nat) : (t.retire n L now).fmode = t.fmode := Slot.advance_fmode t n
@[simp] theorem Slot.retire_flagNow (t : Slot) (n L now : Nat) : (t.retire n L now).flagNow = t.flagNow := Slot.advance_flagNow t n
@[simp] theorem Slot.retire_mxcfg (t : Slot) (n L now : Nat) : (t.retire n L now).mxcfg = t.mxcfg := Slot.advance_mxcfg t n
@[simp] theorem Slot.retire_wlim (t : Slot) (n L now : Nat) : (t.retire n L now).wlim = t.wlim := Slot.advance_wlim t n
@[simp] theorem Slot.retire_lkey (t : Slot) (n L now : Nat) : (t.retire n L now).lkey = t.lkey := Slot.advance_lkey t n
@[simp] theorem Slot.retire_tvec (t : Slot) (n L now : Nat) : (t.retire n L now).tvec = t.tvec := Slot.advance_tvec t n
@[simp] theorem Slot.retire_trpc (t : Slot) (n L now : Nat) : (t.retire n L now).trpc = t.trpc := Slot.advance_trpc t n
@[simp] theorem Slot.retire_tcause (t : Slot) (n L now : Nat) : (t.retire n L now).tcause = t.tcause := Slot.advance_tcause t n
@[simp] theorem Slot.retire_tval (t : Slot) (n L now : Nat) : (t.retire n L now).tval = t.tval := Slot.advance_tval t n
@[simp] theorem Slot.retire_tstat (t : Slot) (n L now : Nat) : (t.retire n L now).tstat = t.tstat := Slot.advance_tstat t n
@[simp] theorem Slot.retire_tscratch (t : Slot) (n L now : Nat) : (t.retire n L now).tscratch = t.tscratch := Slot.advance_tscratch t n
@[simp] theorem Slot.retire_wdog (t : Slot) (n L now : Nat) : (t.retire n L now).wdog = t.wdog := Slot.advance_wdog t n
@[simp] theorem Slot.retire_tie (t : Slot) (n L now : Nat) : (t.retire n L now).tie = t.tie := Slot.advance_tie t n
@[simp] theorem Slot.retire_tip (t : Slot) (n L now : Nat) : (t.retire n L now).tip = t.tip := Slot.advance_tip t n
@[simp] theorem Slot.retire_tipNow (t : Slot) (n L now : Nat) : (t.retire n L now).tipNow = t.tipNow := Slot.advance_tipNow t n
@[simp] theorem Slot.retire_dcsr (t : Slot) (n L now : Nat) : (t.retire n L now).dcsr = t.dcsr := Slot.advance_dcsr t n
@[simp] theorem Slot.retire_dpc (t : Slot) (n L now : Nat) : (t.retire n L now).dpc = t.dpc := Slot.advance_dpc t n
@[simp] theorem Slot.retire_dscratch0 (t : Slot) (n L now : Nat) : (t.retire n L now).dscratch0 = t.dscratch0 := Slot.advance_dscratch0 t n
@[simp] theorem Slot.retire_skip (t : Slot) (n L now : Nat) : (t.retire n L now).skip = t.skip := Slot.advance_skip t n
@[simp] theorem Slot.retire_skipS (t : Slot) (n L now : Nat) : (t.retire n L now).skipS = t.skipS := Slot.advance_skipS t n
@[simp] theorem Slot.retire_refusal (t : Slot) (n L now : Nat) : (t.retire n L now).refusal = t.refusal := Slot.advance_refusal t n
@[simp] theorem Slot.retire_nextWid (t : Slot) (n L now : Nat) : (t.retire n L now).nextWid = t.nextWid := Slot.advance_nextWid t n
@[simp] theorem Slot.retire_closedAt (t : Slot) (n L now : Nat) : (t.retire n L now).closedAt = t.closedAt := Slot.advance_closedAt t n
@[simp] theorem Slot.retire_closedDst (t : Slot) (n L now : Nat) : (t.retire n L now).closedDst = t.closedDst := Slot.advance_closedDst t n
@[simp] theorem Slot.retire_sync (t : Slot) (n L now : Nat) : (t.retire n L now).sync = t.sync := Slot.advance_sync t n
@[simp] theorem Slot.retire_dfs (t : Slot) (n L now : Nat) : (t.retire n L now).dfs = t.dfs := Slot.advance_dfs t n
@[simp] theorem Slot.retire_wdPend (t : Slot) (n L now : Nat) : (t.retire n L now).wdPend = t.wdPend := Slot.advance_wdPend t n
@[simp] theorem Slot.retire_wdDue (t : Slot) (n L now : Nat) : (t.retire n L now).wdDue = t.wdDue := Slot.advance_wdDue t n
@[simp] theorem Slot.retire_wdr (t : Slot) (n L now : Nat) : (t.retire n L now).wdr = t.wdr := Slot.advance_wdr t n
@[simp] theorem Slot.retire_wdAddr (t : Slot) (n L now : Nat) : (t.retire n L now).wdAddr = t.wdAddr := Slot.advance_wdAddr t n
@[simp] theorem Slot.retire_wdPost (t : Slot) (n L now : Nat) : (t.retire n L now).wdPost = t.wdPost := Slot.advance_wdPost t n
@[simp] theorem Slot.retire_tdPost (t : Slot) (n L now : Nat) : (t.retire n L now).tdPost = t.tdPost := Slot.advance_tdPost t n
@[simp] theorem Slot.retire_tmDue (t : Slot) (n L now : Nat) : (t.retire n L now).tmDue = t.tmDue := Slot.advance_tmDue t n
@[simp] theorem Slot.retire_age (t : Slot) (n L now : Nat) : (t.retire n L now).age = t.age := Slot.advance_age t n
@[simp] theorem Slot.retire_yieldFor (t : Slot) (n L now : Nat) : (t.retire n L now).yieldFor = t.yieldFor := Slot.advance_yieldFor t n
@[simp] theorem Slot.retire_yieldUntil (t : Slot) (n L now : Nat) : (t.retire n L now).yieldUntil = t.yieldUntil := Slot.advance_yieldUntil t n
@[simp] theorem Slot.retire_stepping (t : Slot) (n L now : Nat) : (t.retire n L now).stepping = t.stepping := Slot.advance_stepping t n
@[simp] theorem Slot.retire_startFault (t : Slot) (n L now : Nat) : (t.retire n L now).startFault = t.startFault := Slot.advance_startFault t n
@[simp] theorem Slot.retire_evset (t : Slot) (n L now : Nat) : (t.retire n L now).evset = t.evset := Slot.advance_evset t n
@[simp] theorem Slot.retire_merr (t : Slot) (n L now : Nat) : (t.retire n L now).merr = t.merr := Slot.advance_merr t n
@[simp] theorem Slot.retire_mflags (t : Slot) (n L now : Nat) : (t.retire n L now).mflags = t.mflags := Slot.advance_mflags t n
@[simp] theorem Slot.retire_taken (t : Slot) (n L now : Nat) : (t.retire n L now).taken = t.taken := Slot.advance_taken t n
@[simp] theorem Slot.retire_recs (t : Slot) (n L now : Nat) : (t.retire n L now).recs = t.recs := Slot.advance_recs t n
@[simp] theorem Slot.retire_dFromS (t : Slot) (n L now : Nat) : (t.retire n L now).dFromS = t.dFromS := Slot.advance_dFromS t n
@[simp] theorem Slot.retire_dRpt (t : Slot) (n L now : Nat) : (t.retire n L now).dRpt = t.dRpt := Slot.advance_dRpt t n
@[simp] theorem Slot.retire_dSkip (t : Slot) (n L now : Nat) : (t.retire n L now).dSkip = t.dSkip := Slot.advance_dSkip t n
@[simp] theorem Slot.retire_dHold (t : Slot) (n L now : Nat) : (t.retire n L now).dHold = t.dHold := Slot.advance_dHold t n
@[simp] theorem Slot.retire_dErr (t : Slot) (n L now : Nat) : (t.retire n L now).dErr = t.dErr := Slot.advance_dErr t n
@[simp] theorem Slot.retire_desc (t : Slot) (n L now : Nat) : (t.retire n L now).desc = t.desc := Slot.advance_desc t n
@[simp] theorem Slot.retire_restartable (t : Slot) (n L now : Nat) : (t.retire n L now).restartable = t.restartable := Slot.advance_restartable t n
@[simp] theorem Slot.retire_cbuf (t : Slot) (n L now : Nat) : (t.retire n L now).cbuf = t.cbuf := Slot.advance_cbuf t n
@[simp] theorem Slot.retire_cbufUsed (t : Slot) (n L now : Nat) : (t.retire n L now).cbufUsed = t.cbufUsed := Slot.advance_cbufUsed t n
@[simp] theorem Slot.retire_nrSeen (t : Slot) (n L now : Nat) : (t.retire n L now).nrSeen = t.nrSeen := Slot.advance_nrSeen t n
@[simp] theorem Slot.retire_pbPos (t : Slot) (n L now : Nat) : (t.retire n L now).pbPos = t.pbPos := Slot.advance_pbPos t n
@[simp] theorem Slot.retire_args (t : Slot) (n L now : Nat) : (t.retire n L now).args = t.args := Slot.advance_args t n

@[simp] theorem Slot.jump_occ (t : Slot) (w : Word) (now : Nat) : (t.jump w now).occ = t.occ := rfl
@[simp] theorem Slot.jump_wasFree (t : Slot) (w : Word) (now : Nat) : (t.jump w now).wasFree = t.wasFree := rfl
@[simp] theorem Slot.jump_cls (t : Slot) (w : Word) (now : Nat) : (t.jump w now).cls = t.cls := rfl
@[simp] theorem Slot.jump_stopReq (t : Slot) (w : Word) (now : Nat) : (t.jump w now).stopReq = t.stopReq := rfl
@[simp] theorem Slot.jump_stopped (t : Slot) (w : Word) (now : Nat) : (t.jump w now).stopped = t.stopped := rfl
@[simp] theorem Slot.jump_haltReq (t : Slot) (w : Word) (now : Nat) : (t.jump w now).haltReq = t.haltReq := rfl
@[simp] theorem Slot.jump_halted (t : Slot) (w : Word) (now : Nat) : (t.jump w now).halted = t.halted := rfl
@[simp] theorem Slot.jump_mode (t : Slot) (w : Word) (now : Nat) : (t.jump w now).mode = t.mode := rfl
@[simp] theorem Slot.jump_x (t : Slot) (w : Word) (now : Nat) : (t.jump w now).x = t.x := rfl
@[simp] theorem Slot.jump_c (t : Slot) (w : Word) (now : Nat) : (t.jump w now).c = t.c := rfl
@[simp] theorem Slot.jump_c15s (t : Slot) (w : Word) (now : Nat) : (t.jump w now).c15s = t.c15s := rfl
@[simp] theorem Slot.jump_v (t : Slot) (w : Word) (now : Nat) : (t.jump w now).v = t.v := rfl
@[simp] theorem Slot.jump_badv (t : Slot) (w : Word) (now : Nat) : (t.jump w now).badv = t.badv := rfl
@[simp] theorem Slot.jump_m (t : Slot) (w : Word) (now : Nat) : (t.jump w now).m = t.m := rfl
@[simp] theorem Slot.jump_fmode (t : Slot) (w : Word) (now : Nat) : (t.jump w now).fmode = t.fmode := rfl
@[simp] theorem Slot.jump_flagNow (t : Slot) (w : Word) (now : Nat) : (t.jump w now).flagNow = t.flagNow := rfl
@[simp] theorem Slot.jump_mxcfg (t : Slot) (w : Word) (now : Nat) : (t.jump w now).mxcfg = t.mxcfg := rfl
@[simp] theorem Slot.jump_wlim (t : Slot) (w : Word) (now : Nat) : (t.jump w now).wlim = t.wlim := rfl
@[simp] theorem Slot.jump_lkey (t : Slot) (w : Word) (now : Nat) : (t.jump w now).lkey = t.lkey := rfl
@[simp] theorem Slot.jump_tvec (t : Slot) (w : Word) (now : Nat) : (t.jump w now).tvec = t.tvec := rfl
@[simp] theorem Slot.jump_trpc (t : Slot) (w : Word) (now : Nat) : (t.jump w now).trpc = t.trpc := rfl
@[simp] theorem Slot.jump_tcause (t : Slot) (w : Word) (now : Nat) : (t.jump w now).tcause = t.tcause := rfl
@[simp] theorem Slot.jump_tval (t : Slot) (w : Word) (now : Nat) : (t.jump w now).tval = t.tval := rfl
@[simp] theorem Slot.jump_tstat (t : Slot) (w : Word) (now : Nat) : (t.jump w now).tstat = t.tstat := rfl
@[simp] theorem Slot.jump_tscratch (t : Slot) (w : Word) (now : Nat) : (t.jump w now).tscratch = t.tscratch := rfl
@[simp] theorem Slot.jump_wdog (t : Slot) (w : Word) (now : Nat) : (t.jump w now).wdog = t.wdog := rfl
@[simp] theorem Slot.jump_tie (t : Slot) (w : Word) (now : Nat) : (t.jump w now).tie = t.tie := rfl
@[simp] theorem Slot.jump_tip (t : Slot) (w : Word) (now : Nat) : (t.jump w now).tip = t.tip := rfl
@[simp] theorem Slot.jump_tipNow (t : Slot) (w : Word) (now : Nat) : (t.jump w now).tipNow = t.tipNow := rfl
@[simp] theorem Slot.jump_dcsr (t : Slot) (w : Word) (now : Nat) : (t.jump w now).dcsr = t.dcsr := rfl
@[simp] theorem Slot.jump_dpc (t : Slot) (w : Word) (now : Nat) : (t.jump w now).dpc = t.dpc := rfl
@[simp] theorem Slot.jump_dscratch0 (t : Slot) (w : Word) (now : Nat) : (t.jump w now).dscratch0 = t.dscratch0 := rfl
@[simp] theorem Slot.jump_skip (t : Slot) (w : Word) (now : Nat) : (t.jump w now).skip = t.skip := rfl
@[simp] theorem Slot.jump_skipS (t : Slot) (w : Word) (now : Nat) : (t.jump w now).skipS = t.skipS := rfl
@[simp] theorem Slot.jump_refusal (t : Slot) (w : Word) (now : Nat) : (t.jump w now).refusal = t.refusal := rfl
@[simp] theorem Slot.jump_nextWid (t : Slot) (w : Word) (now : Nat) : (t.jump w now).nextWid = t.nextWid := rfl
@[simp] theorem Slot.jump_closedAt (t : Slot) (w : Word) (now : Nat) : (t.jump w now).closedAt = t.closedAt := rfl
@[simp] theorem Slot.jump_closedDst (t : Slot) (w : Word) (now : Nat) : (t.jump w now).closedDst = t.closedDst := rfl
@[simp] theorem Slot.jump_sync (t : Slot) (w : Word) (now : Nat) : (t.jump w now).sync = t.sync := rfl
@[simp] theorem Slot.jump_dfs (t : Slot) (w : Word) (now : Nat) : (t.jump w now).dfs = t.dfs := rfl
@[simp] theorem Slot.jump_wdPend (t : Slot) (w : Word) (now : Nat) : (t.jump w now).wdPend = t.wdPend := rfl
@[simp] theorem Slot.jump_wdDue (t : Slot) (w : Word) (now : Nat) : (t.jump w now).wdDue = t.wdDue := rfl
@[simp] theorem Slot.jump_wdr (t : Slot) (w : Word) (now : Nat) : (t.jump w now).wdr = t.wdr := rfl
@[simp] theorem Slot.jump_wdAddr (t : Slot) (w : Word) (now : Nat) : (t.jump w now).wdAddr = t.wdAddr := rfl
@[simp] theorem Slot.jump_wdPost (t : Slot) (w : Word) (now : Nat) : (t.jump w now).wdPost = t.wdPost := rfl
@[simp] theorem Slot.jump_tdPost (t : Slot) (w : Word) (now : Nat) : (t.jump w now).tdPost = t.tdPost := rfl
@[simp] theorem Slot.jump_tmDue (t : Slot) (w : Word) (now : Nat) : (t.jump w now).tmDue = t.tmDue := rfl
@[simp] theorem Slot.jump_age (t : Slot) (w : Word) (now : Nat) : (t.jump w now).age = t.age := rfl
@[simp] theorem Slot.jump_yieldFor (t : Slot) (w : Word) (now : Nat) : (t.jump w now).yieldFor = t.yieldFor := rfl
@[simp] theorem Slot.jump_yieldUntil (t : Slot) (w : Word) (now : Nat) : (t.jump w now).yieldUntil = t.yieldUntil := rfl
@[simp] theorem Slot.jump_stepping (t : Slot) (w : Word) (now : Nat) : (t.jump w now).stepping = t.stepping := rfl
@[simp] theorem Slot.jump_startFault (t : Slot) (w : Word) (now : Nat) : (t.jump w now).startFault = t.startFault := rfl
@[simp] theorem Slot.jump_evset (t : Slot) (w : Word) (now : Nat) : (t.jump w now).evset = t.evset := rfl
@[simp] theorem Slot.jump_merr (t : Slot) (w : Word) (now : Nat) : (t.jump w now).merr = t.merr := rfl
@[simp] theorem Slot.jump_mflags (t : Slot) (w : Word) (now : Nat) : (t.jump w now).mflags = t.mflags := rfl
@[simp] theorem Slot.jump_taken (t : Slot) (w : Word) (now : Nat) : (t.jump w now).taken = t.taken := rfl
@[simp] theorem Slot.jump_recs (t : Slot) (w : Word) (now : Nat) : (t.jump w now).recs = t.recs := rfl
@[simp] theorem Slot.jump_dFromS (t : Slot) (w : Word) (now : Nat) : (t.jump w now).dFromS = t.dFromS := rfl
@[simp] theorem Slot.jump_dRpt (t : Slot) (w : Word) (now : Nat) : (t.jump w now).dRpt = t.dRpt := rfl
@[simp] theorem Slot.jump_dSkip (t : Slot) (w : Word) (now : Nat) : (t.jump w now).dSkip = t.dSkip := rfl
@[simp] theorem Slot.jump_dHold (t : Slot) (w : Word) (now : Nat) : (t.jump w now).dHold = t.dHold := rfl
@[simp] theorem Slot.jump_dErr (t : Slot) (w : Word) (now : Nat) : (t.jump w now).dErr = t.dErr := rfl
@[simp] theorem Slot.jump_desc (t : Slot) (w : Word) (now : Nat) : (t.jump w now).desc = t.desc := rfl
@[simp] theorem Slot.jump_restartable (t : Slot) (w : Word) (now : Nat) : (t.jump w now).restartable = t.restartable := rfl
@[simp] theorem Slot.jump_cbuf (t : Slot) (w : Word) (now : Nat) : (t.jump w now).cbuf = t.cbuf := rfl
@[simp] theorem Slot.jump_cbufUsed (t : Slot) (w : Word) (now : Nat) : (t.jump w now).cbufUsed = t.cbufUsed := rfl
@[simp] theorem Slot.jump_nrSeen (t : Slot) (w : Word) (now : Nat) : (t.jump w now).nrSeen = t.nrSeen := rfl
@[simp] theorem Slot.jump_pbPos (t : Slot) (w : Word) (now : Nat) : (t.jump w now).pbPos = t.pbPos := rfl
@[simp] theorem Slot.jump_args (t : Slot) (w : Word) (now : Nat) : (t.jump w now).args = t.args := rfl
@[simp] theorem Slot.getX_retire (t : Slot) (n L now j : Nat) : (t.retire n L now).getX j = t.getX j := by unfold Slot.getX; simp
@[simp] theorem Slot.getX_jump (t : Slot) (w : Word) (now j : Nat) : (t.jump w now).getX j = t.getX j := rfl
@[simp] theorem Slot.getV_retire (t : Slot) (n L now j : Nat) : (t.retire n L now).getV j = t.getV j := by unfold Slot.getV; simp
@[simp] theorem Slot.getV_jump (t : Slot) (w : Word) (now j : Nat) : (t.jump w now).getV j = t.getV j := rfl
@[simp] theorem Slot.getM_retire (t : Slot) (n L now j : Nat) : (t.retire n L now).getM j = t.getM j := by unfold Slot.getM; simp
@[simp] theorem Slot.getM_jump (t : Slot) (w : Word) (now j : Nat) : (t.jump w now).getM j = t.getM j := rfl
@[simp] theorem Slot.getC_retire (t : Slot) (n L now j : Nat) : (t.retire n L now).getC j = t.getC j := by unfold Slot.getC Slot.c15isS; simp
@[simp] theorem Slot.getC_jump (t : Slot) (w : Word) (now j : Nat) : (t.jump w now).getC j = t.getC j := rfl
@[simp] theorem Slot.retire_instret (t : Slot) (n L now : Nat) : (t.retire n L now).instret = t.instret + 1 := rfl
@[simp] theorem Slot.jump_instret (t : Slot) (w : Word) (now : Nat) : (t.jump w now).instret = t.instret + 1 := rfl
@[simp] theorem Slot.jump_pc (t : Slot) (w : Word) (now : Nat) : (t.jump w now).pc = w := rfl
@[simp] theorem Slot.retire_pc (t : Slot) (n L now : Nat) : (t.retire n L now).pc = (t.advance n).pc := rfl
@[simp] theorem Slot.retire_nextAt (t : Slot) (n L now : Nat) : (t.retire n L now).nextAt = now + L := rfl
@[simp] theorem Slot.retire_hold (t : Slot) (n L now : Nat) : (t.retire n L now).hold = none := rfl

/-- What an instruction that only changes its strand's registers answers. -/
theorem State.finish_eq (s : State) (f : Slot → Slot) (L : Nat) : s.finish f L = .next (s.putSlot s.cur ((f s.me).retire 4 L s.cycle)) := rfl
theorem State.finishX_eq (s : State) (d : Nat) (w : Word) (L : Nat) :
    s.finishX d w L = .next (s.putSlot s.cur ((s.me.setX d w).retire 4 L s.cycle)) := rfl

end Sys2Proof.Machine
end

