-- ==== Sys2Proof/Laws/Local.lean ====
section
/-! SUPPORT. What the shared operations that complete an instruction do, in the terms of Safety. -/
namespace Sys2Proof.Machine

theorem slot_put_me (s : State) (t : Slot) : (s.putSlot s.cur t).me = t := sget_sput_self ({} : Slot) s.slots s.cur t
theorem onlyMe_putSlot (s : State) (t : Slot) : OnlyMe s (s.putSlot s.cur t) :=
  ⟨rfl, fun k h => by simp [h]⟩
theorem OnlyMe.sameMem {s t : State} (h : OnlyMe s t) : SameMem s t := fun a => by rw [h.1]

/-- Retiring, where `f` changes registers only. -/
theorem local_retire (s : State) (u : Slot) (len L : Nat)
    (h : SameSpecials s (s.putSlot s.cur (u.retire len L s.cycle))) (hi : u.instret = s.me.instret)
    (hp : s.me.rptLive = false → u.rptLive = false ∧ u.pc = s.me.pc) : Local s (s.putSlot s.cur (u.retire len L s.cycle)) len := by
  refine ⟨onlyMe_putSlot _ _, (onlyMe_putSlot _ _).sameMem, h, ?_, fun hr => ?_⟩
  · rw [slot_put_me, Slot.retire_instret, hi]
  · rw [slot_put_me, Slot.retire_pc, Slot.advance_pc _ _ (hp hr).1, (hp hr).2]

/-- An instruction that completes by writing x[d]. -/
theorem finishX_localX (s : State) (d : Nat) (w : Word) (L : Nat) :
    ∃ t, s.finishX d w L = .next t ∧ LocalX s t d w ∧ t.me.nextAt = s.cycle + L := by
  refine ⟨_, State.finishX_eq s d w L, ⟨local_retire s _ 4 L ?_ (by simp) (by simp +contextual), ?_, ?_, ?_, ?_, ?_⟩, ?_⟩
  · refine ⟨?_, ?_, ?_, ?_, ?_, ?_, ?_, ?_, ?_, ?_, ?_, ?_, ?_, ?_, ?_, ?_, ?_, ?_, ?_⟩
    all_goals first
      | (rw [slot_put_me]; simp; done)
      | (intro h; rw [slot_put_me]; show ((s.me.setX d w).advance 4).rptc = _; simp [Slot.advance_pc, h])
  · intro n; simp only [State.x, slot_put_me]; simp
  · exact ⟨fun n => by simp only [State.c, slot_put_me]; simp, by rw [slot_put_me]; simp, by rw [slot_put_me]; simp⟩
  · exact ⟨fun n => by rw [slot_put_me]; simp, by rw [slot_put_me]; simp⟩
  · intro n; rw [slot_put_me]; simp
  · show (State.me _).fmode = _; rw [slot_put_me]; simp
  · rw [slot_put_me]; simp

end Sys2Proof.Machine
end

