-- ==== Sys2Proof/Laws/PerInstr.lean ====
section
/-! SUPPORT. A statement about every instruction as syntax: the word of a well-formed instruction fits its length (02 R25). One
lemma for each constructor. -/
namespace Sys2Proof.Laws.WellFormedBits
open Sys2Proof Sys2Proof.Machine
set_option linter.unusedSimpArgs false
set_option Elab.async false

/-- The word of a well-formed instruction: 32 bits that end in 11, or 16 bits that end in 10 (02 R25, R39). -/
def Statement (i : Instr) : Prop :=
  wf i = true → ∀ w, encode i = some w → (w < 2 ^ 32 ∧ w % 4 = 3) ∨ (w < 2 ^ 16 ∧ w % 4 = 2)

/-- An event has no word. -/
theorem of_none {i : Instr} (h : encode i = none) : Statement i := fun _ w e => by rw [h] at e; cases e
/-- From the ranges of the operands to the word. -/
theorem of_word {i : Instr} {n : Nat} {b : Bool} (hw : wf i = b) (hn : encode i = some n)
    (k : b = true → (n < 2 ^ 32 ∧ n % 4 = 3) ∨ (n < 2 ^ 16 ∧ n % 4 = 2)) : Statement i := fun h w e => by
  rw [hn] at e; cases e; exact k (hw ▸ h)

theorem lui (d imm : Nat) : Statement (.lui d imm) := @of_word (.lui d imm) ((encU 55 imm d)) (xr d && imm < 2 ^ 20) rfl rfl fun h => by
  simp only [encU]
  simp only [xr, Bool.and_eq_true, Bool.or_eq_true, decide_eq_true_eq, beq_iff_eq] at h
  omega
theorem auipc (d imm : Nat) : Statement (.auipc d imm) := @of_word (.auipc d imm) ((encU 23 imm d)) (xr d && imm < 2 ^ 20) rfl rfl fun h => by
  simp only [encU]
  simp only [xr, Bool.and_eq_true, Bool.or_eq_true, decide_eq_true_eq, beq_iff_eq] at h
  omega
theorem jal (d off : Nat) : Statement (.jal d off) := @of_word (.jal d off) ((encJ off d)) (xr d && even off && off < 2 ^ 21) rfl rfl fun h => by
  simp only [encJ, bits]
  simp only [xr, even, Bool.and_eq_true, Bool.or_eq_true, decide_eq_true_eq, beq_iff_eq] at h
  omega
theorem jalr (d a imm : Nat) : Statement (.jalr d a imm) := @of_word (.jalr d a imm) ((encI 103 0 d a imm)) (xr d && xr a && imm < 2 ^ 12) rfl rfl fun h => by
  simp only [encI]
  simp only [xr, Bool.and_eq_true, Bool.or_eq_true, decide_eq_true_eq, beq_iff_eq] at h
  omega
theorem beq (a b off : Nat) : Statement (.beq a b off) := @of_word (.beq a b off) ((encB 0 a b off)) (xr a && xr b && even off && off < 2 ^ 13) rfl rfl fun h => by
  simp only [encB, bits]
  simp only [xr, even, Bool.and_eq_true, Bool.or_eq_true, decide_eq_true_eq, beq_iff_eq] at h
  omega
theorem bne (a b off : Nat) : Statement (.bne a b off) := @of_word (.bne a b off) ((encB 1 a b off)) (xr a && xr b && even off && off < 2 ^ 13) rfl rfl fun h => by
  simp only [encB, bits]
  simp only [xr, even, Bool.and_eq_true, Bool.or_eq_true, decide_eq_true_eq, beq_iff_eq] at h
  omega
theorem blt (a b off : Nat) : Statement (.blt a b off) := @of_word (.blt a b off) ((encB 4 a b off)) (xr a && xr b && even off && off < 2 ^ 13) rfl rfl fun h => by
  simp only [encB, bits]
  simp only [xr, even, Bool.and_eq_true, Bool.or_eq_true, decide_eq_true_eq, beq_iff_eq] at h
  omega
theorem bge (a b off : Nat) : Statement (.bge a b off) := @of_word (.bge a b off) ((encB 5 a b off)) (xr a && xr b && even off && off < 2 ^ 13) rfl rfl fun h => by
  simp only [encB, bits]
  simp only [xr, even, Bool.and_eq_true, Bool.or_eq_true, decide_eq_true_eq, beq_iff_eq] at h
  omega
theorem bltu (a b off : Nat) : Statement (.bltu a b off) := @of_word (.bltu a b off) ((encB 6 a b off)) (xr a && xr b && even off && off < 2 ^ 13) rfl rfl fun h => by
  simp only [encB, bits]
  simp only [xr, even, Bool.and_eq_true, Bool.or_eq_true, decide_eq_true_eq, beq_iff_eq] at h
  omega
theorem bgeu (a b off : Nat) : Statement (.bgeu a b off) := @of_word (.bgeu a b off) ((encB 7 a b off)) (xr a && xr b && even off && off < 2 ^ 13) rfl rfl fun h => by
  simp only [encB, bits]
  simp only [xr, even, Bool.and_eq_true, Bool.or_eq_true, decide_eq_true_eq, beq_iff_eq] at h
  omega
theorem addi (d a imm : Nat) : Statement (.addi d a imm) := @of_word (.addi d a imm) ((encI 19 0 d a imm)) (xr d && xr a && imm < 2 ^ 12) rfl rfl fun h => by
  simp only [encI]
  simp only [xr, Bool.and_eq_true, Bool.or_eq_true, decide_eq_true_eq, beq_iff_eq] at h
  omega
theorem slti (d a imm : Nat) : Statement (.slti d a imm) := @of_word (.slti d a imm) ((encI 19 2 d a imm)) (xr d && xr a && imm < 2 ^ 12) rfl rfl fun h => by
  simp only [encI]
  simp only [xr, Bool.and_eq_true, Bool.or_eq_true, decide_eq_true_eq, beq_iff_eq] at h
  omega
theorem sltiu (d a imm : Nat) : Statement (.sltiu d a imm) := @of_word (.sltiu d a imm) ((encI 19 3 d a imm)) (xr d && xr a && imm < 2 ^ 12) rfl rfl fun h => by
  simp only [encI]
  simp only [xr, Bool.and_eq_true, Bool.or_eq_true, decide_eq_true_eq, beq_iff_eq] at h
  omega
theorem xori (d a imm : Nat) : Statement (.xori d a imm) := @of_word (.xori d a imm) ((encI 19 4 d a imm)) (xr d && xr a && imm < 2 ^ 12) rfl rfl fun h => by
  simp only [encI]
  simp only [xr, Bool.and_eq_true, Bool.or_eq_true, decide_eq_true_eq, beq_iff_eq] at h
  omega
theorem ori (d a imm : Nat) : Statement (.ori d a imm) := @of_word (.ori d a imm) ((encI 19 6 d a imm)) (xr d && xr a && imm < 2 ^ 12) rfl rfl fun h => by
  simp only [encI]
  simp only [xr, Bool.and_eq_true, Bool.or_eq_true, decide_eq_true_eq, beq_iff_eq] at h
  omega
theorem andi (d a imm : Nat) : Statement (.andi d a imm) := @of_word (.andi d a imm) ((encI 19 7 d a imm)) (xr d && xr a && imm < 2 ^ 12) rfl rfl fun h => by
  simp only [encI]
  simp only [xr, Bool.and_eq_true, Bool.or_eq_true, decide_eq_true_eq, beq_iff_eq] at h
  omega
theorem slli (d a sh : Nat) : Statement (.slli d a sh) := @of_word (.slli d a sh) ((encI 19 1 d a (0 + sh))) (xr d && xr a && sh < 64) rfl rfl fun h => by
  simp only [encI]
  simp only [xr, Bool.and_eq_true, Bool.or_eq_true, decide_eq_true_eq, beq_iff_eq] at h
  omega
theorem srli (d a sh : Nat) : Statement (.srli d a sh) := @of_word (.srli d a sh) ((encI 19 5 d a (0 + sh))) (xr d && xr a && sh < 64) rfl rfl fun h => by
  simp only [encI]
  simp only [xr, Bool.and_eq_true, Bool.or_eq_true, decide_eq_true_eq, beq_iff_eq] at h
  omega
theorem srai (d a sh : Nat) : Statement (.srai d a sh) := @of_word (.srai d a sh) ((encI 19 5 d a (1024 + sh))) (xr d && xr a && sh < 64) rfl rfl fun h => by
  simp only [encI]
  simp only [xr, Bool.and_eq_true, Bool.or_eq_true, decide_eq_true_eq, beq_iff_eq] at h
  omega
theorem clz (d a : Nat) : Statement (.clz d a) := @of_word (.clz d a) ((encI 19 1 d a 1536)) (xr d && xr a) rfl rfl fun h => by
  simp only [encI]
  simp only [xr, Bool.and_eq_true, Bool.or_eq_true, decide_eq_true_eq, beq_iff_eq] at h
  omega
theorem ctz (d a : Nat) : Statement (.ctz d a) := @of_word (.ctz d a) ((encI 19 1 d a 1537)) (xr d && xr a) rfl rfl fun h => by
  simp only [encI]
  simp only [xr, Bool.and_eq_true, Bool.or_eq_true, decide_eq_true_eq, beq_iff_eq] at h
  omega
theorem cpop (d a : Nat) : Statement (.cpop d a) := @of_word (.cpop d a) ((encI 19 1 d a 1538)) (xr d && xr a) rfl rfl fun h => by
  simp only [encI]
  simp only [xr, Bool.and_eq_true, Bool.or_eq_true, decide_eq_true_eq, beq_iff_eq] at h
  omega
theorem add (d a b : Nat) : Statement (.add d a b) := @of_word (.add d a b) ((encR 51 0 0 d a b)) (xr d && xr a && xr b) rfl rfl fun h => by
  simp only [encR]
  simp only [xr, Bool.and_eq_true, Bool.or_eq_true, decide_eq_true_eq, beq_iff_eq] at h
  omega
theorem sub (d a b : Nat) : Statement (.sub d a b) := @of_word (.sub d a b) ((encR 51 0 32 d a b)) (xr d && xr a && xr b) rfl rfl fun h => by
  simp only [encR]
  simp only [xr, Bool.and_eq_true, Bool.or_eq_true, decide_eq_true_eq, beq_iff_eq] at h
  omega
theorem sll (d a b : Nat) : Statement (.sll d a b) := @of_word (.sll d a b) ((encR 51 1 0 d a b)) (xr d && xr a && xr b) rfl rfl fun h => by
  simp only [encR]
  simp only [xr, Bool.and_eq_true, Bool.or_eq_true, decide_eq_true_eq, beq_iff_eq] at h
  omega
theorem slt (d a b : Nat) : Statement (.slt d a b) := @of_word (.slt d a b) ((encR 51 2 0 d a b)) (xr d && xr a && xr b) rfl rfl fun h => by
  simp only [encR]
  simp only [xr, Bool.and_eq_true, Bool.or_eq_true, decide_eq_true_eq, beq_iff_eq] at h
  omega
theorem sltu (d a b : Nat) : Statement (.sltu d a b) := @of_word (.sltu d a b) ((encR 51 3 0 d a b)) (xr d && xr a && xr b) rfl rfl fun h => by
  simp only [encR]
  simp only [xr, Bool.and_eq_true, Bool.or_eq_true, decide_eq_true_eq, beq_iff_eq] at h
  omega
theorem xor (d a b : Nat) : Statement (.xor d a b) := @of_word (.xor d a b) ((encR 51 4 0 d a b)) (xr d && xr a && xr b) rfl rfl fun h => by
  simp only [encR]
  simp only [xr, Bool.and_eq_true, Bool.or_eq_true, decide_eq_true_eq, beq_iff_eq] at h
  omega
theorem srl (d a b : Nat) : Statement (.srl d a b) := @of_word (.srl d a b) ((encR 51 5 0 d a b)) (xr d && xr a && xr b) rfl rfl fun h => by
  simp only [encR]
  simp only [xr, Bool.and_eq_true, Bool.or_eq_true, decide_eq_true_eq, beq_iff_eq] at h
  omega
theorem sra (d a b : Nat) : Statement (.sra d a b) := @of_word (.sra d a b) ((encR 51 5 32 d a b)) (xr d && xr a && xr b) rfl rfl fun h => by
  simp only [encR]
  simp only [xr, Bool.and_eq_true, Bool.or_eq_true, decide_eq_true_eq, beq_iff_eq] at h
  omega
theorem or (d a b : Nat) : Statement (.or d a b) := @of_word (.or d a b) ((encR 51 6 0 d a b)) (xr d && xr a && xr b) rfl rfl fun h => by
  simp only [encR]
  simp only [xr, Bool.and_eq_true, Bool.or_eq_true, decide_eq_true_eq, beq_iff_eq] at h
  omega
theorem and (d a b : Nat) : Statement (.and d a b) := @of_word (.and d a b) ((encR 51 7 0 d a b)) (xr d && xr a && xr b) rfl rfl fun h => by
  simp only [encR]
  simp only [xr, Bool.and_eq_true, Bool.or_eq_true, decide_eq_true_eq, beq_iff_eq] at h
  omega
theorem orn (d a b : Nat) : Statement (.orn d a b) := @of_word (.orn d a b) ((encR 51 6 32 d a b)) (xr d && xr a && xr b) rfl rfl fun h => by
  simp only [encR]
  simp only [xr, Bool.and_eq_true, Bool.or_eq_true, decide_eq_true_eq, beq_iff_eq] at h
  omega
theorem andn (d a b : Nat) : Statement (.andn d a b) := @of_word (.andn d a b) ((encR 51 7 32 d a b)) (xr d && xr a && xr b) rfl rfl fun h => by
  simp only [encR]
  simp only [xr, Bool.and_eq_true, Bool.or_eq_true, decide_eq_true_eq, beq_iff_eq] at h
  omega
theorem mul (d a b : Nat) : Statement (.mul d a b) := @of_word (.mul d a b) ((encR 51 0 1 d a b)) (xr d && xr a && xr b) rfl rfl fun h => by
  simp only [encR]
  simp only [xr, Bool.and_eq_true, Bool.or_eq_true, decide_eq_true_eq, beq_iff_eq] at h
  omega
theorem mulh (d a b : Nat) : Statement (.mulh d a b) := @of_word (.mulh d a b) ((encR 51 1 1 d a b)) (xr d && xr a && xr b) rfl rfl fun h => by
  simp only [encR]
  simp only [xr, Bool.and_eq_true, Bool.or_eq_true, decide_eq_true_eq, beq_iff_eq] at h
  omega
theorem mulhsu (d a b : Nat) : Statement (.mulhsu d a b) := @of_word (.mulhsu d a b) ((encR 51 2 1 d a b)) (xr d && xr a && xr b) rfl rfl fun h => by
  simp only [encR]
  simp only [xr, Bool.and_eq_true, Bool.or_eq_true, decide_eq_true_eq, beq_iff_eq] at h
  omega
theorem mulhu (d a b : Nat) : Statement (.mulhu d a b) := @of_word (.mulhu d a b) ((encR 51 3 1 d a b)) (xr d && xr a && xr b) rfl rfl fun h => by
  simp only [encR]
  simp only [xr, Bool.and_eq_true, Bool.or_eq_true, decide_eq_true_eq, beq_iff_eq] at h
  omega
theorem div (d a b : Nat) : Statement (.div d a b) := @of_word (.div d a b) ((encR 51 4 1 d a b)) (xr d && xr a && xr b) rfl rfl fun h => by
  simp only [encR]
  simp only [xr, Bool.and_eq_true, Bool.or_eq_true, decide_eq_true_eq, beq_iff_eq] at h
  omega
theorem divu (d a b : Nat) : Statement (.divu d a b) := @of_word (.divu d a b) ((encR 51 5 1 d a b)) (xr d && xr a && xr b) rfl rfl fun h => by
  simp only [encR]
  simp only [xr, Bool.and_eq_true, Bool.or_eq_true, decide_eq_true_eq, beq_iff_eq] at h
  omega
theorem rem (d a b : Nat) : Statement (.rem d a b) := @of_word (.rem d a b) ((encR 51 6 1 d a b)) (xr d && xr a && xr b) rfl rfl fun h => by
  simp only [encR]
  simp only [xr, Bool.and_eq_true, Bool.or_eq_true, decide_eq_true_eq, beq_iff_eq] at h
  omega
theorem remu (d a b : Nat) : Statement (.remu d a b) := @of_word (.remu d a b) ((encR 51 7 1 d a b)) (xr d && xr a && xr b) rfl rfl fun h => by
  simp only [encR]
  simp only [xr, Bool.and_eq_true, Bool.or_eq_true, decide_eq_true_eq, beq_iff_eq] at h
  omega
theorem sh1add (d a b : Nat) : Statement (.sh1add d a b) := @of_word (.sh1add d a b) ((encR 51 2 16 d a b)) (xr d && xr a && xr b) rfl rfl fun h => by
  simp only [encR]
  simp only [xr, Bool.and_eq_true, Bool.or_eq_true, decide_eq_true_eq, beq_iff_eq] at h
  omega
theorem sh2add (d a b : Nat) : Statement (.sh2add d a b) := @of_word (.sh2add d a b) ((encR 51 4 16 d a b)) (xr d && xr a && xr b) rfl rfl fun h => by
  simp only [encR]
  simp only [xr, Bool.and_eq_true, Bool.or_eq_true, decide_eq_true_eq, beq_iff_eq] at h
  omega
theorem sh3add (d a b : Nat) : Statement (.sh3add d a b) := @of_word (.sh3add d a b) ((encR 51 6 16 d a b)) (xr d && xr a && xr b) rfl rfl fun h => by
  simp only [encR]
  simp only [xr, Bool.and_eq_true, Bool.or_eq_true, decide_eq_true_eq, beq_iff_eq] at h
  omega
theorem min (d a b : Nat) : Statement (.min d a b) := @of_word (.min d a b) ((encR 51 4 5 d a b)) (xr d && xr a && xr b) rfl rfl fun h => by
  simp only [encR]
  simp only [xr, Bool.and_eq_true, Bool.or_eq_true, decide_eq_true_eq, beq_iff_eq] at h
  omega
theorem minu (d a b : Nat) : Statement (.minu d a b) := @of_word (.minu d a b) ((encR 51 5 5 d a b)) (xr d && xr a && xr b) rfl rfl fun h => by
  simp only [encR]
  simp only [xr, Bool.and_eq_true, Bool.or_eq_true, decide_eq_true_eq, beq_iff_eq] at h
  omega
theorem max (d a b : Nat) : Statement (.max d a b) := @of_word (.max d a b) ((encR 51 6 5 d a b)) (xr d && xr a && xr b) rfl rfl fun h => by
  simp only [encR]
  simp only [xr, Bool.and_eq_true, Bool.or_eq_true, decide_eq_true_eq, beq_iff_eq] at h
  omega
theorem maxu (d a b : Nat) : Statement (.maxu d a b) := @of_word (.maxu d a b) ((encR 51 7 5 d a b)) (xr d && xr a && xr b) rfl rfl fun h => by
  simp only [encR]
  simp only [xr, Bool.and_eq_true, Bool.or_eq_true, decide_eq_true_eq, beq_iff_eq] at h
  omega
theorem addiw (d a imm : Nat) : Statement (.addiw d a imm) := @of_word (.addiw d a imm) ((encI 27 0 d a imm)) (xr d && xr a && imm < 2 ^ 12) rfl rfl fun h => by
  simp only [encI]
  simp only [xr, Bool.and_eq_true, Bool.or_eq_true, decide_eq_true_eq, beq_iff_eq] at h
  omega
theorem slliw (d a sh : Nat) : Statement (.slliw d a sh) := @of_word (.slliw d a sh) ((encI 27 1 d a (0 + sh))) (xr d && xr a && sh < 32) rfl rfl fun h => by
  simp only [encI]
  simp only [xr, Bool.and_eq_true, Bool.or_eq_true, decide_eq_true_eq, beq_iff_eq] at h
  omega
theorem srliw (d a sh : Nat) : Statement (.srliw d a sh) := @of_word (.srliw d a sh) ((encI 27 5 d a (0 + sh))) (xr d && xr a && sh < 32) rfl rfl fun h => by
  simp only [encI]
  simp only [xr, Bool.and_eq_true, Bool.or_eq_true, decide_eq_true_eq, beq_iff_eq] at h
  omega
theorem sraiw (d a sh : Nat) : Statement (.sraiw d a sh) := @of_word (.sraiw d a sh) ((encI 27 5 d a (1024 + sh))) (xr d && xr a && sh < 32) rfl rfl fun h => by
  simp only [encI]
  simp only [xr, Bool.and_eq_true, Bool.or_eq_true, decide_eq_true_eq, beq_iff_eq] at h
  omega
theorem addw (d a b : Nat) : Statement (.addw d a b) := @of_word (.addw d a b) ((encR 59 0 0 d a b)) (xr d && xr a && xr b) rfl rfl fun h => by
  simp only [encR]
  simp only [xr, Bool.and_eq_true, Bool.or_eq_true, decide_eq_true_eq, beq_iff_eq] at h
  omega
theorem subw (d a b : Nat) : Statement (.subw d a b) := @of_word (.subw d a b) ((encR 59 0 32 d a b)) (xr d && xr a && xr b) rfl rfl fun h => by
  simp only [encR]
  simp only [xr, Bool.and_eq_true, Bool.or_eq_true, decide_eq_true_eq, beq_iff_eq] at h
  omega
theorem sllw (d a b : Nat) : Statement (.sllw d a b) := @of_word (.sllw d a b) ((encR 59 1 0 d a b)) (xr d && xr a && xr b) rfl rfl fun h => by
  simp only [encR]
  simp only [xr, Bool.and_eq_true, Bool.or_eq_true, decide_eq_true_eq, beq_iff_eq] at h
  omega
theorem srlw (d a b : Nat) : Statement (.srlw d a b) := @of_word (.srlw d a b) ((encR 59 5 0 d a b)) (xr d && xr a && xr b) rfl rfl fun h => by
  simp only [encR]
  simp only [xr, Bool.and_eq_true, Bool.or_eq_true, decide_eq_true_eq, beq_iff_eq] at h
  omega
theorem sraw (d a b : Nat) : Statement (.sraw d a b) := @of_word (.sraw d a b) ((encR 59 5 32 d a b)) (xr d && xr a && xr b) rfl rfl fun h => by
  simp only [encR]
  simp only [xr, Bool.and_eq_true, Bool.or_eq_true, decide_eq_true_eq, beq_iff_eq] at h
  omega
theorem mulw (d a b : Nat) : Statement (.mulw d a b) := @of_word (.mulw d a b) ((encR 59 0 1 d a b)) (xr d && xr a && xr b) rfl rfl fun h => by
  simp only [encR]
  simp only [xr, Bool.and_eq_true, Bool.or_eq_true, decide_eq_true_eq, beq_iff_eq] at h
  omega
theorem divw (d a b : Nat) : Statement (.divw d a b) := @of_word (.divw d a b) ((encR 59 4 1 d a b)) (xr d && xr a && xr b) rfl rfl fun h => by
  simp only [encR]
  simp only [xr, Bool.and_eq_true, Bool.or_eq_true, decide_eq_true_eq, beq_iff_eq] at h
  omega
theorem divuw (d a b : Nat) : Statement (.divuw d a b) := @of_word (.divuw d a b) ((encR 59 5 1 d a b)) (xr d && xr a && xr b) rfl rfl fun h => by
  simp only [encR]
  simp only [xr, Bool.and_eq_true, Bool.or_eq_true, decide_eq_true_eq, beq_iff_eq] at h
  omega
theorem remw (d a b : Nat) : Statement (.remw d a b) := @of_word (.remw d a b) ((encR 59 6 1 d a b)) (xr d && xr a && xr b) rfl rfl fun h => by
  simp only [encR]
  simp only [xr, Bool.and_eq_true, Bool.or_eq_true, decide_eq_true_eq, beq_iff_eq] at h
  omega
theorem remuw (d a b : Nat) : Statement (.remuw d a b) := @of_word (.remuw d a b) ((encR 59 7 1 d a b)) (xr d && xr a && xr b) rfl rfl fun h => by
  simp only [encR]
  simp only [xr, Bool.and_eq_true, Bool.or_eq_true, decide_eq_true_eq, beq_iff_eq] at h
  omega
theorem csrrw (d csr a : Nat) : Statement (.csrrw d csr a) := @of_word (.csrrw d csr a) ((encI 115 1 d a csr)) (xr d && csr < 2 ^ 12 && xr a) rfl rfl fun h => by
  simp only [encI]
  simp only [xr, Bool.and_eq_true, Bool.or_eq_true, decide_eq_true_eq, beq_iff_eq] at h
  omega
theorem csrrs (d csr a : Nat) : Statement (.csrrs d csr a) := @of_word (.csrrs d csr a) ((encI 115 2 d a csr)) (xr d && csr < 2 ^ 12 && xr a) rfl rfl fun h => by
  simp only [encI]
  simp only [xr, Bool.and_eq_true, Bool.or_eq_true, decide_eq_true_eq, beq_iff_eq] at h
  omega
theorem csrrc (d csr a : Nat) : Statement (.csrrc d csr a) := @of_word (.csrrc d csr a) ((encI 115 3 d a csr)) (xr d && csr < 2 ^ 12 && xr a) rfl rfl fun h => by
  simp only [encI]
  simp only [xr, Bool.and_eq_true, Bool.or_eq_true, decide_eq_true_eq, beq_iff_eq] at h
  omega
theorem csrrwi (d csr uimm : Nat) : Statement (.csrrwi d csr uimm) := @of_word (.csrrwi d csr uimm) ((encI 115 5 d uimm csr)) (xr d && csr < 2 ^ 12 && uimm < 32) rfl rfl fun h => by
  simp only [encI]
  simp only [xr, Bool.and_eq_true, Bool.or_eq_true, decide_eq_true_eq, beq_iff_eq] at h
  omega
theorem csrrsi (d csr uimm : Nat) : Statement (.csrrsi d csr uimm) := @of_word (.csrrsi d csr uimm) ((encI 115 6 d uimm csr)) (xr d && csr < 2 ^ 12 && uimm < 32) rfl rfl fun h => by
  simp only [encI]
  simp only [xr, Bool.and_eq_true, Bool.or_eq_true, decide_eq_true_eq, beq_iff_eq] at h
  omega
theorem csrrci (d csr uimm : Nat) : Statement (.csrrci d csr uimm) := @of_word (.csrrci d csr uimm) ((encI 115 7 d uimm csr)) (xr d && csr < 2 ^ 12 && uimm < 32) rfl rfl fun h => by
  simp only [encI]
  simp only [xr, Bool.and_eq_true, Bool.or_eq_true, decide_eq_true_eq, beq_iff_eq] at h
  omega
theorem ldB (la c imm d : Nat) : Statement (.ldB la c imm d) := @of_word (.ldB la c imm d) ((encMem la c imm 0 d)) (la < 16 && cr c && imm < 256 && xr d) rfl rfl fun h => by
  simp only [encMem]
  simp only [xr, cr, Bool.and_eq_true, Bool.or_eq_true, decide_eq_true_eq, beq_iff_eq] at h
  omega
theorem ldH (la c imm d : Nat) : Statement (.ldH la c imm d) := @of_word (.ldH la c imm d) ((encMem la c imm 1 d)) (la < 16 && cr c && imm < 256 && xr d) rfl rfl fun h => by
  simp only [encMem]
  simp only [xr, cr, Bool.and_eq_true, Bool.or_eq_true, decide_eq_true_eq, beq_iff_eq] at h
  omega
theorem ldW (la c imm d : Nat) : Statement (.ldW la c imm d) := @of_word (.ldW la c imm d) ((encMem la c imm 2 d)) (la < 16 && cr c && imm < 256 && xr d) rfl rfl fun h => by
  simp only [encMem]
  simp only [xr, cr, Bool.and_eq_true, Bool.or_eq_true, decide_eq_true_eq, beq_iff_eq] at h
  omega
theorem ldD (la c imm d : Nat) : Statement (.ldD la c imm d) := @of_word (.ldD la c imm d) ((encMem la c imm 3 d)) (la < 16 && cr c && imm < 256 && xr d) rfl rfl fun h => by
  simp only [encMem]
  simp only [xr, cr, Bool.and_eq_true, Bool.or_eq_true, decide_eq_true_eq, beq_iff_eq] at h
  omega
theorem ldBu (la c imm d : Nat) : Statement (.ldBu la c imm d) := @of_word (.ldBu la c imm d) ((encMem la c imm 4 d)) (la < 16 && cr c && imm < 256 && xr d) rfl rfl fun h => by
  simp only [encMem]
  simp only [xr, cr, Bool.and_eq_true, Bool.or_eq_true, decide_eq_true_eq, beq_iff_eq] at h
  omega
theorem ldHu (la c imm d : Nat) : Statement (.ldHu la c imm d) := @of_word (.ldHu la c imm d) ((encMem la c imm 5 d)) (la < 16 && cr c && imm < 256 && xr d) rfl rfl fun h => by
  simp only [encMem]
  simp only [xr, cr, Bool.and_eq_true, Bool.or_eq_true, decide_eq_true_eq, beq_iff_eq] at h
  omega
theorem ldWu (la c imm d : Nat) : Statement (.ldWu la c imm d) := @of_word (.ldWu la c imm d) ((encMem la c imm 6 d)) (la < 16 && cr c && imm < 256 && xr d) rfl rfl fun h => by
  simp only [encMem]
  simp only [xr, cr, Bool.and_eq_true, Bool.or_eq_true, decide_eq_true_eq, beq_iff_eq] at h
  omega
theorem vld (la c imm d : Nat) : Statement (.vld la c imm d) := @of_word (.vld la c imm d) ((encMem la c imm 7 d)) (la < 16 && cr c && imm < 256 && vr d) rfl rfl fun h => by
  simp only [encMem]
  simp only [cr, vr, Bool.and_eq_true, Bool.or_eq_true, decide_eq_true_eq, beq_iff_eq] at h
  omega
theorem stB (la c imm s : Nat) : Statement (.stB la c imm s) := @of_word (.stB la c imm s) ((encMem la c imm 8 s)) (la < 16 && cr c && imm < 256 && xr s) rfl rfl fun h => by
  simp only [encMem]
  simp only [xr, cr, Bool.and_eq_true, Bool.or_eq_true, decide_eq_true_eq, beq_iff_eq] at h
  omega
theorem stH (la c imm s : Nat) : Statement (.stH la c imm s) := @of_word (.stH la c imm s) ((encMem la c imm 9 s)) (la < 16 && cr c && imm < 256 && xr s) rfl rfl fun h => by
  simp only [encMem]
  simp only [xr, cr, Bool.and_eq_true, Bool.or_eq_true, decide_eq_true_eq, beq_iff_eq] at h
  omega
theorem stW (la c imm s : Nat) : Statement (.stW la c imm s) := @of_word (.stW la c imm s) ((encMem la c imm 10 s)) (la < 16 && cr c && imm < 256 && xr s) rfl rfl fun h => by
  simp only [encMem]
  simp only [xr, cr, Bool.and_eq_true, Bool.or_eq_true, decide_eq_true_eq, beq_iff_eq] at h
  omega
theorem stD (la c imm s : Nat) : Statement (.stD la c imm s) := @of_word (.stD la c imm s) ((encMem la c imm 11 s)) (la < 16 && cr c && imm < 256 && xr s) rfl rfl fun h => by
  simp only [encMem]
  simp only [xr, cr, Bool.and_eq_true, Bool.or_eq_true, decide_eq_true_eq, beq_iff_eq] at h
  omega
theorem vst (la c imm s : Nat) : Statement (.vst la c imm s) := @of_word (.vst la c imm s) ((encMem la c imm 12 s)) (la < 16 && cr c && imm < 256 && vr s) rfl rfl fun h => by
  simp only [encMem]
  simp only [cr, vr, Bool.and_eq_true, Bool.or_eq_true, decide_eq_true_eq, beq_iff_eq] at h
  omega
theorem vlds (la c o d : Nat) : Statement (.vlds la c o d) := @of_word (.vlds la c o d) ((encMem la c (16 * o + 0) 15 d)) (la < 16 && cr c && xr o && even o && vr d) rfl rfl fun h => by
  simp only [encMem]
  simp only [xr, cr, vr, even, Bool.and_eq_true, Bool.or_eq_true, decide_eq_true_eq, beq_iff_eq] at h
  omega
theorem vsts (la c o s : Nat) : Statement (.vsts la c o s) := @of_word (.vsts la c o s) ((encMem la c (16 * o + 1) 15 s)) (la < 16 && cr c && xr o && even o && vr s) rfl rfl fun h => by
  simp only [encMem]
  simp only [xr, cr, vr, even, Bool.and_eq_true, Bool.or_eq_true, decide_eq_true_eq, beq_iff_eq] at h
  omega
theorem vldx (la c o d : Nat) : Statement (.vldx la c o d) := @of_word (.vldx la c o d) ((encMem la c (16 * o + 2) 15 d)) (la < 16 && cr c && xr o && vr d) rfl rfl fun h => by
  simp only [encMem]
  simp only [xr, cr, vr, Bool.and_eq_true, Bool.or_eq_true, decide_eq_true_eq, beq_iff_eq] at h
  omega
theorem vstx (la c o s : Nat) : Statement (.vstx la c o s) := @of_word (.vstx la c o s) ((encMem la c (16 * o + 3) 15 s)) (la < 16 && cr c && xr o && vr s) rfl rfl fun h => by
  simp only [encMem]
  simp only [xr, cr, vr, Bool.and_eq_true, Bool.or_eq_true, decide_eq_true_eq, beq_iff_eq] at h
  omega
theorem vldt (la c o d : Nat) : Statement (.vldt la c o d) := @of_word (.vldt la c o d) ((encMem la c (16 * o + 4) 15 d)) (la < 16 && cr c && xr o && vr d) rfl rfl fun h => by
  simp only [encMem]
  simp only [xr, cr, vr, Bool.and_eq_true, Bool.or_eq_true, decide_eq_true_eq, beq_iff_eq] at h
  omega
theorem ldFe (la c o d : Nat) : Statement (.ldFe la c o d) := @of_word (.ldFe la c o d) ((encMem la c (16 * o + 5) 15 d)) (la < 16 && cr c && xr o && xr d) rfl rfl fun h => by
  simp only [encMem]
  simp only [xr, cr, Bool.and_eq_true, Bool.or_eq_true, decide_eq_true_eq, beq_iff_eq] at h
  omega
theorem ldFet (la c o d : Nat) : Statement (.ldFet la c o d) := @of_word (.ldFet la c o d) ((encMem la c (16 * o + 6) 15 d)) (la < 16 && cr c && xr o && xr d) rfl rfl fun h => by
  simp only [encMem]
  simp only [xr, cr, Bool.and_eq_true, Bool.or_eq_true, decide_eq_true_eq, beq_iff_eq] at h
  omega
theorem stFe (la c o s : Nat) : Statement (.stFe la c o s) := @of_word (.stFe la c o s) ((encMem la c (16 * o + 7) 15 s)) (la < 16 && cr c && xr o && xr s) rfl rfl fun h => by
  simp only [encMem]
  simp only [xr, cr, Bool.and_eq_true, Bool.or_eq_true, decide_eq_true_eq, beq_iff_eq] at h
  omega
theorem stFeRel (la c o s : Nat) : Statement (.stFeRel la c o s) := @of_word (.stFeRel la c o s) ((encMem la c (16 * o + 7) 15 (16 + s))) (la < 16 && cr c && xr o && xr s) rfl rfl fun h => by
  simp only [encMem]
  simp only [xr, cr, Bool.and_eq_true, Bool.or_eq_true, decide_eq_true_eq, beq_iff_eq] at h
  omega
theorem feClr (la c o : Nat) : Statement (.feClr la c o) := @of_word (.feClr la c o) ((encMem la c (16 * o + 8) 15 0)) (la < 16 && cr c && xr o) rfl rfl fun h => by
  simp only [encMem]
  simp only [xr, cr, Bool.and_eq_true, Bool.or_eq_true, decide_eq_true_eq, beq_iff_eq] at h
  omega
theorem feProbe (la c o d : Nat) : Statement (.feProbe la c o d) := @of_word (.feProbe la c o d) ((encMem la c (16 * o + 9) 15 d)) (la < 16 && cr c && xr o && xr d) rfl rfl fun h => by
  simp only [encMem]
  simp only [xr, cr, Bool.and_eq_true, Bool.or_eq_true, decide_eq_true_eq, beq_iff_eq] at h
  omega
theorem landArm (la c o s : Nat) : Statement (.landArm la c o s) := @of_word (.landArm la c o s) ((encMem la c (16 * o + 10) 15 s)) (la < 16 && cr c && xr o && xr s) rfl rfl fun h => by
  simp only [encMem]
  simp only [xr, cr, Bool.and_eq_true, Bool.or_eq_true, decide_eq_true_eq, beq_iff_eq] at h
  omega
theorem landWait (la c o s : Nat) : Statement (.landWait la c o s) := @of_word (.landWait la c o s) ((encMem la c (16 * o + 11) 15 s)) (la < 16 && cr c && xr o && xr s) rfl rfl fun h => by
  simp only [encMem]
  simp only [xr, cr, Bool.and_eq_true, Bool.or_eq_true, decide_eq_true_eq, beq_iff_eq] at h
  omega
theorem landGet (la c o d : Nat) : Statement (.landGet la c o d) := @of_word (.landGet la c o d) ((encMem la c (16 * o + 12) 15 d)) (la < 16 && cr c && xr o && xr d && even d) rfl rfl fun h => by
  simp only [encMem]
  simp only [xr, cr, even, Bool.and_eq_true, Bool.or_eq_true, decide_eq_true_eq, beq_iff_eq] at h
  omega
theorem amoAdd (la c s d : Nat) : Statement (.amoAdd la c s d) := @of_word (.amoAdd la c s d) ((encMem la c (16 * s + 0) 13 d)) (la < 16 && cr c && xr s && xr d) rfl rfl fun h => by
  simp only [encMem]
  simp only [xr, cr, Bool.and_eq_true, Bool.or_eq_true, decide_eq_true_eq, beq_iff_eq] at h
  omega
theorem amoAnd (la c s d : Nat) : Statement (.amoAnd la c s d) := @of_word (.amoAnd la c s d) ((encMem la c (16 * s + 1) 13 d)) (la < 16 && cr c && xr s && xr d) rfl rfl fun h => by
  simp only [encMem]
  simp only [xr, cr, Bool.and_eq_true, Bool.or_eq_true, decide_eq_true_eq, beq_iff_eq] at h
  omega
theorem amoOr (la c s d : Nat) : Statement (.amoOr la c s d) := @of_word (.amoOr la c s d) ((encMem la c (16 * s + 2) 13 d)) (la < 16 && cr c && xr s && xr d) rfl rfl fun h => by
  simp only [encMem]
  simp only [xr, cr, Bool.and_eq_true, Bool.or_eq_true, decide_eq_true_eq, beq_iff_eq] at h
  omega
theorem amoXor (la c s d : Nat) : Statement (.amoXor la c s d) := @of_word (.amoXor la c s d) ((encMem la c (16 * s + 3) 13 d)) (la < 16 && cr c && xr s && xr d) rfl rfl fun h => by
  simp only [encMem]
  simp only [xr, cr, Bool.and_eq_true, Bool.or_eq_true, decide_eq_true_eq, beq_iff_eq] at h
  omega
theorem amoMin (la c s d : Nat) : Statement (.amoMin la c s d) := @of_word (.amoMin la c s d) ((encMem la c (16 * s + 4) 13 d)) (la < 16 && cr c && xr s && xr d) rfl rfl fun h => by
  simp only [encMem]
  simp only [xr, cr, Bool.and_eq_true, Bool.or_eq_true, decide_eq_true_eq, beq_iff_eq] at h
  omega
theorem amoMax (la c s d : Nat) : Statement (.amoMax la c s d) := @of_word (.amoMax la c s d) ((encMem la c (16 * s + 5) 13 d)) (la < 16 && cr c && xr s && xr d) rfl rfl fun h => by
  simp only [encMem]
  simp only [xr, cr, Bool.and_eq_true, Bool.or_eq_true, decide_eq_true_eq, beq_iff_eq] at h
  omega
theorem amoMinu (la c s d : Nat) : Statement (.amoMinu la c s d) := @of_word (.amoMinu la c s d) ((encMem la c (16 * s + 6) 13 d)) (la < 16 && cr c && xr s && xr d) rfl rfl fun h => by
  simp only [encMem]
  simp only [xr, cr, Bool.and_eq_true, Bool.or_eq_true, decide_eq_true_eq, beq_iff_eq] at h
  omega
theorem amoMaxu (la c s d : Nat) : Statement (.amoMaxu la c s d) := @of_word (.amoMaxu la c s d) ((encMem la c (16 * s + 7) 13 d)) (la < 16 && cr c && xr s && xr d) rfl rfl fun h => by
  simp only [encMem]
  simp only [xr, cr, Bool.and_eq_true, Bool.or_eq_true, decide_eq_true_eq, beq_iff_eq] at h
  omega
theorem amoSwap (la c s d : Nat) : Statement (.amoSwap la c s d) := @of_word (.amoSwap la c s d) ((encMem la c (16 * s + 8) 13 d)) (la < 16 && cr c && xr s && xr d) rfl rfl fun h => by
  simp only [encMem]
  simp only [xr, cr, Bool.and_eq_true, Bool.or_eq_true, decide_eq_true_eq, beq_iff_eq] at h
  omega
theorem amoCas (la c s d : Nat) : Statement (.amoCas la c s d) := @of_word (.amoCas la c s d) ((encMem la c (16 * s + 9) 13 d)) (la < 16 && cr c && xr s && xr d && even s) rfl rfl fun h => by
  simp only [encMem]
  simp only [xr, cr, even, Bool.and_eq_true, Bool.or_eq_true, decide_eq_true_eq, beq_iff_eq] at h
  omega
theorem amoFadd (la c s d : Nat) : Statement (.amoFadd la c s d) := @of_word (.amoFadd la c s d) ((encMem la c (16 * s + 10) 13 d)) (la < 16 && cr c && xr s && xr d) rfl rfl fun h => by
  simp only [encMem]
  simp only [xr, cr, Bool.and_eq_true, Bool.or_eq_true, decide_eq_true_eq, beq_iff_eq] at h
  omega
theorem amoEnq (la c s d : Nat) : Statement (.amoEnq la c s d) := @of_word (.amoEnq la c s d) ((encMem la c (16 * s + 11) 13 d)) (la < 16 && cr c && xr s && xr d) rfl rfl fun h => by
  simp only [encMem]
  simp only [xr, cr, Bool.and_eq_true, Bool.or_eq_true, decide_eq_true_eq, beq_iff_eq] at h
  omega
theorem amoDeq (la c s d : Nat) : Statement (.amoDeq la c s d) := @of_word (.amoDeq la c s d) ((encMem la c (16 * s + 12) 13 d)) (la < 16 && cr c && xr s && xr d && (s != d || s == 0)) rfl rfl fun h => by
  simp only [encMem]
  simp only [xr, cr, Bool.and_eq_true, Bool.or_eq_true, decide_eq_true_eq, beq_iff_eq] at h
  omega
theorem vadd (et vm a b d : Nat) : Statement (.vadd et vm a b d) := @of_word (.vadd et vm a b d) ((encVec 43 0 (8 * et + vm) a b d)) (et < 4 && vm < 8 && vr a && vr b && vr d) rfl rfl fun h => by
  simp only [encVec]
  simp only [vr, Bool.and_eq_true, Bool.or_eq_true, decide_eq_true_eq, beq_iff_eq] at h
  omega
theorem vsub (et vm a b d : Nat) : Statement (.vsub et vm a b d) := @of_word (.vsub et vm a b d) ((encVec 43 1 (8 * et + vm) a b d)) (et < 4 && vm < 8 && vr a && vr b && vr d) rfl rfl fun h => by
  simp only [encVec]
  simp only [vr, Bool.and_eq_true, Bool.or_eq_true, decide_eq_true_eq, beq_iff_eq] at h
  omega
theorem vmul (et vm a b d : Nat) : Statement (.vmul et vm a b d) := @of_word (.vmul et vm a b d) ((encVec 43 2 (8 * et + vm) a b d)) (et < 4 && vm < 8 && vr a && vr b && vr d) rfl rfl fun h => by
  simp only [encVec]
  simp only [vr, Bool.and_eq_true, Bool.or_eq_true, decide_eq_true_eq, beq_iff_eq] at h
  omega
theorem vmulh (et vm a b d : Nat) : Statement (.vmulh et vm a b d) := @of_word (.vmulh et vm a b d) ((encVec 43 3 (8 * et + vm) a b d)) (et < 4 && vm < 8 && vr a && vr b && vr d) rfl rfl fun h => by
  simp only [encVec]
  simp only [vr, Bool.and_eq_true, Bool.or_eq_true, decide_eq_true_eq, beq_iff_eq] at h
  omega
theorem vmulhu (et vm a b d : Nat) : Statement (.vmulhu et vm a b d) := @of_word (.vmulhu et vm a b d) ((encVec 43 4 (8 * et + vm) a b d)) (et < 4 && vm < 8 && vr a && vr b && vr d) rfl rfl fun h => by
  simp only [encVec]
  simp only [vr, Bool.and_eq_true, Bool.or_eq_true, decide_eq_true_eq, beq_iff_eq] at h
  omega
theorem vand (et vm a b d : Nat) : Statement (.vand et vm a b d) := @of_word (.vand et vm a b d) ((encVec 43 5 (8 * et + vm) a b d)) (et < 4 && vm < 8 && vr a && vr b && vr d) rfl rfl fun h => by
  simp only [encVec]
  simp only [vr, Bool.and_eq_true, Bool.or_eq_true, decide_eq_true_eq, beq_iff_eq] at h
  omega
theorem vor (et vm a b d : Nat) : Statement (.vor et vm a b d) := @of_word (.vor et vm a b d) ((encVec 43 6 (8 * et + vm) a b d)) (et < 4 && vm < 8 && vr a && vr b && vr d) rfl rfl fun h => by
  simp only [encVec]
  simp only [vr, Bool.and_eq_true, Bool.or_eq_true, decide_eq_true_eq, beq_iff_eq] at h
  omega
theorem vxor (et vm a b d : Nat) : Statement (.vxor et vm a b d) := @of_word (.vxor et vm a b d) ((encVec 43 7 (8 * et + vm) a b d)) (et < 4 && vm < 8 && vr a && vr b && vr d) rfl rfl fun h => by
  simp only [encVec]
  simp only [vr, Bool.and_eq_true, Bool.or_eq_true, decide_eq_true_eq, beq_iff_eq] at h
  omega
theorem vsll (et vm a b d : Nat) : Statement (.vsll et vm a b d) := @of_word (.vsll et vm a b d) ((encVec 43 8 (8 * et + vm) a b d)) (et < 4 && vm < 8 && vr a && vr b && vr d) rfl rfl fun h => by
  simp only [encVec]
  simp only [vr, Bool.and_eq_true, Bool.or_eq_true, decide_eq_true_eq, beq_iff_eq] at h
  omega
theorem vsrl (et vm a b d : Nat) : Statement (.vsrl et vm a b d) := @of_word (.vsrl et vm a b d) ((encVec 43 9 (8 * et + vm) a b d)) (et < 4 && vm < 8 && vr a && vr b && vr d) rfl rfl fun h => by
  simp only [encVec]
  simp only [vr, Bool.and_eq_true, Bool.or_eq_true, decide_eq_true_eq, beq_iff_eq] at h
  omega
theorem vsra (et vm a b d : Nat) : Statement (.vsra et vm a b d) := @of_word (.vsra et vm a b d) ((encVec 43 10 (8 * et + vm) a b d)) (et < 4 && vm < 8 && vr a && vr b && vr d) rfl rfl fun h => by
  simp only [encVec]
  simp only [vr, Bool.and_eq_true, Bool.or_eq_true, decide_eq_true_eq, beq_iff_eq] at h
  omega
theorem vmin (et vm a b d : Nat) : Statement (.vmin et vm a b d) := @of_word (.vmin et vm a b d) ((encVec 43 11 (8 * et + vm) a b d)) (et < 4 && vm < 8 && vr a && vr b && vr d) rfl rfl fun h => by
  simp only [encVec]
  simp only [vr, Bool.and_eq_true, Bool.or_eq_true, decide_eq_true_eq, beq_iff_eq] at h
  omega
theorem vmax (et vm a b d : Nat) : Statement (.vmax et vm a b d) := @of_word (.vmax et vm a b d) ((encVec 43 12 (8 * et + vm) a b d)) (et < 4 && vm < 8 && vr a && vr b && vr d) rfl rfl fun h => by
  simp only [encVec]
  simp only [vr, Bool.and_eq_true, Bool.or_eq_true, decide_eq_true_eq, beq_iff_eq] at h
  omega
theorem vminu (et vm a b d : Nat) : Statement (.vminu et vm a b d) := @of_word (.vminu et vm a b d) ((encVec 43 13 (8 * et + vm) a b d)) (et < 4 && vm < 8 && vr a && vr b && vr d) rfl rfl fun h => by
  simp only [encVec]
  simp only [vr, Bool.and_eq_true, Bool.or_eq_true, decide_eq_true_eq, beq_iff_eq] at h
  omega
theorem vmaxu (et vm a b d : Nat) : Statement (.vmaxu et vm a b d) := @of_word (.vmaxu et vm a b d) ((encVec 43 14 (8 * et + vm) a b d)) (et < 4 && vm < 8 && vr a && vr b && vr d) rfl rfl fun h => by
  simp only [encVec]
  simp only [vr, Bool.and_eq_true, Bool.or_eq_true, decide_eq_true_eq, beq_iff_eq] at h
  omega
theorem vcmpeq (et vm a b d : Nat) : Statement (.vcmpeq et vm a b d) := @of_word (.vcmpeq et vm a b d) ((encVec 43 15 (8 * et + vm) a b d)) (et < 4 && vm < 8 && vr a && vr b && mr d) rfl rfl fun h => by
  simp only [encVec]
  simp only [vr, mr, Bool.and_eq_true, Bool.or_eq_true, decide_eq_true_eq, beq_iff_eq] at h
  omega
theorem vcmplt (et vm a b d : Nat) : Statement (.vcmplt et vm a b d) := @of_word (.vcmplt et vm a b d) ((encVec 43 16 (8 * et + vm) a b d)) (et < 4 && vm < 8 && vr a && vr b && mr d) rfl rfl fun h => by
  simp only [encVec]
  simp only [vr, mr, Bool.and_eq_true, Bool.or_eq_true, decide_eq_true_eq, beq_iff_eq] at h
  omega
theorem vcmpltu (et vm a b d : Nat) : Statement (.vcmpltu et vm a b d) := @of_word (.vcmpltu et vm a b d) ((encVec 43 17 (8 * et + vm) a b d)) (et < 4 && vm < 8 && vr a && vr b && mr d) rfl rfl fun h => by
  simp only [encVec]
  simp only [vr, mr, Bool.and_eq_true, Bool.or_eq_true, decide_eq_true_eq, beq_iff_eq] at h
  omega
theorem vcmple (et vm a b d : Nat) : Statement (.vcmple et vm a b d) := @of_word (.vcmple et vm a b d) ((encVec 43 18 (8 * et + vm) a b d)) (et < 4 && vm < 8 && vr a && vr b && mr d) rfl rfl fun h => by
  simp only [encVec]
  simp only [vr, mr, Bool.and_eq_true, Bool.or_eq_true, decide_eq_true_eq, beq_iff_eq] at h
  omega
theorem vfadd (et vm a b d : Nat) : Statement (.vfadd et vm a b d) := @of_word (.vfadd et vm a b d) ((encVec 43 19 (8 * et + vm) a b d)) (et < 4 && vm < 8 && vr a && vr b && vr d) rfl rfl fun h => by
  simp only [encVec]
  simp only [vr, Bool.and_eq_true, Bool.or_eq_true, decide_eq_true_eq, beq_iff_eq] at h
  omega
theorem vfsub (et vm a b d : Nat) : Statement (.vfsub et vm a b d) := @of_word (.vfsub et vm a b d) ((encVec 43 20 (8 * et + vm) a b d)) (et < 4 && vm < 8 && vr a && vr b && vr d) rfl rfl fun h => by
  simp only [encVec]
  simp only [vr, Bool.and_eq_true, Bool.or_eq_true, decide_eq_true_eq, beq_iff_eq] at h
  omega
theorem vfmul (et vm a b d : Nat) : Statement (.vfmul et vm a b d) := @of_word (.vfmul et vm a b d) ((encVec 43 21 (8 * et + vm) a b d)) (et < 4 && vm < 8 && vr a && vr b && vr d) rfl rfl fun h => by
  simp only [encVec]
  simp only [vr, Bool.and_eq_true, Bool.or_eq_true, decide_eq_true_eq, beq_iff_eq] at h
  omega
theorem vfma (et vm a b d : Nat) : Statement (.vfma et vm a b d) := @of_word (.vfma et vm a b d) ((encVec 43 22 (8 * et + vm) a b d)) (et < 4 && vm < 8 && vr a && vr b && vr d) rfl rfl fun h => by
  simp only [encVec]
  simp only [vr, Bool.and_eq_true, Bool.or_eq_true, decide_eq_true_eq, beq_iff_eq] at h
  omega
theorem vfmin (et vm a b d : Nat) : Statement (.vfmin et vm a b d) := @of_word (.vfmin et vm a b d) ((encVec 43 23 (8 * et + vm) a b d)) (et < 4 && vm < 8 && vr a && vr b && vr d) rfl rfl fun h => by
  simp only [encVec]
  simp only [vr, Bool.and_eq_true, Bool.or_eq_true, decide_eq_true_eq, beq_iff_eq] at h
  omega
theorem vfmax (et vm a b d : Nat) : Statement (.vfmax et vm a b d) := @of_word (.vfmax et vm a b d) ((encVec 43 24 (8 * et + vm) a b d)) (et < 4 && vm < 8 && vr a && vr b && vr d) rfl rfl fun h => by
  simp only [encVec]
  simp only [vr, Bool.and_eq_true, Bool.or_eq_true, decide_eq_true_eq, beq_iff_eq] at h
  omega
theorem vfdiv (et vm a b d : Nat) : Statement (.vfdiv et vm a b d) := @of_word (.vfdiv et vm a b d) ((encVec 43 25 (8 * et + vm) a b d)) (et < 4 && vm < 8 && vr a && vr b && vr d) rfl rfl fun h => by
  simp only [encVec]
  simp only [vr, Bool.and_eq_true, Bool.or_eq_true, decide_eq_true_eq, beq_iff_eq] at h
  omega
theorem vfcmpeq (et vm a b d : Nat) : Statement (.vfcmpeq et vm a b d) := @of_word (.vfcmpeq et vm a b d) ((encVec 43 26 (8 * et + vm) a b d)) (et < 4 && vm < 8 && vr a && vr b && mr d) rfl rfl fun h => by
  simp only [encVec]
  simp only [vr, mr, Bool.and_eq_true, Bool.or_eq_true, decide_eq_true_eq, beq_iff_eq] at h
  omega
theorem vfcmplt (et vm a b d : Nat) : Statement (.vfcmplt et vm a b d) := @of_word (.vfcmplt et vm a b d) ((encVec 43 27 (8 * et + vm) a b d)) (et < 4 && vm < 8 && vr a && vr b && mr d) rfl rfl fun h => by
  simp only [encVec]
  simp only [vr, mr, Bool.and_eq_true, Bool.or_eq_true, decide_eq_true_eq, beq_iff_eq] at h
  omega
theorem vfcmple (et vm a b d : Nat) : Statement (.vfcmple et vm a b d) := @of_word (.vfcmple et vm a b d) ((encVec 43 28 (8 * et + vm) a b d)) (et < 4 && vm < 8 && vr a && vr b && mr d) rfl rfl fun h => by
  simp only [encVec]
  simp only [vr, mr, Bool.and_eq_true, Bool.or_eq_true, decide_eq_true_eq, beq_iff_eq] at h
  omega
theorem vsel (et vm a b d : Nat) : Statement (.vsel et vm a b d) := @of_word (.vsel et vm a b d) ((encVec 43 29 (8 * et + vm) a b d)) (et < 4 && vm < 8 && vr a && vr b && vr d) rfl rfl fun h => by
  simp only [encVec]
  simp only [vr, Bool.and_eq_true, Bool.or_eq_true, decide_eq_true_eq, beq_iff_eq] at h
  omega
theorem vperm (et vm a b d : Nat) : Statement (.vperm et vm a b d) := @of_word (.vperm et vm a b d) ((encVec 43 30 (8 * et + vm) a b d)) (et < 4 && vm < 8 && vr a && vr b && vr d) rfl rfl fun h => by
  simp only [encVec]
  simp only [vr, Bool.and_eq_true, Bool.or_eq_true, decide_eq_true_eq, beq_iff_eq] at h
  omega
theorem vaddx (et vm a b d : Nat) : Statement (.vaddx et vm a b d) := @of_word (.vaddx et vm a b d) ((encVec 91 0 (8 * et + vm) a b d)) (et < 4 && vm < 8 && vr a && xr b && vr d) rfl rfl fun h => by
  simp only [encVec]
  simp only [xr, vr, Bool.and_eq_true, Bool.or_eq_true, decide_eq_true_eq, beq_iff_eq] at h
  omega
theorem vmulx (et vm a b d : Nat) : Statement (.vmulx et vm a b d) := @of_word (.vmulx et vm a b d) ((encVec 91 1 (8 * et + vm) a b d)) (et < 4 && vm < 8 && vr a && xr b && vr d) rfl rfl fun h => by
  simp only [encVec]
  simp only [xr, vr, Bool.and_eq_true, Bool.or_eq_true, decide_eq_true_eq, beq_iff_eq] at h
  omega
theorem vfmulx (et vm a b d : Nat) : Statement (.vfmulx et vm a b d) := @of_word (.vfmulx et vm a b d) ((encVec 91 2 (8 * et + vm) a b d)) (et < 4 && vm < 8 && vr a && xr b && vr d) rfl rfl fun h => by
  simp only [encVec]
  simp only [xr, vr, Bool.and_eq_true, Bool.or_eq_true, decide_eq_true_eq, beq_iff_eq] at h
  omega
theorem vbcast (et vm b d : Nat) : Statement (.vbcast et vm b d) := @of_word (.vbcast et vm b d) ((encVec 91 3 (8 * et + vm) 0 b d)) (et < 4 && vm < 8 && xr b && vr d) rfl rfl fun h => by
  simp only [encVec]
  simp only [xr, vr, Bool.and_eq_true, Bool.or_eq_true, decide_eq_true_eq, beq_iff_eq] at h
  omega
theorem vmvx (et a b d : Nat) : Statement (.vmvx et a b d) := @of_word (.vmvx et a b d) ((encVec 91 4 (8 * et) a b d)) (et < 4 && vr a && xr b && xr d) rfl rfl fun h => by
  simp only [encVec]
  simp only [xr, vr, Bool.and_eq_true, Bool.or_eq_true, decide_eq_true_eq, beq_iff_eq] at h
  omega
theorem vinsx (et a b d : Nat) : Statement (.vinsx et a b d) := @of_word (.vinsx et a b d) ((encVec 91 5 (8 * et) a b d)) (et < 4 && xr a && xr b && vr d) rfl rfl fun h => by
  simp only [encVec]
  simp only [xr, vr, Bool.and_eq_true, Bool.or_eq_true, decide_eq_true_eq, beq_iff_eq] at h
  omega
theorem vslup (et vm a b d : Nat) : Statement (.vslup et vm a b d) := @of_word (.vslup et vm a b d) ((encVec 91 6 (8 * et + vm) a b d)) (et < 4 && vm < 8 && vr a && xr b && vr d) rfl rfl fun h => by
  simp only [encVec]
  simp only [xr, vr, Bool.and_eq_true, Bool.or_eq_true, decide_eq_true_eq, beq_iff_eq] at h
  omega
theorem vsldn (et vm a b d : Nat) : Statement (.vsldn et vm a b d) := @of_word (.vsldn et vm a b d) ((encVec 91 7 (8 * et + vm) a b d)) (et < 4 && vm < 8 && vr a && xr b && vr d) rfl rfl fun h => by
  simp only [encVec]
  simp only [xr, vr, Bool.and_eq_true, Bool.or_eq_true, decide_eq_true_eq, beq_iff_eq] at h
  omega
theorem vredsum (et vm a d : Nat) : Statement (.vredsum et vm a d) := @of_word (.vredsum et vm a d) ((encVec 91 8 (8 * et + vm) a 0 d)) (et < 4 && vm < 8 && vr a && vr d) rfl rfl fun h => by
  simp only [encVec]
  simp only [vr, Bool.and_eq_true, Bool.or_eq_true, decide_eq_true_eq, beq_iff_eq] at h
  omega
theorem vredmax (et vm a d : Nat) : Statement (.vredmax et vm a d) := @of_word (.vredmax et vm a d) ((encVec 91 9 (8 * et + vm) a 0 d)) (et < 4 && vm < 8 && vr a && vr d) rfl rfl fun h => by
  simp only [encVec]
  simp only [vr, Bool.and_eq_true, Bool.or_eq_true, decide_eq_true_eq, beq_iff_eq] at h
  omega
theorem vredmin (et vm a d : Nat) : Statement (.vredmin et vm a d) := @of_word (.vredmin et vm a d) ((encVec 91 10 (8 * et + vm) a 0 d)) (et < 4 && vm < 8 && vr a && vr d) rfl rfl fun h => by
  simp only [encVec]
  simp only [vr, Bool.and_eq_true, Bool.or_eq_true, decide_eq_true_eq, beq_iff_eq] at h
  omega
theorem vfredsum (et vm a d : Nat) : Statement (.vfredsum et vm a d) := @of_word (.vfredsum et vm a d) ((encVec 91 11 (8 * et + vm) a 0 d)) (et < 4 && vm < 8 && vr a && vr d) rfl rfl fun h => by
  simp only [encVec]
  simp only [vr, Bool.and_eq_true, Bool.or_eq_true, decide_eq_true_eq, beq_iff_eq] at h
  omega
theorem vfredamax (et vm a d : Nat) : Statement (.vfredamax et vm a d) := @of_word (.vfredamax et vm a d) ((encVec 91 12 (8 * et + vm) a 0 d)) (et < 4 && vm < 8 && vr a && vr d) rfl rfl fun h => by
  simp only [encVec]
  simp only [vr, Bool.and_eq_true, Bool.or_eq_true, decide_eq_true_eq, beq_iff_eq] at h
  omega
theorem vfsqrt (et vm a d : Nat) : Statement (.vfsqrt et vm a d) := @of_word (.vfsqrt et vm a d) ((encVec 91 13 (8 * et + vm) a 0 d)) (et < 4 && vm < 8 && vr a && vr d) rfl rfl fun h => by
  simp only [encVec]
  simp only [vr, Bool.and_eq_true, Bool.or_eq_true, decide_eq_true_eq, beq_iff_eq] at h
  omega
theorem vfexp2 (et vm a d : Nat) : Statement (.vfexp2 et vm a d) := @of_word (.vfexp2 et vm a d) ((encVec 91 14 (8 * et + vm) a 0 d)) (et < 4 && vm < 8 && vr a && vr d) rfl rfl fun h => by
  simp only [encVec]
  simp only [vr, Bool.and_eq_true, Bool.or_eq_true, decide_eq_true_eq, beq_iff_eq] at h
  omega
theorem vflog2 (et vm a d : Nat) : Statement (.vflog2 et vm a d) := @of_word (.vflog2 et vm a d) ((encVec 91 15 (8 * et + vm) a 0 d)) (et < 4 && vm < 8 && vr a && vr d) rfl rfl fun h => by
  simp only [encVec]
  simp only [vr, Bool.and_eq_true, Bool.or_eq_true, decide_eq_true_eq, beq_iff_eq] at h
  omega
theorem vfrcp (et vm a d : Nat) : Statement (.vfrcp et vm a d) := @of_word (.vfrcp et vm a d) ((encVec 91 16 (8 * et + vm) a 0 d)) (et < 4 && vm < 8 && vr a && vr d) rfl rfl fun h => by
  simp only [encVec]
  simp only [vr, Bool.and_eq_true, Bool.or_eq_true, decide_eq_true_eq, beq_iff_eq] at h
  omega
theorem vcvt (et k a fmt d : Nat) : Statement (.vcvt et k a fmt d) := @of_word (.vcvt et k a fmt d) ((encVec 91 17 (8 * et + k) a fmt d)) (et < 4 && k < 2 && vr a && vcvtCode fmt && vr d) rfl rfl fun h => by
  simp only [encVec]
  simp only [vr, vcvtCode, Bool.and_eq_true, Bool.or_eq_true, decide_eq_true_eq, beq_iff_eq] at h
  omega
theorem vquant (s a fmt d : Nat) : Statement (.vquant s a fmt d) := @of_word (.vquant s a fmt d) ((encVec 91 18 s a fmt d)) (xr s && group a && quantCode fmt && vr d && quantOverlap a d) rfl rfl fun h => by
  simp only [encVec]
  simp only [xr, vr, group, quantCode, quantOverlap, Bool.and_eq_true, Bool.or_eq_true, decide_eq_true_eq, beq_iff_eq] at h
  omega
theorem vdequant (s a fmt d : Nat) : Statement (.vdequant s a fmt d) := @of_word (.vdequant s a fmt d) ((encVec 91 19 s a fmt d)) (xr s && vr a && quantCode fmt && group d && quantOverlap d a) rfl rfl fun h => by
  simp only [encVec]
  simp only [xr, vr, group, quantCode, quantOverlap, Bool.and_eq_true, Bool.or_eq_true, decide_eq_true_eq, beq_iff_eq] at h
  omega
theorem laccClr (d : Nat) : Statement (.laccClr d) := @of_word (.laccClr d) ((encVec 91 20 0 0 0 d)) (vr d) rfl rfl fun h => by
  simp only [encVec]
  simp only [vr, Bool.and_eq_true, Bool.or_eq_true, decide_eq_true_eq, beq_iff_eq] at h
  omega
theorem laccAdd (et k a d : Nat) : Statement (.laccAdd et k a d) := @of_word (.laccAdd et k a d) ((encVec 91 21 (8 * et + k) a 0 d)) (et < 4 && k < 2 && vr a && vr d && d != a) rfl rfl fun h => by
  simp only [encVec]
  simp only [vr, Bool.and_eq_true, Bool.or_eq_true, decide_eq_true_eq, beq_iff_eq] at h
  omega
theorem laccMadd (a b d : Nat) : Statement (.laccMadd a b d) := @of_word (.laccMadd a b d) ((encVec 91 22 16 a b d)) (vr a && vr b && vr d && d != a && d != b) rfl rfl fun h => by
  simp only [encVec]
  simp only [vr, Bool.and_eq_true, Bool.or_eq_true, decide_eq_true_eq, beq_iff_eq] at h
  omega
theorem laccMerge (a d : Nat) : Statement (.laccMerge a d) := @of_word (.laccMerge a d) ((encVec 91 23 0 a 0 d)) (vr a && vr d) rfl rfl fun h => by
  simp only [encVec]
  simp only [vr, Bool.and_eq_true, Bool.or_eq_true, decide_eq_true_eq, beq_iff_eq] at h
  omega
theorem laccRd (a fmt d : Nat) : Statement (.laccRd a fmt d) := @of_word (.laccRd a fmt d) ((encVec 91 24 0 a fmt d)) (vr a && laccCode fmt && vr d) rfl rfl fun h => by
  simp only [encVec]
  simp only [vr, laccCode, Bool.and_eq_true, Bool.or_eq_true, decide_eq_true_eq, beq_iff_eq] at h
  omega
theorem mand (a b d : Nat) : Statement (.mand a b d) := @of_word (.mand a b d) ((encVec 91 25 0 a b d)) (mr a && mr b && mr d) rfl rfl fun h => by
  simp only [encVec]
  simp only [mr, Bool.and_eq_true, Bool.or_eq_true, decide_eq_true_eq, beq_iff_eq] at h
  omega
theorem mor (a b d : Nat) : Statement (.mor a b d) := @of_word (.mor a b d) ((encVec 91 26 0 a b d)) (mr a && mr b && mr d) rfl rfl fun h => by
  simp only [encVec]
  simp only [mr, Bool.and_eq_true, Bool.or_eq_true, decide_eq_true_eq, beq_iff_eq] at h
  omega
theorem mxor (a b d : Nat) : Statement (.mxor a b d) := @of_word (.mxor a b d) ((encVec 91 27 0 a b d)) (mr a && mr b && mr d) rfl rfl fun h => by
  simp only [encVec]
  simp only [mr, Bool.and_eq_true, Bool.or_eq_true, decide_eq_true_eq, beq_iff_eq] at h
  omega
theorem mandn (a b d : Nat) : Statement (.mandn a b d) := @of_word (.mandn a b d) ((encVec 91 28 0 a b d)) (mr a && mr b && mr d) rfl rfl fun h => by
  simp only [encVec]
  simp only [mr, Bool.and_eq_true, Bool.or_eq_true, decide_eq_true_eq, beq_iff_eq] at h
  omega
theorem mpop (a d : Nat) : Statement (.mpop a d) := @of_word (.mpop a d) ((encVec 91 29 0 a 0 d)) (mr a && xr d) rfl rfl fun h => by
  simp only [encVec]
  simp only [xr, mr, Bool.and_eq_true, Bool.or_eq_true, decide_eq_true_eq, beq_iff_eq] at h
  omega
theorem vid (et vm d : Nat) : Statement (.vid et vm d) := @of_word (.vid et vm d) ((encVec 91 30 (8 * et + vm) 0 0 d)) (et < 4 && vm < 8 && vr d) rfl rfl fun h => by
  simp only [encVec]
  simp only [vr, Bool.and_eq_true, Bool.or_eq_true, decide_eq_true_eq, beq_iff_eq] at h
  omega
theorem vaddWN (d s : Nat) : Statement (.vaddWN d s) := @of_word (.vaddWN d s) ((enc16 0 d s)) (vr d && vr s) rfl rfl fun h => by
  simp only [enc16]
  simp only [vr, Bool.and_eq_true, Bool.or_eq_true, decide_eq_true_eq, beq_iff_eq] at h
  omega
theorem vsubWN (d s : Nat) : Statement (.vsubWN d s) := @of_word (.vsubWN d s) ((enc16 1 d s)) (vr d && vr s) rfl rfl fun h => by
  simp only [enc16]
  simp only [vr, Bool.and_eq_true, Bool.or_eq_true, decide_eq_true_eq, beq_iff_eq] at h
  omega
theorem vandN (d s : Nat) : Statement (.vandN d s) := @of_word (.vandN d s) ((enc16 2 d s)) (vr d && vr s) rfl rfl fun h => by
  simp only [enc16]
  simp only [vr, Bool.and_eq_true, Bool.or_eq_true, decide_eq_true_eq, beq_iff_eq] at h
  omega
theorem vorN (d s : Nat) : Statement (.vorN d s) := @of_word (.vorN d s) ((enc16 3 d s)) (vr d && vr s) rfl rfl fun h => by
  simp only [enc16]
  simp only [vr, Bool.and_eq_true, Bool.or_eq_true, decide_eq_true_eq, beq_iff_eq] at h
  omega
theorem vxorN (d s : Nat) : Statement (.vxorN d s) := @of_word (.vxorN d s) ((enc16 4 d s)) (vr d && vr s) rfl rfl fun h => by
  simp only [enc16]
  simp only [vr, Bool.and_eq_true, Bool.or_eq_true, decide_eq_true_eq, beq_iff_eq] at h
  omega
theorem vfaddF32N (d s : Nat) : Statement (.vfaddF32N d s) := @of_word (.vfaddF32N d s) ((enc16 5 d s)) (vr d && vr s) rfl rfl fun h => by
  simp only [enc16]
  simp only [vr, Bool.and_eq_true, Bool.or_eq_true, decide_eq_true_eq, beq_iff_eq] at h
  omega
theorem vfmulF32N (d s : Nat) : Statement (.vfmulF32N d s) := @of_word (.vfmulF32N d s) ((enc16 6 d s)) (vr d && vr s) rfl rfl fun h => by
  simp only [enc16]
  simp only [vr, Bool.and_eq_true, Bool.or_eq_true, decide_eq_true_eq, beq_iff_eq] at h
  omega
theorem vfmaxF32N (d s : Nat) : Statement (.vfmaxF32N d s) := @of_word (.vfmaxF32N d s) ((enc16 7 d s)) (vr d && vr s) rfl rfl fun h => by
  simp only [enc16]
  simp only [vr, Bool.and_eq_true, Bool.or_eq_true, decide_eq_true_eq, beq_iff_eq] at h
  omega
theorem vfaddBf16N (d s : Nat) : Statement (.vfaddBf16N d s) := @of_word (.vfaddBf16N d s) ((enc16 8 d s)) (vr d && vr s) rfl rfl fun h => by
  simp only [enc16]
  simp only [vr, Bool.and_eq_true, Bool.or_eq_true, decide_eq_true_eq, beq_iff_eq] at h
  omega
theorem vfmulBf16N (d s : Nat) : Statement (.vfmulBf16N d s) := @of_word (.vfmulBf16N d s) ((enc16 9 d s)) (vr d && vr s) rfl rfl fun h => by
  simp only [enc16]
  simp only [vr, Bool.and_eq_true, Bool.or_eq_true, decide_eq_true_eq, beq_iff_eq] at h
  omega
theorem vfmaxBf16N (d s : Nat) : Statement (.vfmaxBf16N d s) := @of_word (.vfmaxBf16N d s) ((enc16 10 d s)) (vr d && vr s) rfl rfl fun h => by
  simp only [enc16]
  simp only [vr, Bool.and_eq_true, Bool.or_eq_true, decide_eq_true_eq, beq_iff_eq] at h
  omega
theorem vmaxWN (d s : Nat) : Statement (.vmaxWN d s) := @of_word (.vmaxWN d s) ((enc16 11 d s)) (vr d && vr s) rfl rfl fun h => by
  simp only [enc16]
  simp only [vr, Bool.and_eq_true, Bool.or_eq_true, decide_eq_true_eq, beq_iff_eq] at h
  omega
theorem vminWN (d s : Nat) : Statement (.vminWN d s) := @of_word (.vminWN d s) ((enc16 12 d s)) (vr d && vr s) rfl rfl fun h => by
  simp only [enc16]
  simp only [vr, Bool.and_eq_true, Bool.or_eq_true, decide_eq_true_eq, beq_iff_eq] at h
  omega
theorem vmv (d s : Nat) : Statement (.vmv d s) := @of_word (.vmv d s) ((enc16 13 d s)) (vr d && vr s) rfl rfl fun h => by
  simp only [enc16]
  simp only [vr, Bool.and_eq_true, Bool.or_eq_true, decide_eq_true_eq, beq_iff_eq] at h
  omega
theorem vfsubF32N (d s : Nat) : Statement (.vfsubF32N d s) := @of_word (.vfsubF32N d s) ((enc16 14 d s)) (vr d && vr s) rfl rfl fun h => by
  simp only [enc16]
  simp only [vr, Bool.and_eq_true, Bool.or_eq_true, decide_eq_true_eq, beq_iff_eq] at h
  omega
theorem vfsubBf16N (d s : Nat) : Statement (.vfsubBf16N d s) := @of_word (.vfsubBf16N d s) ((enc16 15 d s)) (vr d && vr s) rfl rfl fun h => by
  simp only [enc16]
  simp only [vr, Bool.and_eq_true, Bool.or_eq_true, decide_eq_true_eq, beq_iff_eq] at h
  omega
theorem cld (a d : Nat) : Statement (.cld a d) := @of_word (.cld a d) ((encSys 0 0 a 0 d)) (xr a && cr d && d != 0) rfl rfl fun h => by
  simp only [encSys]
  simp only [xr, cr, Bool.and_eq_true, Bool.or_eq_true, decide_eq_true_eq, beq_iff_eq] at h
  omega
theorem cst (a b : Nat) : Statement (.cst a b) := @of_word (.cst a b) ((encSys 0 1 a b 0)) (cr a && xr b) rfl rfl fun h => by
  simp only [encSys]
  simp only [xr, cr, Bool.and_eq_true, Bool.or_eq_true, decide_eq_true_eq, beq_iff_eq] at h
  omega
theorem cmv (a d : Nat) : Statement (.cmv a d) := @of_word (.cmv a d) ((encSys 0 2 a 0 d)) (cr a && cr d && d != 0) rfl rfl fun h => by
  simp only [encSys]
  simp only [cr, Bool.and_eq_true, Bool.or_eq_true, decide_eq_true_eq, beq_iff_eq] at h
  omega
theorem csplit (a b d : Nat) : Statement (.csplit a b d) := @of_word (.csplit a b d) ((encSys 0 3 a b d)) (cr a && xr b && cr d && d != 0 && d != a) rfl rfl fun h => by
  simp only [encSys]
  simp only [xr, cr, Bool.and_eq_true, Bool.or_eq_true, decide_eq_true_eq, beq_iff_eq] at h
  omega
theorem cjoin (a d : Nat) : Statement (.cjoin a d) := @of_word (.cjoin a d) ((encSys 0 4 a 0 d)) (cr a && cr d && d != 0 && d != a) rfl rfl fun h => by
  simp only [encSys]
  simp only [cr, Bool.and_eq_true, Bool.or_eq_true, decide_eq_true_eq, beq_iff_eq] at h
  omega
theorem cfrac (a d : Nat) : Statement (.cfrac a d) := @of_word (.cfrac a d) ((encSys 0 5 a 0 d)) (cr a && cr d && d != 0 && d != a) rfl rfl fun h => by
  simp only [encSys]
  simp only [cr, Bool.and_eq_true, Bool.or_eq_true, decide_eq_true_eq, beq_iff_eq] at h
  omega
theorem cunfrac (a d : Nat) : Statement (.cunfrac a d) := @of_word (.cunfrac a d) ((encSys 0 6 a 0 d)) (cr a && cr d && d != a) rfl rfl fun h => by
  simp only [encSys]
  simp only [cr, Bool.and_eq_true, Bool.or_eq_true, decide_eq_true_eq, beq_iff_eq] at h
  omega
theorem cdrop (a : Nat) : Statement (.cdrop a) := @of_word (.cdrop a) ((encSys 0 7 a 0 0)) (cr a) rfl rfl fun h => by
  simp only [encSys]
  simp only [cr, Bool.and_eq_true, Bool.or_eq_true, decide_eq_true_eq, beq_iff_eq] at h
  omega
theorem cinfo (a imm d : Nat) : Statement (.cinfo a imm d) := @of_word (.cinfo a imm d) ((encSys 0 8 a imm d)) (cr a && cinfoSelector imm && xr d) rfl rfl fun h => by
  simp only [encSys]
  simp only [xr, cr, cinfoSelector, Bool.and_eq_true, Bool.or_eq_true, decide_eq_true_eq, beq_iff_eq] at h
  omega
theorem cfill (a b d : Nat) : Statement (.cfill a b d) := @of_word (.cfill a b d) ((encSys 0 9 a b d)) (cr a && xr b && cr d && d != 0 && d != a) rfl rfl fun h => by
  simp only [encSys]
  simp only [xr, cr, Bool.and_eq_true, Bool.or_eq_true, decide_eq_true_eq, beq_iff_eq] at h
  omega
theorem objNew (a b d : Nat) : Statement (.objNew a b d) := @of_word (.objNew a b d) ((encSys 0 10 a b d)) (cr a && xr b && cr d && d != 0 && d != a) rfl rfl fun h => by
  simp only [encSys]
  simp only [xr, cr, Bool.and_eq_true, Bool.or_eq_true, decide_eq_true_eq, beq_iff_eq] at h
  omega
theorem objFree (a : Nat) : Statement (.objFree a) := @of_word (.objFree a) ((encSys 0 11 a 0 0)) (cr a) rfl rfl fun h => by
  simp only [encSys]
  simp only [cr, Bool.and_eq_true, Bool.or_eq_true, decide_eq_true_eq, beq_iff_eq] at h
  omega
theorem keyNew (d : Nat) : Statement (.keyNew d) := @of_word (.keyNew d) ((encSys 0 12 0 0 d)) (xr d) rfl rfl fun h => by
  simp only [encSys]
  simp only [xr, Bool.and_eq_true, Bool.or_eq_true, decide_eq_true_eq, beq_iff_eq] at h
  omega
theorem keyEnd (la a d : Nat) : Statement (.keyEnd la a d) := @of_word (.keyEnd la a d) ((encSys la 13 a 0 d)) (la < 16 && xr a && xr d) rfl rfl fun h => by
  simp only [encSys]
  simp only [xr, Bool.and_eq_true, Bool.or_eq_true, decide_eq_true_eq, beq_iff_eq] at h
  omega
theorem mxCfg (a d : Nat) : Statement (.mxCfg a d) := @of_word (.mxCfg a d) ((encSys 0 16 a 0 d)) (xr a && xr d) rfl rfl fun h => by
  simp only [encSys]
  simp only [xr, Bool.and_eq_true, Bool.or_eq_true, decide_eq_true_eq, beq_iff_eq] at h
  omega
theorem mxWld (la a imm : Nat) : Statement (.mxWld la a imm) := @of_word (.mxWld la a imm) ((encSys la 17 a imm 0)) (la < 16 && cr a && imm < 8) rfl rfl fun h => by
  simp only [encSys]
  simp only [cr, Bool.and_eq_true, Bool.or_eq_true, decide_eq_true_eq, beq_iff_eq] at h
  omega
theorem mxMma (la a b d : Nat) : Statement (.mxMma la a b d) := @of_word (.mxMma la a b d) ((encSys la 18 a b d)) (la < 16 && cr a && cr b && cr d) rfl rfl fun h => by
  simp only [encSys]
  simp only [cr, Bool.and_eq_true, Bool.or_eq_true, decide_eq_true_eq, beq_iff_eq] at h
  omega
theorem mxZero (la d : Nat) : Statement (.mxZero la d) := @of_word (.mxZero la d) ((encSys la 19 0 0 d)) (la < 16 && cr d) rfl rfl fun h => by
  simp only [encSys]
  simp only [cr, Bool.and_eq_true, Bool.or_eq_true, decide_eq_true_eq, beq_iff_eq] at h
  omega
theorem mxSt (la a d : Nat) : Statement (.mxSt la a d) := @of_word (.mxSt la a d) ((encSys la 20 a 0 d)) (la < 16 && cr a && cr d) rfl rfl fun h => by
  simp only [encSys]
  simp only [cr, Bool.and_eq_true, Bool.or_eq_true, decide_eq_true_eq, beq_iff_eq] at h
  omega
theorem mxSwap (la a b : Nat) : Statement (.mxSwap la a b) := @of_word (.mxSwap la a b) ((encSys la 21 a b 0)) (la < 16 && cr a && xr b) rfl rfl fun h => by
  simp only [encSys]
  simp only [xr, cr, Bool.and_eq_true, Bool.or_eq_true, decide_eq_true_eq, beq_iff_eq] at h
  omega
theorem mxAfl (la a b d : Nat) : Statement (.mxAfl la a b d) := @of_word (.mxAfl la a b d) ((encSys la 22 a b d)) (la < 16 && cr a && cr b && cr d) rfl rfl fun h => by
  simp only [encSys]
  simp only [cr, Bool.and_eq_true, Bool.or_eq_true, decide_eq_true_eq, beq_iff_eq] at h
  omega
theorem mxWait (la d : Nat) : Statement (.mxWait la d) := @of_word (.mxWait la d) ((encSys la 23 0 0 d)) (la < 16 && xr d) rfl rfl fun h => by
  simp only [encSys]
  simp only [xr, Bool.and_eq_true, Bool.or_eq_true, decide_eq_true_eq, beq_iff_eq] at h
  omega
theorem mxStat (imm d : Nat) : Statement (.mxStat imm d) := @of_word (.mxStat imm d) ((encSys 0 24 0 imm d)) (imm < 13 && xr d) rfl rfl fun h => by
  simp only [encSys]
  simp only [xr, Bool.and_eq_true, Bool.or_eq_true, decide_eq_true_eq, beq_iff_eq] at h
  omega
theorem mbSend (la a b d : Nat) : Statement (.mbSend la a b d) := @of_word (.mbSend la a b d) ((encSys la 25 a b d)) (la < 16 && cr a && xr b && cr d && (d != a || d == 0)) rfl rfl fun h => by
  simp only [encSys]
  simp only [xr, cr, Bool.and_eq_true, Bool.or_eq_true, decide_eq_true_eq, beq_iff_eq] at h
  omega
theorem mbRecv (la a imm d : Nat) : Statement (.mbRecv la a imm d) := @of_word (.mbRecv la a imm d) ((encSys la 26 a imm d)) (la < 16 && xr a && imm < 8 && cr d) rfl rfl fun h => by
  simp only [encSys]
  simp only [xr, cr, Bool.and_eq_true, Bool.or_eq_true, decide_eq_true_eq, beq_iff_eq] at h
  omega
theorem mbPeek (imm d : Nat) : Statement (.mbPeek imm d) := @of_word (.mbPeek imm d) ((encSys 0 27 0 imm d)) (imm < 8 && xr d) rfl rfl fun h => by
  simp only [encSys]
  simp only [xr, Bool.and_eq_true, Bool.or_eq_true, decide_eq_true_eq, beq_iff_eq] at h
  omega
theorem mvCopy (la a b d : Nat) : Statement (.mvCopy la a b d) := @of_word (.mvCopy la a b d) ((encSys la 28 a b d)) (la < 16 && cr a && cr b && cr d) rfl rfl fun h => by
  simp only [encSys]
  simp only [cr, Bool.and_eq_true, Bool.or_eq_true, decide_eq_true_eq, beq_iff_eq] at h
  omega
theorem rgPop (la a imm d : Nat) : Statement (.rgPop la a imm d) := @of_word (.rgPop la a imm d) ((encSys la 29 a imm d)) (la < 16 && cr a && imm < 8 && cr d) rfl rfl fun h => by
  simp only [encSys]
  simp only [cr, Bool.and_eq_true, Bool.or_eq_true, decide_eq_true_eq, beq_iff_eq] at h
  omega
theorem rgPush (la a b d : Nat) : Statement (.rgPush la a b d) := @of_word (.rgPush la a b d) ((encSys la 30 a b d)) (la < 16 && cr a && cr b && xr d) rfl rfl fun h => by
  simp only [encSys]
  simp only [xr, cr, Bool.and_eq_true, Bool.or_eq_true, decide_eq_true_eq, beq_iff_eq] at h
  omega
theorem rgDone (a imm : Nat) : Statement (.rgDone a imm) := @of_word (.rgDone a imm) ((encSys 0 31 a imm 0)) (cr a && imm < 16) rfl rfl fun h => by
  simp only [encSys]
  simp only [cr, Bool.and_eq_true, Bool.or_eq_true, decide_eq_true_eq, beq_iff_eq] at h
  omega
theorem chSub (la a b d : Nat) : Statement (.chSub la a b d) := @of_word (.chSub la a b d) ((encSys la 32 a b d)) (la < 16 && cr a && cr b && xr d) rfl rfl fun h => by
  simp only [encSys]
  simp only [xr, cr, Bool.and_eq_true, Bool.or_eq_true, decide_eq_true_eq, beq_iff_eq] at h
  omega
theorem chUnsub (la a d : Nat) : Statement (.chUnsub la a d) := @of_word (.chUnsub la a d) ((encSys la 33 a 0 d)) (la < 16 && xr a && xr d) rfl rfl fun h => by
  simp only [encSys]
  simp only [xr, Bool.and_eq_true, Bool.or_eq_true, decide_eq_true_eq, beq_iff_eq] at h
  omega
theorem cdlNew (a b d : Nat) : Statement (.cdlNew a b d) := @of_word (.cdlNew a b d) ((encSys 0 34 a b d)) (cr a && xr b && xr d) rfl rfl fun h => by
  simp only [encSys]
  simp only [xr, cr, Bool.and_eq_true, Bool.or_eq_true, decide_eq_true_eq, beq_iff_eq] at h
  omega
theorem cdlDec (la a b : Nat) : Statement (.cdlDec la a b) := @of_word (.cdlDec la a b) ((encSys la 35 a b 0)) (la < 16 && xr a && xr b) rfl rfl fun h => by
  simp only [encSys]
  simp only [xr, Bool.and_eq_true, Bool.or_eq_true, decide_eq_true_eq, beq_iff_eq] at h
  omega
theorem strNew (a b d : Nat) : Statement (.strNew a b d) := @of_word (.strNew a b d) ((encSys 0 37 a b d)) (xr a && cr b && xr d) rfl rfl fun h => by
  simp only [encSys]
  simp only [xr, cr, Bool.and_eq_true, Bool.or_eq_true, decide_eq_true_eq, beq_iff_eq] at h
  omega
theorem mig (a : Nat) : Statement (.mig a) := @of_word (.mig a) ((encSys 0 40 a 0 0)) (xr a) rfl rfl fun h => by
  simp only [encSys]
  simp only [xr, Bool.and_eq_true, Bool.or_eq_true, decide_eq_true_eq, beq_iff_eq] at h
  omega
theorem tagDecl (la a b d : Nat) : Statement (.tagDecl la a b d) := @of_word (.tagDecl la a b d) ((encSys la 41 a b d)) (la < 16 && cr a && xr b && xr d) rfl rfl fun h => by
  simp only [encSys]
  simp only [xr, cr, Bool.and_eq_true, Bool.or_eq_true, decide_eq_true_eq, beq_iff_eq] at h
  omega
theorem tagPub (la a b d : Nat) : Statement (.tagPub la a b d) := @of_word (.tagPub la a b d) ((encSys la 42 a b d)) (la < 16 && cr a && xr b && xr d) rfl rfl fun h => by
  simp only [encSys]
  simp only [xr, cr, Bool.and_eq_true, Bool.or_eq_true, decide_eq_true_eq, beq_iff_eq] at h
  omega
theorem barArr (a d : Nat) : Statement (.barArr a d) := @of_word (.barArr a d) ((encSys 0 43 a 0 d)) (xr a && xr d) rfl rfl fun h => by
  simp only [encSys]
  simp only [xr, Bool.and_eq_true, Bool.or_eq_true, decide_eq_true_eq, beq_iff_eq] at h
  omega
theorem barWait (la a b d : Nat) : Statement (.barWait la a b d) := @of_word (.barWait la a b d) ((encSys la 44 a b d)) (la < 16 && xr a && xr b && xr d) rfl rfl fun h => by
  simp only [encSys]
  simp only [xr, Bool.and_eq_true, Bool.or_eq_true, decide_eq_true_eq, beq_iff_eq] at h
  omega
theorem slotBorrow (a d : Nat) : Statement (.slotBorrow a d) := @of_word (.slotBorrow a d) ((encSys 0 45 a 0 d)) (xr a && xr d) rfl rfl fun h => by
  simp only [encSys]
  simp only [xr, Bool.and_eq_true, Bool.or_eq_true, decide_eq_true_eq, beq_iff_eq] at h
  omega
theorem slotRet (a : Nat) : Statement (.slotRet a) := @of_word (.slotRet a) ((encSys 0 46 a 0 0)) (xr a) rfl rfl fun h => by
  simp only [encSys]
  simp only [xr, Bool.and_eq_true, Bool.or_eq_true, decide_eq_true_eq, beq_iff_eq] at h
  omega
theorem xmvRd (a imm d : Nat) : Statement (.xmvRd a imm d) := @of_word (.xmvRd a imm d) ((encSys 0 47 a imm d)) (xr a && vr imm && vr d) rfl rfl fun h => by
  simp only [encSys]
  simp only [xr, vr, Bool.and_eq_true, Bool.or_eq_true, decide_eq_true_eq, beq_iff_eq] at h
  omega
theorem xmvWr (a imm d : Nat) : Statement (.xmvWr a imm d) := @of_word (.xmvWr a imm d) ((encSys 0 48 a imm d)) (xr a && vr imm && vr d) rfl rfl fun h => by
  simp only [encSys]
  simp only [xr, vr, Bool.and_eq_true, Bool.or_eq_true, decide_eq_true_eq, beq_iff_eq] at h
  omega
theorem strStop (a : Nat) : Statement (.strStop a) := @of_word (.strStop a) ((encSys 0 49 a 0 0)) (xr a) rfl rfl fun h => by
  simp only [encSys]
  simp only [xr, Bool.and_eq_true, Bool.or_eq_true, decide_eq_true_eq, beq_iff_eq] at h
  omega
theorem strSave (la a b : Nat) : Statement (.strSave la a b) := @of_word (.strSave la a b) ((encSys la 50 a b 0)) (la < 16 && xr a && cr b) rfl rfl fun h => by
  simp only [encSys]
  simp only [xr, cr, Bool.and_eq_true, Bool.or_eq_true, decide_eq_true_eq, beq_iff_eq] at h
  omega
theorem strLoad (la a b : Nat) : Statement (.strLoad la a b) := @of_word (.strLoad la a b) ((encSys la 51 a b 0)) (la < 16 && xr a && cr b) rfl rfl fun h => by
  simp only [encSys]
  simp only [xr, cr, Bool.and_eq_true, Bool.or_eq_true, decide_eq_true_eq, beq_iff_eq] at h
  omega
theorem strGo (a : Nat) : Statement (.strGo a) := @of_word (.strGo a) ((encSys 0 52 a 0 0)) (xr a) rfl rfl fun h => by
  simp only [encSys]
  simp only [xr, Bool.and_eq_true, Bool.or_eq_true, decide_eq_true_eq, beq_iff_eq] at h
  omega
theorem rpt (n b : Nat) : Statement (.rpt n b) := @of_word (.rpt n b) ((encSys 0 53 n b 0)) (0 < n && n < 32 && xr b) rfl rfl fun h => by
  simp only [encSys]
  simp only [xr, Bool.and_eq_true, Bool.or_eq_true, decide_eq_true_eq, beq_iff_eq] at h
  omega
theorem jseg (a d : Nat) : Statement (.jseg a d) := @of_word (.jseg a d) ((encSys 0 54 a 0 d)) (xr a && xr d) rfl rfl fun h => by
  simp only [encSys]
  simp only [xr, Bool.and_eq_true, Bool.or_eq_true, decide_eq_true_eq, beq_iff_eq] at h
  omega
theorem ifetch (la a b : Nat) : Statement (.ifetch la a b) := @of_word (.ifetch la a b) ((encSys la 55 a b 0)) (la < 16 && cr a && xr b) rfl rfl fun h => by
  simp only [encSys]
  simp only [xr, cr, Bool.and_eq_true, Bool.or_eq_true, decide_eq_true_eq, beq_iff_eq] at h
  omega
theorem shk (la a b d : Nat) : Statement (.shk la a b d) := @of_word (.shk la a b d) ((encSys la 56 a b d)) (la < 16 && cr a && xr b && cr d) rfl rfl fun h => by
  simp only [encSys]
  simp only [xr, cr, Bool.and_eq_true, Bool.or_eq_true, decide_eq_true_eq, beq_iff_eq] at h
  omega
theorem edsig (la a b d : Nat) : Statement (.edsig la a b d) := @of_word (.edsig la a b d) ((encSys la 57 a b d)) (la < 16 && cr a && xr b && cr d) rfl rfl fun h => by
  simp only [encSys]
  simp only [xr, cr, Bool.and_eq_true, Bool.or_eq_true, decide_eq_true_eq, beq_iff_eq] at h
  omega
theorem edver (la a b d : Nat) : Statement (.edver la a b d) := @of_word (.edver la a b d) ((encSys la 58 a b d)) (la < 16 && cr a && cr b && xr d) rfl rfl fun h => by
  simp only [encSys]
  simp only [xr, cr, Bool.and_eq_true, Bool.or_eq_true, decide_eq_true_eq, beq_iff_eq] at h
  omega
theorem bist (la a b d : Nat) : Statement (.bist la a b d) := @of_word (.bist la a b d) ((encSys la 59 a b d)) (la < 16 && xr a && xr b && xr d) rfl rfl fun h => by
  simp only [encSys]
  simp only [xr, Bool.and_eq_true, Bool.or_eq_true, decide_eq_true_eq, beq_iff_eq] at h
  omega
theorem drbg (d : Nat) : Statement (.drbg d) := @of_word (.drbg d) ((encSys 0 60 0 0 d)) (xr d) rfl rfl fun h => by
  simp only [encSys]
  simp only [xr, Bool.and_eq_true, Bool.or_eq_true, decide_eq_true_eq, beq_iff_eq] at h
  omega
theorem ecall : Statement .ecall := @of_word .ecall ((115)) (true) rfl rfl fun h => by
  decide
theorem ebreak : Statement .ebreak := @of_word .ebreak ((1048691)) (true) rfl rfl fun h => by
  decide
theorem wfi : Statement .wfi := @of_word .wfi ((273678451)) (true) rfl rfl fun h => by
  decide
theorem tret : Statement .tret := @of_word .tret ((270532723)) (true) rfl rfl fun h => by
  decide
theorem dret : Statement .dret := @of_word .dret ((2065694835)) (true) rfl rfl fun h => by
  decide
theorem cdlDone : Statement .cdlDone := @of_word .cdlDone ((encSys 0 36 0 0 0)) (true) rfl rfl fun h => by
  simp only [encSys]
  decide
theorem strExit : Statement .strExit := @of_word .strExit ((encSys 0 38 0 0 0)) (true) rfl rfl fun h => by
  simp only [encSys]
  decide
theorem strYield : Statement .strYield := @of_word .strYield ((encSys 0 39 0 0 0)) (true) rfl rfl fun h => by
  simp only [encSys]
  decide
theorem lookaheadWindowClose (k w : Nat) : Statement (.lookaheadWindowClose k w) := of_none rfl
theorem trapEntry (k : Nat) : Statement (.trapEntry k) := of_none rfl
theorem watchdogExpiry (k : Nat) : Statement (.watchdogExpiry k) := of_none rfl
theorem waitLimitExpiry (k w : Nat) : Statement (.waitLimitExpiry k w) := of_none rfl
theorem barWaitLimitExpiry (k w : Nat) : Statement (.barWaitLimitExpiry k w) := of_none rfl
theorem timerExpiry (k : Nat) : Statement (.timerExpiry k) := of_none rfl
theorem yieldExpiry (k : Nat) : Statement (.yieldExpiry k) := of_none rfl
theorem waitListRetry (k w : Nat) : Statement (.waitListRetry k w) := of_none rfl
theorem matrixCommandStart (g : Nat) : Statement (.matrixCommandStart g) := of_none rfl
theorem matrixCommandComplete (g u : Nat) : Statement (.matrixCommandComplete g u) := of_none rfl
theorem matrixCommandError (g u : Nat) : Statement (.matrixCommandError g u) := of_none rfl
theorem mxSwapPairing (g : Nat) : Statement (.mxSwapPairing g) := of_none rfl
theorem moveCommandStart (g : Nat) : Statement (.moveCommandStart g) := of_none rfl
theorem moveCommandComplete (id : Nat) : Statement (.moveCommandComplete id) := of_none rfl
theorem ifetchLoadComplete (id : Nat) : Statement (.ifetchLoadComplete id) := of_none rfl
theorem landingPacketCount (id p : Nat) : Statement (.landingPacketCount id p) := of_none rfl
theorem mailboxReservation (id : Nat) : Statement (.mailboxReservation id) := of_none rfl
theorem mailboxReservationRetry (id : Nat) : Statement (.mailboxReservationRetry id) := of_none rfl
theorem byteCopyComplete (id : Nat) : Statement (.byteCopyComplete id) := of_none rfl
theorem messageComplete (id : Nat) : Statement (.messageComplete id) := of_none rfl
theorem ringSlotWrite (id : Nat) : Statement (.ringSlotWrite id) := of_none rfl
theorem churnLoaderPush (sub : Nat) : Statement (.churnLoaderPush sub) := of_none rfl
theorem churnStorerWrite (sub : Nat) : Statement (.churnStorerWrite sub) := of_none rfl
theorem subscriptionEnd (sub : Nat) : Statement (.subscriptionEnd sub) := of_none rfl
theorem codeletDispatch (g : Nat) : Statement (.codeletDispatch g) := of_none rfl
theorem codeletAbort (k : Nat) : Statement (.codeletAbort k) := of_none rfl
theorem migratedStrandEntry (g : Nat) : Statement (.migratedStrandEntry g) := of_none rfl
theorem stopTakesEffect (k : Nat) : Statement (.stopTakesEffect k) := of_none rfl
theorem tagDeclAtHome (id : Nat) : Statement (.tagDeclAtHome id) := of_none rfl
theorem tagPubAtHome (id : Nat) : Statement (.tagPubAtHome id) := of_none rfl
theorem completionNotice (g idx : Nat) : Statement (.completionNotice g idx) := of_none rfl
theorem launchRequest (w : Nat) : Statement (.launchRequest w) := of_none rfl
theorem heldLaunchStart : Statement .heldLaunchStart := of_none rfl
theorem runComplete (idx : Nat) : Statement (.runComplete idx) := of_none rfl
theorem completionReportNext (w : Nat) : Statement (.completionReportNext w) := of_none rfl
theorem exportRequest (w : Nat) : Statement (.exportRequest w) := of_none rfl
theorem revokeRequest (w : Nat) : Statement (.revokeRequest w) := of_none rfl
theorem hostTierGrant (w : Nat) : Statement (.hostTierGrant w) := of_none rfl
theorem writeWrow (w v : Nat) : Statement (.writeWrow w v) := of_none rfl
theorem writeCertificateSlot (w : Nat) : Statement (.writeCertificateSlot w) := of_none rfl
theorem certWriteApply (w : Nat) : Statement (.certWriteApply w) := of_none rfl
theorem evictGranules (w : Nat) : Statement (.evictGranules w) := of_none rfl
theorem restoreGranules (w : Nat) : Statement (.restoreGranules w) := of_none rfl
theorem getTdispVersion (w : Nat) : Statement (.getTdispVersion w) := of_none rfl
theorem getTdispCapabilities (w : Nat) : Statement (.getTdispCapabilities w) := of_none rfl
theorem lockInterfaceRequest (w : Nat) : Statement (.lockInterfaceRequest w) := of_none rfl
theorem getDeviceInterfaceReport (w : Nat) : Statement (.getDeviceInterfaceReport w) := of_none rfl
theorem getDeviceInterfaceState (w : Nat) : Statement (.getDeviceInterfaceState w) := of_none rfl
theorem startInterfaceRequest (w : Nat) : Statement (.startInterfaceRequest w) := of_none rfl
theorem stopInterfaceRequest (w : Nat) : Statement (.stopInterfaceRequest w) := of_none rfl
theorem quiesce (w : Nat) : Statement (.quiesce w) := of_none rfl
theorem quiesceComplete (w : Nat) : Statement (.quiesceComplete w) := of_none rfl
theorem resume (w : Nat) : Statement (.resume w) := of_none rfl
theorem tdispUnsupportedRequest (w b : Nat) : Statement (.tdispUnsupportedRequest w b) := of_none rfl
theorem functionLevelReset (w : Nat) : Statement (.functionLevelReset w) := of_none rfl
theorem ideIntegrityFailure (w : Nat) : Statement (.ideIntegrityFailure w) := of_none rfl
theorem lockedConfigWrite (w : Nat) : Statement (.lockedConfigWrite w) := of_none rfl
theorem separatorStateError (w : Nat) : Statement (.separatorStateError w) := of_none rfl
theorem firmwareActivation (w digest : Nat) : Statement (.firmwareActivation w digest) := of_none rfl
theorem spdmGetVersion (t : Nat) : Statement (.spdmGetVersion t) := of_none rfl
theorem spdmGetCapabilities (t ver : Nat) : Statement (.spdmGetCapabilities t ver) := of_none rfl
theorem spdmNegotiateAlgorithms (t ver asym hash : Nat) : Statement (.spdmNegotiateAlgorithms t ver asym hash) := of_none rfl
theorem spdmGetDigests (t ver : Nat) : Statement (.spdmGetDigests t ver) := of_none rfl
theorem spdmGetCertificate (t ver slot off len : Nat) : Statement (.spdmGetCertificate t ver slot off len) := of_none rfl
theorem spdmChallenge (t ver slot : Nat) : Statement (.spdmChallenge t ver slot) := of_none rfl
theorem spdmGetMeasurements (t ver idx : Nat) : Statement (.spdmGetMeasurements t ver idx) := of_none rfl
theorem spdmUnsupportedRequest (t ver code : Nat) : Statement (.spdmUnsupportedRequest t ver code) := of_none rfl
theorem mapRead (die off len : Nat) : Statement (.mapRead die off len) := of_none rfl
theorem blackBoxRead (die r : Nat) : Statement (.blackBoxRead die r) := of_none rfl
theorem repairRecordRead (idx : Nat) : Statement (.repairRecordRead idx) := of_none rfl
theorem marginAccess (reg wr v : Nat) : Statement (.marginAccess reg wr v) := of_none rfl
theorem selfTest (die word seed : Nat) : Statement (.selfTest die word seed) := of_none rfl
theorem selfTestComplete (die : Nat) : Statement (.selfTestComplete die) := of_none rfl
theorem operatorWorld (v : Nat) : Statement (.operatorWorld v) := of_none rfl
theorem marginPointStart (reg v : Nat) : Statement (.marginPointStart reg v) := of_none rfl
theorem marginPointComplete (reg errs : Nat) : Statement (.marginPointComplete reg errs) := of_none rfl
theorem railOffsetWrite (die v : Nat) : Statement (.railOffsetWrite die v) := of_none rfl
theorem railOffsetApplied (die : Nat) : Statement (.railOffsetApplied die) := of_none rfl
theorem rptcWrite (v : Nat) : Statement (.rptcWrite v) := of_none rfl
theorem wdogWrite (v : Nat) : Statement (.wdogWrite v) := of_none rfl
theorem tdeltaWrite (v : Nat) : Statement (.tdeltaWrite v) := of_none rfl
theorem fmodeWrite (v : Nat) : Statement (.fmodeWrite v) := of_none rfl
theorem mxcfgWrite (v : Nat) : Statement (.mxcfgWrite v) := of_none rfl
theorem registerWrite (csr v : Nat) : Statement (.registerWrite csr v) := of_none rfl
theorem ualinkRetransmit (id : Nat) : Statement (.ualinkRetransmit id) := of_none rfl
theorem ualinkRequestTimeout (id : Nat) : Statement (.ualinkRequestTimeout id) := of_none rfl
theorem duplicateCacheExpiry (st idx : Nat) : Statement (.duplicateCacheExpiry st idx) := of_none rfl
theorem busyRetry (id : Nat) : Statement (.busyRetry id) := of_none rfl
theorem windowOpen (st idx peer : Nat) : Statement (.windowOpen st idx peer) := of_none rfl
theorem windowAccessAtExporter (st idx gen off len wr v : Nat) : Statement (.windowAccessAtExporter st idx gen off len wr v) := of_none rfl
theorem apertureRead (w off len : Nat) : Statement (.apertureRead w off len) := of_none rfl
theorem apertureWrite (w off len v : Nat) : Statement (.apertureWrite w off len v) := of_none rfl
theorem cxlSnoop (sector : Nat) : Statement (.cxlSnoop sector) := of_none rfl
theorem foreignWorldRequest (die k oid : Nat) : Statement (.foreignWorldRequest die k oid) := of_none rfl
theorem correctableError (die cls res : Nat) : Statement (.correctableError die cls res) := of_none rfl
theorem uncorrectableError (die cls res : Nat) : Statement (.uncorrectableError die cls res) := of_none rfl
theorem linkCrcFailure (die lane replays : Nat) : Statement (.linkCrcFailure die lane replays) := of_none rfl
theorem errorWindowBoundary (die : Nat) : Statement (.errorWindowBoundary die) := of_none rfl
theorem tileFence (g : Nat) : Statement (.tileFence g) := of_none rfl
theorem keyEndZeroFillComplete (port key : Nat) : Statement (.keyEndZeroFillComplete port key) := of_none rfl
theorem powerThrottle (die : Nat) : Statement (.powerThrottle die) := of_none rfl
theorem coldReset : Statement .coldReset := of_none rfl
theorem warmReset : Statement .warmReset := of_none rfl
theorem haltRequest (k : Nat) : Statement (.haltRequest k) := of_none rfl
theorem debugHalt (k : Nat) : Statement (.debugHalt k) := of_none rfl
theorem tileStop (g : Nat) : Statement (.tileStop g) := of_none rfl
theorem tileResume (g : Nat) : Statement (.tileResume g) := of_none rfl
theorem debugResume (k : Nat) : Statement (.debugResume k) := of_none rfl
theorem accessRegister (k reg wr v : Nat) : Statement (.accessRegister k reg wr v) := of_none rfl
theorem programBufferExecute (k : Nat) : Statement (.programBufferExecute k) := of_none rfl
theorem throttleEnd (die : Nat) : Statement (.throttleEnd die) := of_none rfl
theorem traceBufferWrite (g : Nat) : Statement (.traceBufferWrite g) := of_none rfl
theorem cxlLinkTraining (p width speed : Nat) : Statement (.cxlLinkTraining p width speed) := of_none rfl
theorem malformedRequest (w : Nat) : Statement (.malformedRequest w) := of_none rfl
theorem strandEntryRetry (id : Nat) : Statement (.strandEntryRetry id) := of_none rfl
theorem entropyHealthFailure : Statement .entropyHealthFailure := of_none rfl

end Sys2Proof.Laws.WellFormedBits
end

