-- ==== Sys2Proof/Tests/Slice0.lean ====
section
/-! SUPPORT. The model's own tests: words written out from the encodings of 02, ill-formed terms, single steps on small states with
results taken from the spec's examples or computed by hand, and witnesses for the hypotheses of the statements. -/
open Sys2Proof Sys2Proof.Machine Sys2Proof.Claim
set_option Elab.async false

/-! ### Words -/

theorem test_decode_samples : Obligations.DecodeSamples := by
  unfold Obligations.DecodeSamples
  refine ⟨rfl, rfl, rfl, rfl, rfl, rfl, rfl, rfl, rfl, rfl, rfl, rfl⟩

-- Standard formats, by R29 and the RISC-V field places that it gives.
theorem test_decode_standard : decode 0x123450B7 = .ok (.lui 1 0x12345) ∧ decode 0x00209093 = .ok (.slli 1 1 2) ∧
    decode 0x4020D093 = .ok (.srai 1 1 2) ∧ decode 0x402080B3 = .ok (.sub 1 1 2) ∧ decode 0x0220C0B3 = .ok (.div 1 1 2) ∧
    decode 0xFE209CE3 = .ok (.bne 1 2 0x1FF8) ∧ decode 0x00410167 = .ok (.jalr 2 2 4) ∧ decode 0x0020809B = .ok (.addiw 1 1 2) :=
  ⟨rfl, rfl, rfl, rfl, rfl, rfl, rfl, rfl⟩
-- 05: the examples of R128, R130, R139, R141 and the first worked encoding of 02.
theorem test_decode_mem : decode 0x2302720B = .ok (.vld 2 3 2 4) ∧ decode 0x3202328B = .ok (.ldD 3 2 2 5) ∧
    decode 0x0240F30B = .ok (.vlds 0 2 4 6) ∧ decode 0x0477FB0B = .ok (.stFeRel 0 4 7 6) ∧ decode 0x239BF40B = .ok (.landWait 2 3 9 8) :=
  ⟨rfl, rfl, rfl, rfl, rfl⟩
-- 06: the examples of R162.
theorem test_decode_amo : decode 0x1360D28B = .ok (.amoAdd 1 3 6 5) ∧ decode 0x0289D28B = .ok (.amoCas 0 2 8 5) := ⟨rfl, rfl⟩
-- 02, 08: the examples of VEC-A, VEC-B and the 16-bit forms.
theorem test_decode_vector : decode 0xB4CA712B = .ok (.vfma 2 3 5 7 2) ∧ decode 0x8448512B = .ok (.vcmplt 2 1 4 5 2) ∧
    decode 0x8C4E01DB = .ok (.vcvt 2 1 7 0 3) ∧ decode 0x9188445B = .ok (.vquant 6 4 4 8) ∧ decode 0xB4022A5B = .ok (.laccMadd 1 2 20) ∧
    decode 0xAC060A5B = .ok (.laccAdd 2 0 3 20) ∧ decode 0xB126 = .ok (.vmaxWN 2 9) ∧ decode 0x51A6 = .ok (.vfaddF32N 3 9) :=
  ⟨rfl, rfl, rfl, rfl, rfl, rfl, rfl, rfl⟩
-- 03, 04, 14: rpt, jseg, capabilities, keys.
theorem test_decode_sys : decode 0x0D46507B = .ok (.rpt 3 5) ∧ decode 0x0D8C00FB = .ok (.jseg 6 1) ∧ decode 0x00C672FB = .ok (.csplit 3 7 5) ∧
    decode 0x0204837B = .ok (.cinfo 2 8 6) ∧ decode 0x0292527B = .ok (.objNew 9 5 4) ∧ decode 0x030002FB = .ok (.keyNew 5) ∧
    decode 0x134C02FB = .ok (.keyEnd 1 6 5) ∧ decode 0x1DC4507B = .ok (.ifetch 1 2 5) := ⟨rfl, rfl, rfl, rfl, rfl, rfl, rfl, rfl⟩
-- 09: the examples of R240.
theorem test_decode_matrix : decode 0x040E037B = .ok (.mxCfg 7 6) ∧ decode 0x1448307B = .ok (.mxWld 1 4 3) ∧
    decode 0x348A647B = .ok (.mxMma 3 5 6 8) ∧ decode 0x04C0047B = .ok (.mxZero 0 8) ∧ decode 0x051004FB = .ok (.mxSt 0 8 9) ∧
    decode 0x0546907B = .ok (.mxSwap 0 3 9) ∧ decode 0x0584357B = .ok (.mxAfl 0 2 3 10) ∧ decode 0x05C002FB = .ok (.mxWait 0 5) ∧
    decode 0x060022FB = .ok (.mxStat 2 5) := ⟨rfl, rfl, rfl, rfl, rfl, rfl, rfl, rfl, rfl⟩
-- 10: the examples of R265.
theorem test_decode_move : decode 0x064A707B = .ok (.mbSend 0 5 7 0) ∧ decode 0x168C21FB = .ok (.mbRecv 1 6 2 3) ∧
    decode 0x06C022FB = .ok (.mbPeek 2 5) ∧ decode 0x2704347B = .ok (.mvCopy 2 2 3 8) ∧ decode 0x074812FB = .ok (.rgPop 0 4 1 5) ∧
    decode 0x178893FB = .ok (.rgPush 1 4 9 7) ∧ decode 0x07C8907B = .ok (.rgDone 4 9) ∧ decode 0x1808737B = .ok (.chSub 1 4 7 6) ∧
    decode 0x084C02FB = .ok (.chUnsub 0 6 5) := ⟨rfl, rfl, rfl, rfl, rfl, rfl, rfl, rfl, rfl⟩
-- 11: the examples of R302.
theorem test_decode_work : decode 0x088862FB = .ok (.cdlNew 4 6 5) ∧ decode 0x18CA607B = .ok (.cdlDec 1 5 6) ∧ decode 0x0900007B = .ok .cdlDone ∧
    decode 0x094C72FB = .ok (.strNew 6 7 5) ∧ decode 0x0980007B = .ok .strExit ∧ decode 0x09C0007B = .ok .strYield ∧
    decode 0x0A0C007B = .ok (.mig 6) ∧ decode 0x2A4862FB = .ok (.tagDecl 2 4 6 5) ∧ decode 0x0A8683FB = .ok (.tagPub 0 3 8 7) ∧
    decode 0x0B4C02FB = .ok (.slotBorrow 6 5) ∧ decode 0x0B8C007B = .ok (.slotRet 6) ∧ decode 0x0BCCC1FB = .ok (.xmvRd 6 12 3) ∧
    decode 0x0C0CC1FB = .ok (.xmvWr 6 12 3) := ⟨rfl, rfl, rfl, rfl, rfl, rfl, rfl, rfl, rfl, rfl, rfl, rfl, rfl⟩
-- 12, 14, 17: the examples of R324, R371 and R400.
theorem test_decode_others : decode 0x0C4C007B = .ok (.strStop 6) ∧ decode 0x1C8C707B = .ok (.strSave 1 6 7) ∧
    decode 0x0CCC707B = .ok (.strLoad 0 6 7) ∧ decode 0x0D0C007B = .ok (.strGo 6) ∧ decode 0x0ACC02FB = .ok (.barArr 6 5) ∧
    decode 0x1B0C72FB = .ok (.barWait 1 6 7 5) ∧ decode 0x1E0A627B = .ok (.shk 1 5 6 4) ∧ decode 0x0E4A627B = .ok (.edsig 0 5 6 4) ∧
    decode 0x0E8853FB = .ok (.edver 0 4 5 7) ∧ decode 0x0F0002FB = .ok (.drbg 5) ∧ decode 0x1ECC72FB = .ok (.bist 1 6 7 5) :=
  ⟨rfl, rfl, rfl, rfl, rfl, rfl, rfl, rfl, rfl, rfl, rfl⟩
-- 02 R29: registers x16 to x31 are ILLEGAL; R76: rpt of no instruction; R103: selector 14; R168: a format code beyond the table.
theorem test_decode_rejects : (decode 0x01000033).isOk = false ∧ (decode 0x0D40507B).isOk = false ∧ (decode 0x0204E37B).isOk = false ∧
    (decode 0x0000007F).isOk = false ∧ (decode 0x10400073).isOk = false := ⟨rfl, rfl, rfl, rfl, rfl⟩

/-! ### Ill-formed terms, one for each check -/

theorem test_illformed_x : wf (.add 16 1 2) = false ∧ wf (.add 1 16 2) = false ∧ wf (.add 1 2 16) = false := ⟨rfl, rfl, rfl⟩
theorem test_illformed_imm : wf (.addi 1 2 4096) = false ∧ wf (.lui 1 (2 ^ 20)) = false ∧ wf (.slli 1 2 64) = false ∧
    wf (.slliw 1 2 32) = false ∧ wf (.ldD 0 1 256 2) = false ∧ wf (.csrrwi 1 0x8C0 32) = false ∧ wf (.csrrw 1 4096 2) = false :=
  ⟨rfl, rfl, rfl, rfl, rfl, rfl, rfl⟩
theorem test_illformed_offset : wf (.jal 1 3) = false ∧ wf (.jal 1 (2 ^ 21)) = false ∧ wf (.beq 1 2 8192) = false ∧
    wf (.beq 1 2 5) = false := ⟨rfl, rfl, rfl, rfl⟩
theorem test_illformed_la : wf (.ldD 16 1 0 2) = false ∧ wf (.mxWait 16 1) = false := ⟨rfl, rfl⟩
theorem test_illformed_c : wf (.ldD 0 16 0 2) = false ∧ wf (.cld 1 0) = false ∧ wf (.csplit 3 7 3) = false ∧ wf (.cjoin 3 3) = false :=
  ⟨rfl, rfl, rfl, rfl⟩
theorem test_illformed_v : wf (.vadd 2 0 32 1 1) = false ∧ wf (.vadd 4 0 1 1 1) = false ∧ wf (.vadd 2 8 1 1 1) = false ∧
    wf (.mand 8 1 1) = false ∧ wf (.vcmpeq 2 0 1 1 8) = false := ⟨rfl, rfl, rfl, rfl, rfl⟩
theorem test_illformed_pair : wf (.landGet 0 1 2 5) = false ∧ wf (.amoCas 0 2 7 5) = false ∧ wf (.amoDeq 0 2 5 5) = false ∧
    wf (.vlds 0 2 5 6) = false := ⟨rfl, rfl, rfl, rfl⟩
theorem test_illformed_codes : wf (.vcvt 2 0 1 63 2) = false ∧ wf (.vquant 6 5 4 8) = false ∧ wf (.vquant 6 4 0 8) = false ∧
    wf (.vquant 6 4 4 5) = false ∧ wf (.laccRd 1 63 2) = false ∧ wf (.laccMadd 1 2 1) = false ∧ wf (.cinfo 2 14 6) = false ∧
    wf (.mxStat 13 5) = false ∧ wf (.rpt 0 5) = false ∧ wf (.rpt 32 5) = false :=
  ⟨rfl, rfl, rfl, rfl, rfl, rfl, rfl, rfl, rfl, rfl⟩

/-! ### Small states -/

/-- Reset, with a persistent strand in slot 0 of tile 0, which a run with 32 vector registers holds; overlay slot 0 is loaded. -/
def Sys2Proof.Test.st : State :=
  let s := State.reset.updTile 0 fun t => { t with run := true, runid := 1, pword := 0x401, ov := [(0, { valid := true, landed := true })] }
  { s.updSlot 0 fun t => { t with occ := .persistent } with cur := 0 }
/-- x registers of the strand. -/
def Sys2Proof.Test.xs (s : State) (l : List (Nat × Nat)) : State := l.foldl (fun s p => s.upd (·.setX p.1 (BitVec.ofNat 64 p.2))) s
/-- Capabilities of the strand: register, rights, object id, length, base. -/
def Sys2Proof.Test.cs (s : State) (l : List (Nat × Nat × Nat × Nat × Nat)) : State :=
  l.foldl (fun s p => s.upd (·.setC p.1 (Cap.mk' 1 p.2.1 p.2.2.1 p.2.2.2.1 p.2.2.2.2))) s
/-- Objects of tile 0: id, storage address, length. -/
def Sys2Proof.Test.objs (s : State) (l : List (Nat × Nat × Nat)) : State :=
  l.foldl (fun s p => { s with entries := sput {} s.entries p.1 { base := p.2.1, len := p.2.2, valid := true, resident := true } }) s
/-- What holds of a next state. -/
def Sys2Proof.Test.after (o : Host.Outcome State Fault Refusal) (p : State → Bool) : Bool :=
  match o with
  | .next t => p t
  | _ => false
open Sys2Proof.Test

/-- Object 5 of the tile's own pool, at 0x10000, in c2; object 7 of HBM, at 0x40000, in c3. -/
def Sys2Proof.Test.so : State :=
  cs (objs st [(5, 0x10000, 0x8000), (mkOid 0 68 7, 0x40000, 0x8000)]) [(2, 0xD8, 5, 0x8000, 0), (3, 0xD8, mkOid 0 68 7, 0x8000, 0)]

/-! ### Single steps, with results from the spec's examples or by hand -/

-- 03 R68: 2^64 wraps; a W form takes bit 31 as sign.
theorem test_add_wraps : after (exec (.add 1 1 2) (xs st [(1, 2 ^ 64 - 1), (2, 2)])) (fun t => t.x 1 == 1) = true := by decide +kernel
theorem test_addw_sign : after (exec (.addw 1 2 3) (xs st [(2, 0x7FFFFFFF), (3, 1)])) (fun t => t.x 1 == 0xFFFFFFFF80000000) = true := by
  decide +kernel
theorem test_srai : after (exec (.srai 1 2 63) (xs st [(2, 2 ^ 63)])) (fun t => t.x 1 == BitVec.allOnes 64) = true := by decide +kernel
theorem test_x0_discards : after (exec (.addi 0 0 5) st) (fun t => t.x 0 == 0 && t.me.pc == 4) = true := by decide +kernel
-- 03 R69: the exceptional divisions.
theorem test_div_zero : after (exec (.div 1 2 3) (xs st [(2, 7)])) (fun t => t.x 1 == BitVec.allOnes 64) = true := by decide +kernel
theorem test_div_overflow : after (exec (.div 1 2 3) (xs st [(2, 2 ^ 63), (3, 2 ^ 64 - 1)])) (fun t => t.x 1 == 0x8000000000000000) = true := by
  decide +kernel
theorem test_rem_sign : after (exec (.rem 1 2 3) (xs st [(2, 2 ^ 64 - 7), (3, 3)])) (fun t => t.x 1 == BitVec.ofInt 64 (-1)) = true := by
  decide +kernel
theorem test_mulhsu : after (exec (.mulhsu 1 2 3) (xs st [(2, 2 ^ 64 - 1), (3, 2 ^ 64 - 1)])) (fun t => t.x 1 == BitVec.allOnes 64) = true := by
  decide +kernel
-- 03 R71: JALR with its destination as base takes the old value; a target beyond 0xFFFE is PC_RANGE (cause 14 of 13 R339).
theorem test_jalr_old : after (exec (.jalr 2 2 4) (xs st [(2, 0x101)])) (fun t => t.me.pc == 0x104 && t.x 2 == 4) = true := by decide +kernel
theorem test_jal_range : after (exec (.jal 1 0x1FFFFE) st) (fun t => t.me.tcause == BitVec.ofNat 64 cPC_RANGE && t.x 1 == 0) = true := by
  decide +kernel
-- 03 R79: the example of jseg: x6 = 0x0_4100, segment 2 in overlay slot 5, pc becomes 0xA100.
theorem test_jseg : after (exec (.jseg 6 1) ((xs st [(6, 0x4100)]).updTile 0 fun t =>
    { t with ov := sput {} t.ov 5 { seg := 2, valid := true, landed := true } })) (fun t => t.me.pc == 0xA100 && t.x 1 == 4) = true := by
  decide +kernel
-- 03 R76: the example rpt 3, x5 with x5 = 4.
theorem test_rpt : after (exec (.rpt 3 5) (xs st [(5, 4)])) (fun t => t.me.rptLive && bits t.me.rptc.toNat 0 32 == 3 &&
    bits t.me.rptc.toNat 40 5 == 2) = true := by decide +kernel
-- 13 R336: ECALL at pc 0 (cause 20): held set, pie from ie, ie clear.
theorem test_ecall : after (exec .ecall st) (fun t => t.me.tcause == 20 && t.me.tstat == 0x1002 && t.me.mode == .s && t.me.trpc == 0) = true := by
  decide +kernel
-- 02 R49: U mode has no right to tvec.
theorem test_csr_mode : after (exec (.csrrw 1 0x5C0 2) st) (fun t => t.me.tcause == BitVec.ofNat 64 cMODE) = true := by decide +kernel
-- 07 R175: a rounding mode of 5 to 7 is not written.
theorem test_csr_fmode : after (exec (.csrrw 1 0x8C0 2) (xs st [(2, 0x16)])) (fun t => t.me.fmode == 0x10) = true := by decide +kernel
-- 05 R139: a store of a doubleword and its bytes, the least significant first.
theorem test_st_d : after (exec (.stD 0 2 1 4) (xs so [(4, 0x1122334455667788)])) (fun t =>
    mbytes t.mem (0x10000 + 8) 8 == [0x88, 0x77, 0x66, 0x55, 0x44, 0x33, 0x22, 0x11]) = true := by decide +kernel
-- 05 R139: ld.b extends the sign.
theorem test_ld_b : after (exec (.ldB 0 2 0 4) { so with mem := mwrite so.mem 0x10000 [0x80] }) (fun t =>
    t.me.wins.map (·.st) == [.done { xs := [(4, 0xFFFFFFFFFFFFFF80)] }]) = true := by decide +kernel
-- 04 R86: one byte beyond the end is CAP_BOUNDS with its address (cause 3), an odd doubleword MISALIGNED.
theorem test_ld_bounds : after (exec (.ldD 0 2 1 4) (cs so [(2, 0xD8, 5, 12, 0)])) (fun t =>
    t.me.tcause == BitVec.ofNat 64 cCAP_BOUNDS && t.me.tval == 12) = true := by decide +kernel
theorem test_ld_null : after (exec (.ldD 0 4 0 4) so) (fun t => t.me.tcause == BitVec.ofNat 64 cCAP_NULL && t.me.tval == 4) = true := by
  decide +kernel
-- 05 R128: ld.fet of a full word empties it.
theorem test_ld_fet : after (exec (.ldFet 0 2 4 5) { so with mem := mwrite so.mem 0x10000 [9] }) (fun t =>
    !t.feBit 0x10000 && t.me.wins.map (·.st) == [.done { xs := [(5, 9)], acquire := true }]) = true := by decide +kernel
-- 05 R129: the example: 512 of target 512 counted, gen 7 becomes 8 and the doubleword reads 0x0800_0000_0000_0200.
theorem test_land_count : ({ so with mem := mwrite so.mem 0x10000 (toBytes 8 0x0700000000000200 ++ toBytes 8 (2 ^ 56 + 448)) }.landCount
    0x10000 (some 64) 0).land0 0x10000 = 0x0800000000000200 := by decide +kernel
-- 06 R164: the example of amo.fadd under RNE and under RDN.
def Sys2Proof.Test.fa (rm : Nat) : State :=
  let s := xs (so.updSlot 0 fun t => { t with fmode := BitVec.ofNat 64 rm }) [(6, 0x400000003E800000)]
  let o := mkOid 0 68 7
  { s with entries := sput {} s.entries o { s.entry o with amo := true } }.putWord o (s.entry o) 0 0xC00000003FC00000 |> (cs · [(3, 0xF8, o, 0x8000, 0)])
theorem test_amo_fadd_rne : after (exec (.amoFadd 0 3 6 0) (fa 0)) (fun t => let o := mkOid 0 68 7
    t.objWord o (t.entry o) 0 == 0x000000003FE00000 && t.me.fmode == 0) = true := by decide +kernel
theorem test_amo_fadd_rdn : after (exec (.amoFadd 0 3 6 5) (fa 2)) (fun t => let o := mkOid 0 68 7
    t.objWord o (t.entry o) 0 == 0x800000003FE00000 && t.me.wins.map (·.st) == [.done { xs := [(5, 0xC00000003FC00000)], acquire := true }]) = true := by
  decide +kernel
-- 06 R165, R166: operations 3 and 4 of the example: a full queue answers all ones; the first dequeue answers 0 and 0x41.
def Sys2Proof.Test.qu : State :=
  let s := fa 0
  let o := mkOid 0 68 7
  let e := s.entry o
  ((((((xs s [(6, 0x43)]).putWord o e 0 0).putWord o e 8 2).putWord o e 16 2).putWord o e 24 0).putWord o e 32 0x41).putWord o e 40 0x42
theorem test_amo_enq_full : after (exec (.amoEnq 0 3 6 5) qu) (fun t => t.me.wins.map (·.st) ==
    [.done { xs := [(5, BitVec.allOnes 64)], acquire := true }]) = true := by decide +kernel
theorem test_amo_deq : after (exec (.amoDeq 0 3 6 5) qu) (fun t => t.me.wins.map (·.st) ==
    [.done { xs := [(5, 0), (6, 0x41)], acquire := true }]) = true := by decide +kernel
-- 08 R197, R193: element 1 of bytes wraps; a guarded-out element keeps its value.
theorem test_vadd_b : after (exec (.vadd 0 1 1 2 3) ((st.upd fun t => ((t.setV 1 0xFF02).setV 2 0x0203).setV 3 0x99).upd (·.setM 1 2))) (fun t =>
    t.me.getV 3 == 0x0199) = true := by decide +kernel
-- 08 R198: the example vcmplt.w m2, v4, v5, m1: bits 4i to 4i + 3 of a computed element.
theorem test_vcmplt : after (exec (.vcmplt 2 1 4 5 2) ((st.upd fun t => ((t.setV 4 0xFFFFFFFF).setV 5 (1 <<< 32))).upd (·.setM 1 0x11))) (fun t =>
    t.me.getM 2 == 0xFF) = true := by decide +kernel
-- 08 R199: 1.5 + 2.25 in FP32 is 3.75 in element 0, exact.
theorem test_vfadd : after (exec (.vfadd 2 0 1 2 3) (st.upd fun t => (t.setV 1 0x3FC00000).setV 2 0x40100000)) (fun t =>
    el (t.me.getV 3) 4 0 == 0x40700000 && t.me.fmode == 0) = true := by decide +kernel
-- 07 R183: the example: 0.35 by the scale 0.1 gives 3 in INT8 with NX, and 0x46 in E4M3.
theorem test_vquant_int8 : after (exec (.vquant 6 4 10 8) (xs (st.upd (·.setV 4 0x3EB33333)) [(6, 0x3DCCCCCD)])) (fun t =>
    el (t.me.getV 8) 1 0 == 3) = true := by decide +kernel
theorem test_vquant_e4m3 : after (exec (.vquant 6 4 4 8) (xs (st.upd (·.setV 4 0x3EB33333)) [(6, 0x3DCCCCCD)])) (fun t =>
    el (t.me.getV 8) 1 0 == 0x46) = true := by decide +kernel
-- 08 R220: the example: 2^300 and the addend of −2^-149 give bits 151 to 299, W = 3; lacc.rd gives 1.0 with NX.
theorem test_lacc_add : after (exec (.laccAdd 2 0 3 20) (st.upd fun t => (t.setV 20 (1 <<< 300)).setV 3 0x80000001)) (fun t =>
    t.me.getV 20 == (1 <<< 300) - (1 <<< 151) && t.me.nextAt == 11) = true := by decide +kernel
theorem test_lacc_rd : after (exec (.laccRd 20 0 21) (st.upd (·.setV 20 ((1 <<< 300) - (1 <<< 151))))) (fun t =>
    t.me.getV 21 == 0x3F800000 && t.me.fmode.toNat / 16 % 32 != 0) = true := by decide +kernel
-- 12 R316: step 3 of the example: the second arrival completes the phase.
theorem test_barrier : Bar.arrive { k := 0, ph := [(2, 1), (2, 1), (2, 1), (2, 1)] } 0 2 = some { k := 1, ph := [(2, 1), (2, 1), (2, 1)] } := by
  decide +kernel
-- 10 R260: step 1 of the example: a pad record that starts at 32,000, the message at 0 of the next round.
theorem test_reserve_pad : reserve 31744 32000 32000 32768 1024 = some (31744, 33792, 32000, some 32000, 32768) := by decide +kernel
-- 04 R97: csplit c5, c3, x7 at offset 0x100.
theorem test_csplit : after (exec (.csplit 3 7 5) (xs so [(7, 0x100)])) (fun t => (t.c 3).l == 0x100 && (t.c 5).b == 0x100 &&
    (t.c 5).l == 0x7F00 && !(t.c 3).has rS) = true := by decide +kernel
-- 04 R103: cinfo x6, c2, 8 reads the object's length.
theorem test_cinfo : after (exec (.cinfo 2 8 6) so) (fun t => t.x 6 == 0x8000) = true := by decide +kernel
-- 09 R241: the example mxcfg = 0x0008_0884 is admitted; a rounding mode of 5 is not.
theorem test_mx_cfg : after (exec (.mxCfg 7 6) (xs st [(7, 0x00080884)])) (fun t => t.x 6 == 0 && t.me.mxcfg == 0x80884) = true := by
  decide +kernel
theorem test_mx_cfg_refused : after (exec (.mxCfg 7 6) (xs st [(7, 0x000A8884)])) (fun t => t.x 6 != 0 && t.me.mxcfg == 0) = true := by
  decide +kernel
-- 03 R52: the fetch and issue of ADD x1, x2, x3 as the next step.
theorem test_step_add : after (step ((xs st [(2, 5), (3, 7)]).withFetchWord 32 0x003100B3)) (fun t => (t.slot 0).getX 1 == 12 && (t.slot 0).pc == 4) = true := by
  decide +kernel
-- 07 R188: the example: 1.0 and the products 2^-25, 2^-25, 2^-25 and 0 in BF16, with one rounding.
theorem test_bf16_group : wideGroup 0 false ([0x3300, 0x3300, 0x3300, 0].map (readFmt 2)) ([0x3F80, 0x3F80, 0x3F80, 0x3F80].map (readFmt 2)) 0x3F800000 =
    (0x3F800001, fNX) := by decide +kernel
-- 13 R333, R338: the example of a deferred fault: tcause 5, tval the object, trpc 0x2048, tstat 0x2040_3002.
theorem test_deferred_trap : after (exec (.trapEntry 0) (st.upd fun t => { t with pc := 0x2048, dfs := [(1, cCAP_STALE, 5, 0x2040)] })) (fun t =>
    t.me.tcause == 5 && t.me.tval == 5 && t.me.trpc == 0x2048 && t.me.tstat == 0x20403002 && t.x 5 == 0) = true := by decide +kernel
-- 09 R238: the example: mx.mma of one K block of E4M3 takes 16 + 128 + 16 cycles, mx.wld 8 + 65.
theorem test_mx_cycles :
    let c := fun op => ({ id := 1, key := 0, win := 1, g := 0, at_ := 0, lkey := 0, mx := true, op := op } : Cmd)
    so.mxCycles (c (.mma (so.c 2) (so.c 2) .null 0x84)) [] = 160 ∧ so.mxCycles (c (.wld (so.c 2) 1 4)) [] = 73 := by decide +kernel

/-! ### The hypotheses of the statements are met -/

/-- A command of tile 0 and strand 0. -/
def Sys2Proof.Test.cmd (mx : Bool) (op : CmdOp) : Cmd := { id := 1, key := 0, win := 1, g := 0, at_ := 0, lkey := 0, mx := mx, op := op }

theorem witness_ControlTransfers : (st.me.pc + (BitVec.ofNat 21 8).signExtend 64).toNat ≤ 0xFFFE ∧
    0xFFFE < (st.me.pc + (BitVec.ofNat 21 0x1FFFFE).signExtend 64).toNat ∧ ((xs st [(1, 0xFFFE)]).x 1 + sext12 1 &&& ~~~1).toNat = 0xFFFE ∧
    tableBr.map (fun p => p.2 (st.x 1) (st.x 2)) = [true, false, false, true, false, true] := by decide +kernel
theorem witness_CsrAccess : (∃ d c f, csrNew st (.csrrs 1 0x8C0 0) = some (d, c, f) ∧ csrAccess c = some (.rw, .rw) ∧ f 7 = none) ∧
    csrAccess 0x123 = none ∧ csrRight .u (Acc.no, Acc.rw) = .no ∧ (csrAccess 0x5C0).map (csrRight .u) = some .no := by
  refine ⟨⟨_, _, _, rfl, by decide +kernel, rfl⟩, by decide +kernel, by decide +kernel, by decide +kernel⟩
theorem witness_VectorIntegers : VFile st [31, 16, 0] ([31, 16] ++ oldOf 1 0) ∧ VFile State.reset [15, 0] [15] := by
  simp only [VFile, oldOf]; decide +kernel
theorem witness_VectorFloats : VFile st [1, 2, 31] [1, 2, 31] ∧ VFile st [1, 31] ([1] ++ oldOf 0 31) ∧ VFile st [31] (oldOf 7 31) := by
  simp only [VFile, oldOf]; decide +kernel
theorem witness_VectorSelectionAndReductions : VFile st [1, 2, 31] [1, 2] ∧ VFile st [31] [31] ∧
    (selected (st.upd (·.setM 1 0x11)) 4 1 3).length = 2 := by
  simp only [VFile]; decide +kernel
theorem witness_VectorConversions : vcvtCode 0 = true ∧ quantCode 4 = true ∧ VFile st [4, 8] [4, 5, 6, 7] ∧ VFile st [28, 31] [28] := by
  simp only [VFile]; decide +kernel
theorem witness_MasksAndAccumulator : UnitFree st ∧ VFile st [20, 3, 20] [3, 20] ∧ laccCode 0 = true := by
  simp only [VFile, UnitFree]; decide +kernel
theorem witness_LoadInstructions : MayAccess so (so.c 2) rR false ∧
    (∀ p ∈ tableLd, Readable so (so.c 2) (memOff (so.c 2) 127 p.2.1) p.2.1 ∧ (memOff (so.c 2) 127 p.2.1).toNat % p.2.1 = 0) ∧
    Readable so (so.c 2) (memOff (so.c 2) 1 128) 128 ∧
    (∀ a ∈ strided (so.c 2) 0 (2 ^ 62 + 4), Readable so (so.c 2) a 2 ∧ a.toNat % 2 = 0) ∧
    (∀ a ∈ indexed (so.c 2) 0x7FFC, Readable so (so.c 2) a 4 ∧ a.toNat % 4 = 0) ∧
    InRange (so.c 2) (xOff (so.c 2) 0) (127 * 128 + 1) ∧ isOwn so.gta (so.c 2).o = true ∧
    so.markedIn 0 (flat 0 0x10000) 8 = false := by
  simp only [MayAccess, RoomForWindow, AccessFree, Readable, InRange]; decide +kernel
theorem witness_LoadInstructions_hbm : MayAccess so (so.c 3) rR false ∧ Readable so (so.c 3) (memOff (so.c 3) 0 8) 8 := by
  simp only [MayAccess, RoomForWindow, AccessFree, Readable, InRange]; decide +kernel
theorem witness_SramStores : MayAccess so (so.c 2) rW true ∧ isSram (so.c 2).o = true ∧ so.me.restartable = false ∧
    (∀ p ∈ tableSt, Writable so (so.c 2) (memOff (so.c 2) 127 p.2) p.2 ∧ (memOff (so.c 2) 127 p.2).toNat % p.2 = 0) ∧
    Writable so (so.c 2) (memOff (so.c 2) 1 128) 128 ∧
    (∀ a ∈ strided (so.c 2) 0 (2 ^ 62 + 4), Writable so (so.c 2) a 2 ∧ a.toNat % 2 = 0) ∧
    (∀ a ∈ indexed (so.c 2) 0x7FFC, Writable so (so.c 2) a 4 ∧ a.toNat % 4 = 0) := by
  simp only [MayAccess, RoomForWindow, AccessFree, Writable, InRange]; decide +kernel
theorem witness_OtherStores_hbm : MayAccess so (so.c 3) rW true ∧ isSram (so.c 3).o = false ∧ so.me.restartable = false ∧
    (∀ p ∈ tableSt, Writable so (so.c 3) (memOff (so.c 3) 127 p.2) p.2) ∧ (so.entry (so.c 3).o).ext = false ∧
    (so.entry (so.c 3).o).base + (memOff (so.c 3) 127 8).toNat + 8 ≤ 2 ^ 40 := by
  simp only [MayAccess, RoomForWindow, AccessFree, Writable, InRange]; decide +kernel
/-- The same strand in a restartable codelet, and the HBM object restartable. -/
def Sys2Proof.Test.sr : State :=
  let s := so.upd fun t => { t with occ := .codelet, restartable := true }
  { s with entries := sput {} s.entries (mkOid 0 68 7) { s.entry (mkOid 0 68 7) with restartable := true } }
theorem witness_OtherStores_buffered : MayAccess sr (sr.c 3) rW true ∧ sr.me.restartable = true ∧ isOwn sr.gta (sr.c 3).o = false ∧
    (sr.entry (sr.c 3).o).restartable = true ∧ Writable sr (sr.c 3) (memOff (sr.c 3) 1 8) 8 ∧ sr.me.cbufUsed + 16 ≤ 4096 := by
  simp only [MayAccess, RoomForWindow, AccessFree, Writable, InRange]; decide +kernel
theorem witness_AccessRefusals : RoomForWindow so ∧ AccessFree so (so.c 4) false ∧ so.c 4 = .null ∧
    (let s := cs so [(5, 0x40, 5, 0x8000, 0), (6, 0xD8, 5, 12, 8)]
     s.c 5 ≠ .null ∧ (s.c 5).has rR = false ∧ (s.c 6).has rR = true ∧ memOff (s.c 6) 0xFF 8 < (s.c 6).b ∧
     ((s.c 6).top : Int) < memOff (s.c 6) 1 8 + 8 ∧ InRange (s.c 6) (memOff (s.c 6) 0 8) 8) ∧
    (let s := cs so [(6, 0xD8, 5, 12, 4)]
     InRange (s.c 6) (memOff (s.c 6) 0 8) 8 ∧ (wrap 64 (memOff (s.c 6) 0 8)) % 8 ≠ 0) ∧
    (cs so [(6, 0xD8, 6, 12, 0)]).check18 ((cs so [(6, 0xD8, 6, 12, 0)]).c 6) 0 0 false ≠ none := by
  simp only [RoomForWindow, AccessFree, InRange]; decide +kernel
theorem witness_FullEmptyWords : so.amoBusy so.cur = false ∧ sget [] so.waits (oidSp (so.c 2).o) = [] ∧ so.me.occ ≠ .codelet ∧
    MaySync so (so.c 2) 8 8 [rR] false ∧ MaySync so (so.c 2) 8 8 [rW] true ∧ MaySync so (so.c 2) 8 8 [rW, rL] true ∧
    so.feBit (wordAt so (so.c 2) 8) = true ∧ ({ so with fe := [(2 ^ 48 * 0 + 0x10008 / 8, false)] } : State).feBit (wordAt so (so.c 2) 8) = false ∧
    so.drains so.cur so.nextId = false := by
  simp only [MaySync, RoomForWindow, InRange, wordAt]; decide +kernel
theorem witness_LandingPairs : MaySync so (so.c 2) 16 16 [rW] true ∧ MaySync so (so.c 2) 16 16 [rR] false ∧
    so.refusedWrite (so.c 2).o (so.entry (so.c 2).o) ((so.c 2).b + 16) 16 = none ∧ so.stoppedAt 0x10010 = none ∧
    bits (so.land0 (wordAt so (so.c 2) 16)) 56 8 ≠ (xs so [(1, 1)]).x 1 % 256 ∧
    (let s := { so with mem := mwrite so.mem 0x10000 (toBytes 8 512 ++ toBytes 8 (2 ^ 56 + 448)) }
     bits (s.land0 0x10000) 0 56 = 512 ∧ tbit (s.land1 0x10000) 56 = true) := by
  simp only [MaySync, RoomForWindow, InRange, wordAt]; decide +kernel
theorem witness_AtomicsAndQueues : MayAmo qu (qu.c 3) 0 8 ∧ MayAmo qu (qu.c 3) 0 32 ∧
    (let o := mkOid 0 68 7
     qu.objWord o (qu.entry o) 0 = 0 ∧ qu.objWord o (qu.entry o) 8 = 2 ∧ qu.objWord o (qu.entry o) 16 = 2 ∧
       (List.range 2).all (fun i => qu.rangeHere o (qu.entry o) (32 + 8 * i) 8 && qu.badIn o (qu.entry o) (32 + 8 * i) 8 == 0) = true) := by
  simp only [MayAmo, RoomForWindow, InRange]; decide +kernel
theorem witness_TrapEntry : CanTrap st 0 ∧ (st.upd fun t => { t with tstat := 0x1000 }).me.held = true := by
  simp only [CanTrap]; decide +kernel
theorem witness_SystemInstructions : CanTrap st 0 ∧ tbit st.me.dcsr.toNat 13 = false ∧
    (let s := st.upd fun t => { t with mode := .s, tie := 2, tip := 2 }
     s.me.mode = .s ∧ s.me.wins = [] ∧ s.me.tie &&& s.me.tip &&& 0x1E#64 ≠ 0) ∧
    st.me.tie &&& st.me.tip &&& 0x1E#64 = 0 ∧ st.me.wdDue = false ∧ (st.upd fun t => { t with mode := .d }).me.recs = [] := by
  simp only [CanTrap]; decide +kernel
theorem witness_RepeatsAndSegments : (let t := { st.me with rptLive := true, rptc := BitVec.ofNat 64 (2 ^ 47 + 2 * 2 ^ 40 + 2 * 2 ^ 32 + 3) }
     bits t.rptc.toNat 32 5 = bits t.rptc.toNat 40 5 ∧ bits t.rptc.toNat 0 32 ≠ 0) ∧ st.xn 5 = 0 ∧ (xs st [(5, 4)]).xn 5 ≠ 0 ∧
    2 ^ 21 ≤ (xs st [(5, 2 ^ 21)]).xn 5 ∧ (xs st [(5, 8192)]).xn 5 / 8192 = 1 ∧
    (sget {} (st.tile st.gta).ov 0).valid = true ∧ (sget {} (st.tile st.gta).ov 0).landed = true := by decide +kernel
theorem witness_BarrierArrivals :
    (∃ key n b', st.barOf st.gta 3 = some (key, n) ∧ (st.bar key).ahead 0 < 4 ∧ (st.bar key).arrive 0 n = some b') ∧ ReleaseDone st ∧
    2 ^ 31 ≤ (Bar.ahead { k := 1 } 0) ∧ (Bar.ahead { k := 1 } 2) < 4 := by
  refine ⟨?_, by simp only [ReleaseDone]; decide +kernel, by decide +kernel, by decide +kernel⟩
  exact ⟨_, _, _, rfl, by decide +kernel, rfl⟩
/-- Objects for engine commands in tile 0's pool: 8, 9 and 10, of 64 KiB, in c8, c5 and c6; a layout of HBM in c3. -/
def Sys2Proof.Test.se : State :=
  cs (objs st [(8, 0x20000, 0x10000), (9, 0x30000, 0x10000), (10, 0x40000, 0x10000), (mkOid 0 68 7, 0x40000, 0x8000)])
    [(8, 0xD8, 8, 0x10000, 0), (5, 0xD8, 9, 0x10000, 0), (6, 0xD8, 10, 0x10000, 0), (3, 0xD8, mkOid 0 68 7, 0x8000, 0)]
theorem witness_MatrixIssue : EngineFree se true [(se.c 5).o, (se.c 6).o, (se.c 8).o] ∧ clsB (cfgB 0x84) ≠ 3 ∧
    7 + blkSlots (cfgB 0x84) ≤ 8 ∧ EngineCap (se.c 5) [rR] (64 + blkBody (cfgB 0x84)) (oidPort (se.c 5).o ≤ 68) 64 ∧
    pairOk 0x84 = true ∧ cfgW 0x84 + cfgN 0x84 * blkSlots (cfgB 0x84) ≤ 8 ∧
    EngineCap (se.c 8) [rR, rW] 16384 (isOwn se.gta (se.c 8).o) 16384 ∧
    EngineCap (se.c 5) [rR] (64 * (16 * cfgN 0x84 * fmtBits (cfgA 0x84))) (isSram (se.c 5).o) 64 ∧
    EngineCap (se.c 6) [rR] (256 * cfgN 0x84) (isSram (se.c 6).o) 4 ∧ outOk (cfgO 0x84) = true ∧
    EngineCap (se.c 6) [rW] (64 * (8 * fmtBits (cfgO 0x84))) (oidPort (se.c 6).o ≤ 68) 64 ∧ (se.c 8).l ≤ 65536 ∧ (se.c 8).l % 64 = 0 := by
  simp only [EngineFree, RoomForWindow, EngineCap]; decide +kernel
/-- mx.wld and a running mx.zero. -/
def Sys2Proof.Test.sm : State := { se with cycle := 8, cmds := [{ cmd true (.zero (se.c 8)) with running := true }, { cmd true (.wld (se.c 5) 1 4) with id := 2 }] }
/-- The mx.st of c8 runs and meets a bad word; a pair of swaps of tiles 0 and 0's mirror image waits at the heads of their queues. -/
def Sys2Proof.Test.sb : State := { se with cmds := [{ cmd true (.st (se.c 5) (se.c 8) 0x84) with running := true, rd := [(8, 0, 64)] }],
                                           badw := [(flat 0 0x20000 / 8, 1)] }
def Sys2Proof.Test.sw : State :=
  let o := mkOid 0 8 1
  let s := { se with entries := sput {} se.entries o { base := 0x20000, len := 0x1000, valid := true, resident := true, owner := 8 }, cycle := 8 }
  let c : Cap := Cap.mk' 1 0xD8 o 0x1000 0
  { s with cmds := [{ cmd true (.swap c 3 none) with g := 8, key := 128 },
                    { cmd true (.swap (Cap.mk' 1 0xD8 mirrored 0x1000 0) 3 none) with id := 2, g := 1, key := 16 }],
           entries := sput {} s.entries mirrored { base := 0x20000, len := 0x1000, valid := true, resident := true, owner := 1 } }
where
  /-- An object of tile 1. -/
  mirrored : Nat := mkOid 0 1 1
theorem witness_MatrixControl : (sb.onUnit 0 1).any sb.mxBad = true ∧ mirror 1 = 8 ∧
    ((sw.mxHead 1).any fun x => (sw.mxHead (mirror 1)).any fun y => x.id != y.id && sw.mxReady x && sw.mxReady y &&
      (sw.mxPortChk x).isOk && (sw.mxPortChk y).isOk && sw.mxHere x && sw.mxHere y && (sw.mxEngineChk x).isOk && (sw.mxEngineChk y).isOk) = true := by decide +kernel
/-- A swap of 64 bytes that has its partner's bytes. -/
def Sys2Proof.Test.sn : State :=
  { se with cycle := 8, cmds := [{ cmd true (.swap (Cap.mk' 1 0xD8 8 64 0) 3 (some (List.replicate 64 7))) with running := true }] }
theorem witness_MatrixProgress : ((sm.mxHead 0).any fun c => sm.mxReady c && (sm.mxPortChk c).isOk && sm.mxHere c && (sm.mxEngineChk c).isOk) = true ∧
    ((sn.onUnit 0 0).any fun c => decide (c.doneAt ≤ sn.cycle) && sn.mxClean c && ((sn.mxResult c).1 == some (Cap.mk' 1 0xD8 8 64 0, List.replicate 64 7)) &&
      !(sn.slot c.key).wins.any Win.feWait) = true ∧ isSram 8 = true := by decide +kernel
theorem witness_MatrixArithmetic : (∃ cd, (cmd true (.zero cd)).op = .zero cd) ∧ signed 32 0x7FFFFFFF = 2147483647 ∧
    (intStep [(Val.ofInt 1, 0)] [(Val.ofInt 1, 0)] 0x7FFFFFFF).1 = 0x7FFFFFFF := by
  refine ⟨⟨.null, rfl⟩, by decide +kernel, by decide +kernel⟩

/-- The object of c2 with fractions and its entry 16 of the holding table in use. -/
def Sys2Proof.Test.sh : State := { (xs so [(4, 16), (5, 17), (6, 4096), (7, 0x100)]) with hold := [(16, so.c 2)] }
theorem witness_CapabilityMoves : HoldOk sh (sh.xn 4) ∧ sh.claimed sh.gta (sh.xn 4) = false ∧ Droppable sh 1 ∧
    HoldOk sh (sh.xn 5) ∧ sh.c 2 ≠ .null ∧ (sh.c 2).launchRecord = false ∧ sh.holdAt sh.gta (sh.xn 5) = .null ∧ PlainOld sh 1 ∧
    4096 ≤ sh.xn 6 ∧ ({ sh with claims := [(16, 1)] } : State).claimed sh.gta (sh.xn 4) = true ∧
    (sh.c 2).has rQ = false ∧ (sh.c 2).has rL = false ∧ (sh.c 2).has rA = false ∧ 0 < sh.xn 7 ∧ sh.xn 7 < (sh.c 2).l ∧
    (let s := cs sh [(2, 0xD0, 5, 0x7F00, 0x100), (4, 0xD0, 5, 0x100, 0)]
     (s.c 2).o = (s.c 4).o ∧ (s.c 2).g = (s.c 4).g ∧ (s.c 4).clearS.rights = (s.c 2).clearS.rights ∧ (s.c 4).has rQ = false ∧
      (s.c 4).has rL = false ∧ (s.c 4).top = (s.c 2).b ∧ (s.c 4).l + (s.c 2).l < 2 ^ 40 ∧ s.check15 (s.c 4) s.gta = none ∧
      (s.c 4).b = 0 ∧ (s.c 4).l + (s.c 2).l = (s.entry (s.c 4).o).len ∧ (s.c 4).isOwner = true) := by
  simp only [HoldOk, Droppable, PlainOld]; decide +kernel
theorem witness_CapabilityCounts : Droppable so 9 ∧ PlainOld so 9 ∧ (so.c 2).has rR = true ∧ so.storeBusy so.cur (so.c 2).o = false ∧
    so.check16 (so.c 2) so.gta = none ∧ (so.entry (so.c 2).o).fracs < 4095 ∧ oidIdx (so.c 2).o ≠ 0 ∧ isSram (so.c 2).o = true ∧
    (let x := 2 ^ 32 * 0x7FF8 + 8
     0 < bits x 32 32 ∧ bits x 0 32 + bits x 32 32 ≤ (so.c 2).l ∧ ((so.c 2).b + bits x 0 32) % 8 = 0 ∧ bits x 32 32 % 8 = 0) ∧
    (let s := cs ({ so with entries := sput {} so.entries 5 { so.entry 5 with fracs := 1 } } : State) [(4, 0x8C, 5, 0x8000, 0)]
     (s.c 4).has rQ = true ∧ (s.c 2).isOwner = true ∧ (s.c 2).o = (s.c 4).o ∧ s.objBusy s.cur (s.c 2).o = false ∧
      s.check15 (s.c 2) s.gta true = none ∧ s.dropWaits (s.c 4) = false ∧ s.check15 (s.c 4) s.gta true = none) := by
  simp only [Droppable, PlainOld]; decide +kernel
/-- An arena capability over free space of tile 0's pool in c9. -/
def Sys2Proof.Test.sar : State := xs (cs st [(9, 0x01, 0, 0x8000, 0x100000)]) [(5, 0)]
theorem witness_Objects : sar.c 9 ≠ .null ∧ (sar.c 9).rights = 1#8 ∧ (sar.c 9).b % unitOf (oidPort (sar.c 9).o) = 0 ∧
    (sar.c 9).l % unitOf (oidPort (sar.c 9).o) = 0 ∧ sar.check15 (sar.c 9) sar.gta true = none ∧ Droppable sar 4 ∧ PlainOld sar 4 ∧
    EntryFree sar (oidSp (sar.c 9).o) 1 ∧ (sar.c 2) = .null ∧ (so.c 2).rights ≠ 1#8 ∧
    (so.c 2).isOwner = true ∧ so.storeBusy so.cur (so.c 2).o = false ∧ so.check15 (so.c 2) so.gta true = none ∧
    (so.c 2).l = (so.entry (so.c 2).o).len ∧ so.holdsLive (so.c 2).o (so.entry (so.c 2).o) = false := by
  simp only [Droppable, PlainOld, EntryFree]; decide +kernel
/-- Entry 1 is the lowest free one, no reason holds of attribute word 0, and 2^25 is reserved. -/
theorem witness_Objects_reasons : NewReason sar (sar.c 9) (sar.xn 5) 0 ∧ (∀ j, j < 1 → ¬EntryFree sar (oidSp (sar.c 9).o) j) ∧
    NewReason sar (sar.c 9) (2 ^ 25) 7 := by
  have h : EntryFree sar (oidSp (sar.c 9).o) 1 := by simp only [EntryFree]; decide +kernel
  refine ⟨?_, fun j hj h => absurd h.1 (by omega), ?_⟩
  · simp only [NewReason]
    exact ⟨fun h => absurd h (by decide +kernel), fun _ h => absurd h (by decide +kernel), fun _ _ h => absurd h (by decide +kernel),
      fun _ _ _ h => absurd h (by decide +kernel), fun _ _ _ _ hf => absurd h (hf 1), fun _ _ _ _ _ => trivial⟩
  · have hr : ∀ p q : Prop, (2 ^ 25 ≤ 2 ^ 25 ∨ p ∨ q) := fun p q => .inl (Nat.le_refl _)
    simp only [NewReason]
    exact ⟨fun _ => trivial, fun h => absurd (hr _ _) h, fun h => absurd (hr _ _) h, fun h => absurd (hr _ _) h, fun h => absurd (hr _ _) h,
      fun h => absurd (hr _ _) h⟩
/-- A strand in S mode, key 7 live in its world. -/
def Sys2Proof.Test.sk : State := { (xs (so.upd fun t => { t with mode := .s }) [(6, 7), (7, 2 ^ 16)]) with keys := [(7, { st := .live })] }
theorem witness_Keys : sk.me.mode ≠ .u ∧ sk.entropyBad = false ∧ sk.freeKey (sk.keys.length + 1) 1 = some 1 ∧ RoomForWindow sk ∧
    (sk.key (sk.xn 6)).st = .live ∧ (sk.key (sk.xn 6)).world = sk.myWorld ∧ 2 ^ 16 ≤ sk.xn 7 ∧
    ({ so with zfill := [(0, 7, [(5, 2)])] } : State).zfill.find? (fun z => z.1 == 0 && z.2.1 == 7) = some (0, 7, [(5, 2)]) ∧ so.badw = [] ∧ so.marks = [] := by
  simp only [RoomForWindow]; decide +kernel
/-- The Separator's core with two objects of its private SRAM. -/
def Sys2Proof.Test.ss : State := xs (cs { State.reset with cur := sepKey } [(4, 0xD8, mkOid 0 sepPort 1, 171, 0), (5, 0xD8, mkOid 0 sepPort 2, 114, 0x1000)]) [(6, 64)]
theorem witness_SeparatorInstructions : ss.me.mode = .m ∧ RoomForWindow ss ∧ SepCap (ss.c 4) rR ∧ SepCap (ss.c 5) rW ∧ 0 < ss.xn 6 ∧
    ss.xn 6 ≤ (ss.c 5).l ∧ ss.xn 1 < 2 ∧ 114 ≤ (ss.c 5).l ∧ (ss.c 4).l = 171 ∧ ss.entropyBad = false := by
  simp only [RoomForWindow, SepCap]; decide +kernel
theorem witness_MoveCommands : EngineFree se false [(se.c 5).o, (se.c 8).o] ∧ se.badDesc (2 ^ 32) = false ∧ se.amoBusy se.cur = false ∧
    (cs se [(5, 0xD8, 9, 16384, 0)]).c 5 ≠ .null ∧ (se.c 5).has rR = true ∧ (se.c 8).has rS = true ∧ (se.c 5).l ≤ (se.c 8).l ∧
    (se.c 5).o ≠ (se.c 8).o ∧ (se.c 6).has rW = true ∧ 16 ≤ (se.c 6).l ∧ (se.c 6).b % 16 = 0 ∧ oidPort (se.c 6).o < 64 ∧
    (se.c 5).has rX = true ∧ 7 % 256 * 8192 < (se.c 5).l := by
  simp only [EngineFree, RoomForWindow]; decide +kernel
/-- A copy of 256 bytes, accepted in cycle 0; the same started. -/
def Sys2Proof.Test.copyOp : CmdOp := .copy (Cap.mk' 1 0xD8 8 256 0) (Cap.mk' 1 0xD8 9 256 0) .null [0] [] []
def Sys2Proof.Test.sv : State := { se with cycle := 8, cmds := [cmd false copyOp] }
def Sys2Proof.Test.sg : State := { se with cycle := 8, cmds := [{ cmd false copyOp with running := true, went := true }] }
theorem witness_MoveCommands_start : MayStart sv 0 (cmd false copyOp) ∧ sv.cmdDrained (cmd false copyOp) = true ∧
    sv.check18 (Cap.mk' 1 0xD8 9 256 0) 0 0 false = none ∧ sv.check18 (Cap.mk' 1 0xD8 8 256 0) 0 0 true = none ∧
    isWindow 9 = false := by
  simp only [MayStart]; decide +kernel
theorem witness_TransfersOfBytes : sg.cmds.find? (fun c => c.id == 1) = some { cmd false copyOp with running := true, went := true } ∧
    sg.msgs.find? (fun m => m.id == 1) = none ∧ isSram 9 = true ∧ isSram 8 = true ∧ (sg.entry 9).valid = true ∧ (sg.entry 9).gen = 1 ∧
    (sg.entry 9).poison = false ∧ sg.badIn 9 (sg.entry 9) 0 256 = 0 ∧ (sg.entry 8).valid = true ∧ (sg.entry 8).gen = 1 ∧
    sg.refusedWrite 8 (sg.entry 8) 0 256 = none := by decide +kernel
theorem witness_TransfersOfBytes_overlay :
    (let c := { cmd false (.ifetch (Cap.mk' 1 0xD8 9 0x4000 0) 3 1) with running := true, went := true }
     let s := { se with cmds := [c] }.updTile 0 fun t => { t with ov := sput {} t.ov 3 { seg := 1, busy := true, last := 1 } }
     s.cmds.find? (fun c => c.id == 1) = some c ∧ s.badIn 9 (s.entry 9) 8192 8192 = 0 ∧ (s.tile c.g).tstop = false ∧
      (sget ({} : OvSlot) (s.tile c.g).ov 3).last = 1) := by decide +kernel

/-- Mailbox 0 of tile 0, in object 11 of 32 KiB + 64 bytes. -/
def Sys2Proof.Test.smb : State :=
  let s := objs st [(11, 0x50000, 32768 + 64)]
  { s with hold := [(3840, Cap.mk' 1 0xD8 11 (32768 + 64) 0)] }
def Sys2Proof.Test.msg : Msg :=
  { id := 4, holder := 0, dest := 0, mbox := 0, spkg := 0, stile := 0, pri := 1, user := 9, pay := List.replicate 64 5, cap := .null, how := .none }
theorem witness_MailboxSpace : reserve 0 0 0 32768 128 = some (0, 128, 0, none, 0) ∧ reserve 0 32640 0 32768 256 = none ∧
    (let s := { smb with msgs := [msg] }
     s.msgs.find? (fun m => m.id == 4) = some msg ∧ s.inOrder msg = true ∧ s.bounceCode msg = none ∧ s.mbox 0 0 = some (0x50000, 32768) ∧
      s.noWrite (flat (ownSp 0) 0x50000) 64 = false ∧ msg.size = 128) := by decide +kernel
theorem witness_MailboxMessages :
    (let s := { smb with msgs := [{ msg with st := .reserved 0, payDone := true }] }.updTile 0 fun t => { t with tstop := true }
     s.mbox 0 0 = some (0x50000, 32768) ∧ (s.tile 0).tstop = true) ∧
    (let r : MRec := { id := 4, pos := 0, size := 128, complete := true, pri := 1 }
     let s := ({ smb with mem := mwrite smb.mem (flat 0 0x50010) [128] } : State).updTile 0 fun t => { t with mboxes := [(0, [r])] }
     nextMsg (s.mbGet s.gta 0x50000 16 8) (s.recs s.gta 0) = some r ∧ s.badw = [] ∧ sget 0 s.badh (s.gta * 4096 + 3840) = 0 ∧ Droppable s 3 ∧ s.me.occ ≠ .codelet ∧ sget 0 s.me.taken 0 = 0) ∧
    nextMsg 0 [] = none ∧
    (let m := { msg with how := .copy, cap := Cap.mk' 1 0xD8 11 64 0, newO := 12, st := .reserved 0 }
     (se.entry m.cap.o).gen = 1 ∧ ({ m with cap := Cap.mk' 0 0xD8 11 64 0 } : Msg).cap.g ≠ 1) := by
  simp only [Droppable]; decide +kernel

/-- A ring of four slots of 64 bytes with one consumer in object 12, its first slot written; its capability in c4, a source in c5. -/
def Sys2Proof.Test.srg : State :=
  let s := cs (objs se [(12, 0x60000, 0x1000)]) [(4, 0xC0, 12, 0x1000, 0)]
  { s with mem := mwrite (mwrite s.mem 0x60000 ([6, 1, 0, 0, 4, 0, 0, 0] ++ toBytes 8 1)) 0x60040 (toBytes 6 0 ++ toBytes 2 8 ++ [1, 2, 3, 4, 5, 6, 7, 8]) }
theorem witness_Rings : RoomForWindow srg ∧ EngineFree srg false [(srg.c 5).o] ∧ (srg.c 4).has rW = true ∧
    (∃ r, RingOf srg (srg.c 4) [rR, rL] false 0 r ∧ srg.popReady r 0 = true ∧ srg.pushRoom r r.pseq = true ∧ 0 < r.ncons ∧ srg.parkedPops = [] ∧
      mnat srg.mem (r.slotAt (srg.cursor r 0)) 6 = srg.cursor r 0 ∧ srg.slotBad (srg.c 4) r (srg.cursor r 0) 16 = 0 ∧
      srg.slotRefused (srg.c 4) r r.pseq 16 = false) ∧
    Writable srg (srg.c 6) ((srg.c 6).b : Int) 16 ∧ srg.check18 (srg.c 6) srg.gta srg.me.lkey true = none := by
  refine ⟨by simp only [RoomForWindow]; decide +kernel, by simp only [EngineFree, RoomForWindow]; decide +kernel, by decide +kernel, ?_,
    by simp only [Writable, InRange]; decide +kernel, by decide +kernel⟩
  exact ⟨⟨0x60000, 6, 1, 0, 4, 1⟩, by simp only [RingOf]; refine ⟨by decide +kernel, by decide +kernel, by decide +kernel, by decide +kernel, rfl⟩, by decide +kernel,
    by decide +kernel, by decide +kernel, by decide +kernel, by decide +kernel, by decide +kernel, by decide +kernel⟩

/-- The ring and an HBM object as a subscription's, a parameter word for a loader of chunks of 8 bytes in x6 and for a storer in x7. -/
def Sys2Proof.Test.sch : State :=
  let s := cs (objs srg [(mkOid 0 68 7, 0x40000, 0x8000)]) [(4, 0xC2, 12, 0x1000, 0), (7, 0x84, mkOid 0 68 7, 0x8000, 0), (8, 0xD8, mkOid 0 68 7, 0x8000, 0)]
  xs s [(6, 2 ^ 62 + 2 ^ 32 + 16 * 2 ^ 20), (7, 2 ^ 63 + 2 ^ 32 + 16 * 2 ^ 20)]
def Sys2Proof.Test.lsub : Sub := { tile := 0, lkey := 0, loader := true, ring := sch.c 4, obj := sch.c 7, cur := 0, chunk := 8, h := 16, count := 2, s0 := 1 }
def Sys2Proof.Test.ssub : Sub := { tile := 0, lkey := 0, loader := false, ring := sch.c 4, obj := sch.c 8, cur := 0, chunk := 8, h := 18, count := 0, s0 := 0 }
theorem witness_Churn : MaySubscribe sch 4 7 6 ∧ MaySubscribe sch 4 8 7 ∧ sch.freeSub (stackOf (sch.c 7).o) = some 0 ∧
    (let s := { sch with subs := [(0, some lsub), (1, some ssub)] }
     s.sub 0 = some lsub ∧ s.sub 1 = some ssub ∧ s.check18 lsub.obj 0 0 false = none ∧ s.check18 ssub.obj 0 0 true = none ∧
      s.rangeHere lsub.obj.o (s.entry lsub.obj.o) 0 8 = true ∧ s.badIn lsub.obj.o (s.entry lsub.obj.o) 0 8 = 0 ∧
      s.popReady ⟨0x60000, 6, 1, 0, 4, 1⟩ 0 = true ∧ s.slotRefused lsub.ring ⟨0x60000, 6, 1, 0, 4, 1⟩ 1 16 = false ∧
      s.versionEnd ssub.obj.o (s.entry ssub.obj.o) 0 8 = false ∧ s.slotBad ssub.ring ⟨0x60000, 6, 1, 0, 4, 1⟩ 0 16 = 0) ∧ ssub.tile = sch.gta ∧ ssub.returned = false := by
  simp only [MaySubscribe]; decide +kernel

/-- A codelet slot, and a descriptor at pool address 0x20000 (object 8, c8), live with counter 1 and stamp 1. -/
def Sys2Proof.Test.scd : State :=
  let s := { se with mem := mwrite se.mem (flat 0 0x20000) (toBytes 4 1 ++ [1, 0, 1, 0] ++ toBytes 4 0 ++ toBytes 4 1), marks := [(flat 0 0x20000, 129)] }
  xs (s.updTile 0 fun t => { t with pword := 0x421, slotmask := 0xFFFF, ready := [(0, [(0x20000, true)])] }) [(5, mkHandle 1 0 0x20000), (6, 1)]
theorem witness_Codelets : DescCap se (se.c 8) ∧ se.badDescriptor se.gta (descAt se (se.c 8)) = false ∧ se.dstate se.gta (descAt se (se.c 8)) = 0 ∧
    se.darg se.gta (descAt se (se.c 8)) 0 < 3840 ∧ queue se 0 0 = [] ∧
    scd.matches_ (scd.xn 5) = true ∧ scd.descBad (scd.xn 5) = false ∧ (State.descBad { scd with badw := [(flat 0 0x20000 / 8, 1)] } (scd.xn 5) = true) ∧
    badHandle (scd.xn 5) = false ∧ scd.xn 6 ≤ scd.dget 0 0x20000 0 4 ∧
    scd.foreign 0 (mkOid 0 0 0) = false ∧ (scd.tile 0).readyHead = some (0, 0x20000, true) ∧ scd.dispatchSlot 0 = some 1 := by
  simp only [DescCap]; decide +kernel
theorem witness_Codelets_dispatch :
    (let s := { scd with wrow := 0x8, worlds := [(0, { td := .run })] }
     s.worldOpen 0 = true ∧ (s.tile 0).run = true ∧ (s.tile 0).fenced = false ∧ (s.tile 0).dispatchAt ≤ s.cycle) ∧
    (let s := se.upd fun t => { t with occ := .codelet }
     s.me.wins = [] ∧ s.cmdsLive s.cur = false) := by decide +kernel
theorem witness_Strands : se.me.occ = .persistent ∧ se.xn 1 < 2 ^ 21 ∧ EmptySlot se se.gta = none ∧
    EmptySlot (se.updTile 0 fun t => { t with pword := 0x402 }) 0 = some 1 ∧ se.storeBusy se.cur (se.c 9).o = false ∧ se.cmdsLive se.cur = false ∧
    (let s := xs (se.updTile 1 fun t => { t with run := true, runid := 1 }) [(6, 1)]
     (s.tile (s.xn 6)).run = true ∧ (s.tile (s.xn 6)).runid = (s.tile s.gta).runid ∧ s.migRefuses .null 1 = false ∧
      (s.tile (s.xn 6)).entryQ.length < 4 ∧ s.pendingStores s.gta 5 = []) := by decide +kernel
theorem witness_BorrowedSlots : (let s := xs st [(6, 3)]
     s.xn 6 < 16 ∧ (s.tile s.gta).pers ≤ s.xn 6 ∧ (s.slot (s.gta * 16 + s.xn 6)).occ = .empty ∧ s.gta * 16 + s.xn 6 ≠ s.cur ∧
      ((s.updSlot 3 fun t => { t with occ := .lent 0 }).slot 3).occ = .lent 0 ∧ (s.slot 3).occ ≠ .lent s.cur) ∧ VFile st [3, 12] [] ∧
    st.gta * 16 + st.xn 7 = st.cur := by
  simp only [VFile]; decide +kernel
theorem witness_Strands_stores : ∀ o, se.pendingStores se.gta o = [] := by intro o; rfl
/-- A publication and a declaration of tile 1 of object 7 of HBM. -/
def Sys2Proof.Test.tagR (decl : Bool) : TagReq :=
  { id := 9, k := 0, win := 1, g := 0, decl := decl, cap := scd.c 3, handle := mkHandle 1 0 0x20000, key := mkOid 0 68 7 * 2 ^ 16 + 1, gen := 5,
    grant := none, lkey := 0, d := 5 }
theorem witness_Tags : DescCap scd (scd.c 8) ∧ scd.matches_ (mkHandle (scd.dget 0 0x20000 6 2) 0 0x20000) = true ∧
    scd.dget 0 0x20000 12 4 = (scd.tile 0).runid ∧ (scd.c 3).isOwner = true ∧
    (let s := { scd with treqs := [tagR true], tags := [(0, [{ key := mkOid 0 68 7 * 2 ^ 16 + 1, pub := 5 }])] }
     s.treqs.find? (fun x => x.id == 9 && x.decl) = some (tagR true) ∧ tagOfKey s (tagR true).key = some { key := mkOid 0 68 7 * 2 ^ 16 + 1, pub := 5 } ∧
      s.foreign 0 (mkOid 0 68 7) = false ∧ s.matches_ (tagR true).handle = true ∧ s.descBad (tagR true).handle = false ∧ 1 ≤ s.dget 0 0x20000 0 4) ∧
    tagOfKey scd (tagR true).key = none ∧ (scd.tile 0).pslot = 0xFFF ∧ sget {} scd.runs 0xFFF = {} ∧
    (let s := { scd with treqs := [tagR false] }
     s.drains 0 9 = false ∧ s.check16 (tagR false).cap 0 = none ∧ oidDie (mkOid 0 68 7) = oidDie (tagR false).cap.o) := by
  simp only [DescCap]; decide +kernel
/-- A strand with one window, in the given state, whose counting is over. -/
def Sys2Proof.Test.swin (st' : WinSt) : State := so.upd fun t => { t with wins := [{ id := 1, addr := 0, ibits := 0, left := 0, wAt := 0, st := st' }] }
theorem witness_WindowCloses : (let s := swin (.done { xs := [(5, 7)] })
     (s.slot 0).wins.find? (fun y => y.id == 1) = some { id := 1, addr := 0, ibits := 0, left := 0, wAt := 0, st := .done { xs := [(5, 7)] } } ∧
      ((s.slot 0).getC 4).has rQ = false ∧ ((s.slot 0).getC 4).has rL = false) := by decide +kernel
/-- The strand at its boundary with a deferred fault, a synchronous one, a pending interrupt, and the watchdog due. -/
def Sys2Proof.Test.sti (f : Slot → Slot) : State := st.upd f
theorem witness_TrapsTaken : AtTrap (sti fun t => { t with dfs := [(1, 5, 5, 0)] }) 0 0 ∧ oldestFault [(2, 5, 5, 0), (1, 6, 5, 4)] = some (1, 6, 5, 4) ∧
    AtTrap (sti fun t => { t with sync := some (20, 0) }) 0 0 ∧
    irqDue (sti fun t => { t with tie := 0x1E, tip := 0x0A }).me = true ∧ AtTrap (sti fun t => { t with tie := 0x1E, tip := 0x0A }) 0 0 ∧
    wdogDue (sti fun t => { t with wdDue := true }).me = true := by
  simp only [AtTrap]; decide +kernel
theorem witness_Expiries : (let w : Win := { id := 1, addr := 0, ibits := 0, left := 0, wAt := 0, lim := some 0, st := .wait (.land (so.c 2) 16 7 5) }
     let s := so.upd fun t => { t with wins := [w] }
     (s.slot 0).wins.find? (fun z => z.id == 1) = some w ∧ (s.slot 0).wdPend = false) ∧
    AtTrap (st.upd fun t => { t with hold := some ⟨.barLead 3 0, some 0, 0⟩ }) 0 0 ∧
    (let t := (st.upd fun t => { t with wdPend := true }).me
     t.held = false ∧ t.hold = none) ∧ (st.upd fun t => { t with wdPend := true }).parkedWins 0 = [] ∧
    (let w : Win := { id := 1, addr := 0, ibits := 0, left := 0, wAt := 0, retryAt := 64, st := .wait (.fe .ld (so.c 2) 16 0 5 false false 0) }
     let s := { so.upd fun t => { t with wins := [w] } with cycle := 64 }
     s.feWait 0 1 = some (.ld, so.c 2, 16, 0, 5) ∧ s.stoppedAt (s.feAddr (so.c 2) 16) = none ∧
      s.check18 (so.c 2) 0 0 true = none ∧ s.check18 (so.c 2) 0 0 false = none ∧ s.badIn (so.c 2).o (s.entry (so.c 2).o) 16 8 = 0 ∧
      s.refusedWrite (so.c 2).o (s.entry (so.c 2).o) 16 8 = none ∧ FeOp.ld.ready (s.feBit (s.feAddr (so.c 2) 16)) = true ∧
      FeOp.st.ready (s.feBit (s.feAddr (so.c 2) 16)) = false ∧ (sget [] s.waits (oidSp (so.c 2).o)).length < 64) := by
  simp only [AtTrap]; decide +kernel
/-- A strand in S mode that names slot 3, which holds a stopped strand; c8 for its record. -/
def Sys2Proof.Test.ssv : State :=
  (xs (se.upd fun t => { t with mode := .s }) [(6, 3)]).updSlot 3 fun t => { t with occ := .persistent, stopped := true, pc := 0x40 }
theorem witness_StopsAndSaves : SlotOperand ssv 6 ∧ (ssv.slot 3).holds = true ∧ (ssv.slot 3).stopped = true ∧ (ssv.slot 3).recs = [] ∧
    RoomForWindow ssv ∧ SaveCap ssv (ssv.c 8) ∧ ssv.saveReady 3 = true ∧ (ssv.slot 3).taken = [] ∧
    ssv.check18 (ssv.c 8) 0 0 true = none ∧ ssv.refusedWrite 8 (ssv.entry 8) 0 (0x400 + 4096) = none ∧
    (let t := (st.upd fun t => { t with stopReq := true }).me
     t.stopReq = true ∧ t.mode ≠ .d ∧ t.restartable = false ∧ t.dfs = [] ∧ t.sync = none ∧ wdogDue t = false) := by
  simp only [SlotOperand, RoomForWindow, SaveCap]; decide +kernel
-- After that save: slot 3 is Empty and the record good.
set_option maxRecDepth 100000 in
theorem witness_StopsAndSaves_load : (let s := { ssv.saveNow 3 (ssv.c 8) with tiles := (ssv.updTile 0 fun t => { t with pword := 0x404 }).tiles }
     (s.slot 3).occ = .empty ∧ s.me.holds = true ∧ s.recordOk (s.saveAt (s.c 8)) 3 = true) := by decide +kernel
theorem witness_DebugModule : (st.slot 0).holds = true ∧ (st.slot 0).halted = false ∧ (st.slot 0).haltReq = 0 ∧
    (let t := (st.upd fun t => { t with haltReq := 3 }).me
     t.haltReq ≠ 0 ∧ t.haltReq < 8 ∧ t.wins = [] ∧ wdogDue t = false ∧ t.restartable = false) ∧
    (let t := (st.upd fun t => { t with halted := true, mode := .d }).me
     t.halted = true ∧ t.recs = [] ∧ t.pbPos = none) ∧
    (let s := se.updTile 0 fun t => { t with tstop := true, trBuf := [5], trobj := mkOid 0 68 7 * 2 ^ 36 }
     (s.tile 0).tstop = true ∧ sget [] s.stopq 0 = [] ∧ oidPort ((s.tile 0).trobj / 2 ^ 36) = 68 ∧ (s.entry ((s.tile 0).trobj / 2 ^ 36)).valid = true ∧
      (s.tile 0).trobj % 2 ^ 36 + 8 < (s.entry ((s.tile 0).trobj / 2 ^ 36)).len) := by decide +kernel
theorem witness_TestsAndBoard : (let s := xs (st.upd fun t => { t with mode := .s }) [(6, 6), (7, 1)]
     MayTest s (s.xn 6) (s.xn 7) ∧ badTest false 0 1 = true ∧ badTest false 1 1 = false ∧ bistM (bTarget 1) = true) ∧
    tbit (2 ^ 63) 63 = true ∧ offsetOk (bits (2 ^ 63) 40 8) = true ∧ st.assigned 0 = false ∧ (signed 8 0xF6).natAbs ≤ 10 ∧ 10 < (signed 8 0xF5).natAbs ∧
    badTest true 1 0 = false ∧ State.reset.bistReady (bits 1 24 12) 1 = true ∧ bits 1 24 12 / 64 = 0 ∧ State.reset.romFail = 0 := by
  simp only [MayTest]; decide +kernel
/-- Whatever the defect map says, one of two lanes of a group is not failed. -/
theorem witness_TestsAndBoard_lane : State.reset.laneFailed 0 0 = false ∨ State.reset.laneFailed 0 1 = false := by
  by_cases h : mapLane (0 / 4) (0 % 4) = some 0
  · exact .inr (by simp [State.laneFailed, h, State.reset])
  · exact .inl (by simp [State.laneFailed, h, State.reset])

/-- World 0 of row 0, in RUN, with a code object in HBM and a launch of one tile in its window. -/
def Sys2Proof.Test.sl : State :=
  let o := mkOid 0 68 7
  let s := { State.reset with wrow := 8, worlds := [(0, { td := .run })], entries := [(o, { base := 0x40000, len := 8192, valid := true, resident := true })] }
  (((((s.hput 0 0x1000 1 1).hput 0 0x100C 4 o).hput 0 0x110C 2 16).hput 0 0x1110 4 0x401).hput 0 0x1004 4 77)
theorem witness_Launches : HostReady sl 0 1 ∧ badLaunch (sl.hget 0) (sl.hzero 0) = false ∧ 
    sl.freeRunEntry = some 0 ∧ sl.tilesFree (launchAt sl 0).tlo (launchAt sl 0).thi = true ∧ (sl.world 0).quiesce = false ∧
    HostReady (sl.hput 0 0x1000 1 6) 0 6 ∧ badLaunch (sl.hput 0 0x1001 1 1 |>.hget 0) (sl.hzero 0) = true := by
  simp only [HostReady]; decide +kernel
theorem witness_Launches_admitted : LaunchAdmitted sl 0 := by
  simp only [LaunchAdmitted, RefusedPartition, RefusedSet, Unnamed, RefusedTensor, RefusedIndices, RefusedCounts]; decide +kernel
theorem witness_Launches_runs :
    (let s := { sl with runs := [(0, { st := .held, id := 1, order := 1 })] }
     s.nextHeld = some 0) ∧
    (let s := { sl with runs := [(0, { st := .running, id := 1, notify := [3] })], worlds := [(0, { td := .run, reports := [0] })] }
     s.tileDone 0 = true ∧ (s.tile 3).fbs = [] ∧ (s.world 0).reports = [0]) := by decide +kernel
/-- An owned object of tile 0 in its holding entry 20, an export and a revoke of it. -/
def Sys2Proof.Test.sx : State :=
  let s := { sl with entries := sput {} sl.entries 5 { base := 0x10000, len := 0x8000, valid := true, resident := true }, hold := [(20, Cap.mk' 1 0xD8 5 0x8000 0)] }
  ((((s.hput 0 0x1000 1 2).hput 0 0x1002 2 20).hput 0 0x1006 1 0xC0).hput 0 0x100C 4 0).hput 0 0x1010 8 0x8000 |>.hput 0 0x1110 4 0 |>.hput 0 0x110C 2 0
theorem witness_HostRequests_export : HostReady sx 0 2 ∧ sx.badExport 0 = false ∧ sx.exportable 0 0 20 = some (Cap.mk' 1 0xD8 5 0x8000 0) ∧
    sx.freeStation 0 = some (0, 0) ∧ sx.freeAper 0 = some 0 ∧ sx.badAperture 0 0 0x8000 = false ∧ sx.exportable 0 0 21 = none := by
  simp only [HostReady]; decide +kernel
theorem witness_HostRequests_revoke : (let s := ((((sx.hput 0 0x1000 1 3).hput 0 0x1002 2 21).hput 0 0x1006 2 0).hput 0 0x1008 8 (winOid 0 0)).hput 0 0x1010 8 0 |>.hput 0 0x1004 2 0
     let s := { s with wtab := [(winOid 0 0, { valid := true, exported := true, oid := 5, len := 0x8000 })] }
     HostReady s 0 3 ∧ s.hget 0 0x1004 2 = 0 ∧ s.hzero 0 0x1010 0x2000 = true ∧ s.holdAt 0 21 = .null ∧ s.claimed 0 21 = false ∧ (s.winEnt (winOid 0 0)).isSome = true ∧
      winOid 0 0 < 2 ^ 28 ∧ s.dieIn 0 (oidDie (winOid 0 0)) = true ∧ (s.entry 5).owner = 0 ∧ s.holdAt 0 20 ≠ .null) := by
  simp only [HostReady]; decide +kernel
theorem witness_HostRequests_grant : (let s := (((sl.hput 0 0x1000 1 4).hput 0 0x100C 4 0).hput 0 0x110C 2 0).hput 0 0x1110 4 0
     let s := ((s.hput 0 0x1004 4 0).hput 0 0x1002 2 1).hput 0 0x1010 8 (5 * 65536) |>.hput 0 0x1018 8 (3 * 65536)
     HostReady s 0 4 ∧ GoodGrant s 0 ∧ overlapping (s.grantRanges 0 1) = false ∧ s.dieIn 0 0 = true ∧
      s.granted 0 + ((s.grantRanges 0 1).map (·.2)).sum ≤ 2 ^ 32) := by
  simp only [HostReady, GoodGrant]; decide +kernel
theorem witness_HostRequests_manage : State.reset.badWrow 0x98 = false ∧ State.reset.badWrow 0x808 = true ∧
    (let s := { (((sl.hput 0 0x1000 1 5).hput 0 0x1001 1 1).hput 0 0x1008 4 8) with opWorld := 1 }
     HostReady s 0 5 ∧ s.hget 0 0x1008 4 = 8) ∧
    (let s := ((((sl.hput 0 0x1000 1 5).hput 0 0x1001 1 2).hput 0 0x1002 2 3).hput 0 0x1006 2 8)
     s.certBusy 3 = false ∧ { s with conns := [(0, { phase := 3, cert := some 3 })] }.certBusy 3 = true) := by
  simp only [HostReady]; decide +kernel
theorem witness_HostRequests_residency :
    (let s := { sl with entries := [(mkOid 0 68 7, { base := 0x40000, len := 0x20000, ext := true, valid := true })],
                        worlds := [(0, { td := .run, grants := [(0, 0, 5, 3)] })] }
     let s := (((s.hput 0 0x1000 1 5).hput 0 0x1001 1 3).hput 0 0x1008 4 (mkOid 0 68 7)).hput 0 0x1010 4 1 |>.hput 0 0x1014 4 1 |>.hput 0 0x1018 8 (6 * 65536)
     let s := { s with mem := mwrite s.mem (flat 68 0x40000) (toBytes 4 9 ++ toBytes 4 12) }
     s.badGranules 0 (mkOid 0 68 7) 1 1 = false ∧ s.hostGranule 0 6 = some (flat 69 65536) ∧ s.engineOn (mkOid 0 68 7) 1 1 = false ∧
      mnat s.mem (flat 68 0x40004) 4 = 12 ∧ s.l2 = []) := by decide +kernel
theorem witness_WorldInterface : sl.hasWorld 0 = true ∧ (sl.world 0).td = .run ∧ ({ sl with worlds := [] } : State).hasWorld 0 = true ∧
    (State.world { sl with worlds := [] } 0).td = .unlocked ∧ ({ sl with worlds := [(0, { td := .run, quiesce := true })] } : State).quiet 0 = true ∧
    sl.strandsOf 0 = [] := by decide +kernel
theorem witness_Attestation : (let s := { State.reset with conns := [(0, { phase := 3 })] }
     SpdmReady s 0 3 ∧ s.certThere 0 = true ∧ s.certThere 1 = false) ∧ (State.reset.conn 1).phase = 0 ∧ tbit (2 ^ 11) 11 = true ∧ tbit (2 ^ 5) 5 = true := by
  simp only [SpdmReady]
  refine ⟨⟨by decide +kernel, ?_, ?_⟩, by decide +kernel, by decide +kernel, by decide +kernel⟩ <;> rfl
theorem witness_Links : (let r : UaReq := { id := 3, st := 0, op := .access 0 1, sentAt := 0, tries := 16 }
     let s := { State.reset with uareqs := [r], cycle := 30000 }
     s.uaReq 3 = some r ∧ r.sentAt + 30000 ≤ s.cycle ∧ 16 ≤ r.tries) ∧
    (let e : DupEnt := { pkg := 1, st := 0, id := 4, code := 0, at_ := 0 }
     let s := { State.reset with dups := [(0, [e])], cycle := 3000000 }
     (sget [] s.dups 0)[0]? = some e) ∧
    (let s := { sx with wtab := [(winOid 0 0, { valid := true, exported := true, oid := 5, len := 0x8000 })] }
     s.checkExported 5 false = none ∧ s.rangeHere 5 (s.entry 5) 0 8 = true ∧ s.badIn 5 (s.entry 5) 0 8 = 0 ∧ s.freeWin 0 = some 1) ∧
    (let s := { sx with worlds := [(0, { td := .run, aper := [(0, { valid := true, len := 0x8000, oid := 5, write := true, read := true })] })] }
     s.aperHit 0 0x10 8 true = some (5, 0x10) ∧ s.aperHit 0 0x10 8 false = some (5, 0x10) ∧ s.aperHit 0 0x20000 8 false = none) ∧
    (let s := { sl.updSlot 0 fun t => { t with occ := .persistent } with entries := [] }
     s.foreign 0 (mkOid 9 68 7) = true ∧ (s.slot 0).holds = true) := by decide +kernel
theorem witness_ErrorsAndResets : sget (0, 0) State.reset.errCnt (resKey 0 (1, 64 * 2 ^ 24)) = (0, 0) ∧ 1 < State.reset.threshold 0 1 ∧
    tbit (({ State.reset with margins := [(0, 2 ^ 63)] } : State).margin 0) 63 = true ∧ sget 0x7DBA8218000 State.reset.errwin 0 ≠ 0 ∧ (State.reset.tile 4095).fenced = false ∧
    (objs st [(mkOid 0 64 3, 0x1000, 0x1000)]).objectAt 64 0x1000 = some (mkOid 0 64 3) ∧ oidIdx (mkOid 0 64 3) ≠ 0 := by decide +kernel
theorem witness_DecodeEncode : wf (.ldD 15 15 255 15) = true ∧ encode (.ldD 15 15 255 15) = some 0xFFFF378B := by decide +kernel
theorem witness_StepRunsDecoded : Issues (st.withFetchWord 32 0x003100B3) 0 0 0 [] ∧ wordAtPc (st.withFetchWord 32 0x003100B3) 0 0 = 0x003100B3 ∧
    State.trigger { st.withFetchWord 32 0x003100B3 with agenda := [], cur := 0 } 0 (some (.add 1 2 3)) = none ∧ wordAtPc (st.withFetchWord 16 0xB126) 0 0 = 0xB126 := by
  refine ⟨?_, by decide +kernel, by decide +kernel, by decide +kernel⟩
  refine ⟨rfl, rfl, by decide +kernel, by decide +kernel, by decide +kernel, by decide +kernel, by decide +kernel, rfl, rfl, .inl rfl, by decide +kernel, by decide +kernel, by decide +kernel, ?_⟩
  intro j hj
  rcases hj with h | h <;> subst h <;> decide +kernel
theorem witness_StepKeepsMemoryCanonical : State.reset.Canonical ∧ after (step (st.withFetchWord 32 0x003100B3)) (fun t => Memory.wf t.mem) = true :=
  ⟨rfl, by decide +kernel⟩
theorem witness_CsrAccess_write : ∃ d c f, csrNew st (.csrrw 1 0x8C0 2) = some (d, c, f) ∧ (csrAccess c).map (csrRight st.me.mode) = some .rw ∧
    f 7 = some (st.x 2) := ⟨_, _, _, rfl, by decide +kernel, rfl⟩
theorem witness_OwnPoolBytes : isOwn so.gta (so.c 2).o = true ∧ so.gta < 4096 ∧ so.me.cbuf = [] ∧ (so.entry (so.c 2).o).base + 8 + 8 ≤ 2 ^ 48 := by
  decide +kernel
theorem witness_PortRefusals : (let s := cs so [(6, 0xD8, 6, 12, 0)]
    RoomForWindow s ∧ AccessFree s (s.c 6) false ∧ s.c 6 ≠ .null ∧ (s.c 6).has rR = true ∧ isWindow (s.c 6).o = false ∧
      InRange (s.c 6) (memOff (s.c 6) 1 8) 4 ∧ s.check18 (s.c 6) s.gta s.me.lkey false ≠ none) := by
  simp only [RoomForWindow, AccessFree, InRange]; decide +kernel
/-- A landing pair of target 512 at 0x10000 with 448 bytes counted. -/
def Sys2Proof.Test.slp : State := { so with mem := mwrite so.mem 0x10000 (toBytes 8 512 ++ toBytes 8 (2 ^ 56 + 448)) }
theorem witness_LandingWords : MaySync so (so.c 2) 16 16 [rR] false ∧ so.me.occ ≠ .codelet ∧ so.me.restartable = false ∧
    bits (so.land0 (wordAt so (so.c 2) 16)) 56 8 = (so.x 1).toNat % 256 ∧ tbit (so.land1 (wordAt so (so.c 2) 16)) 58 = false ∧
    (let s := { so with mem := mwrite so.mem 0x10018 (toBytes 8 (2 ^ 58)) }
     tbit (s.land1 (wordAt s (s.c 2) 16)) 58 = true) ∧
    (let s := so.upd fun t => { t with occ := .codelet }
     s.me.occ = .codelet) := by
  simp only [MaySync, RoomForWindow, InRange, wordAt]; decide +kernel
theorem witness_LandingCounts : slp.stoppedAt 0x10000 = none ∧ bits (slp.land1 0x10000) 0 56 + 63 < bits (slp.land0 0x10000) 0 56 ∧
    tbit (slp.land1 0x10000) 56 = true ∧ bits (slp.land0 0x10000) 0 56 ≤ bits (slp.land1 0x10000) 0 56 + 64 ∧
    tbit (so.land1 0x10000) 56 = false := by decide +kernel
theorem witness_DoubleTraps : (let s := st.upd fun t => { t with tstat := 0x1000 }
    s.cur ≠ sepKey ∧ s.me.mode = .u ∧ s.me.wins = [] ∧ s.me.held = true ∧ cILLEGAL ≠ cWATCHDOG) ∧ tbit st.me.dcsr.toNat 15 = false := by
  decide +kernel
theorem witness_SystemModes : (st.upd fun t => { t with mode := .d }).me.mode = .d ∧ ss.me.mode = .m ∧ ss.me.occ ≠ .codelet ∧
    (let t := (st.upd fun t => { t with mode := .s, wdDue := true }).me
     t.mode = .s ∧ t.wdDue = true ∧ t.held = false) ∧ (st.upd fun t => { t with mode := .d }).me.dHold = none := by decide +kernel
theorem witness_PassedOver : (let s := st.upd fun t => { t with skip := 2 }
    s.me.skip ≠ 0 ∧ s.me.mode ≠ .d ∧ bits 0x003100B3 2 3 ≠ 7 ∧ s.trigger s.cur none = none ∧ s.me.hold = none) ∧
    (let s := (st.upd fun t => { t with rptc := 2 ^ 47 })
     s.me.rptLive = false ∧ tbit s.me.rptc.toNat 47 = true ∧ s.xn 5 = 0 ∧ s.me.pc.toNat + 4 < 2 ^ 16) := by decide +kernel
theorem witness_Barriers : NoParkedArrival st ∧ 4 ≤ Bar.ahead {} 9 ∧ Bar.ahead {} 9 < 2 ^ 31 ∧ st.me.wins.length < 4 ∧
    ((st.bar 0).ph.getD 0 (0, 0)).2 = 0 ∧ (({ k := 0, ph := [(2, 1)] } : Bar).ph.getD 0 (0, 0)).2 ≠ 0 ∧
    Bar.arrive { k := 0, ph := [(2, 1)] } 0 3 = none := by
  refine ⟨?_, by decide +kernel, by decide +kernel, by decide +kernel, by decide +kernel, by decide +kernel, by decide +kernel⟩
  intro p hp x d l q h
  have : ∀ p ∈ st.slots, p.2.hold = none := by decide +kernel
  simp [this p hp] at h
/-- A strand in S mode with a mailbox in holding entry 3840 of its tile, and one with that entry empty. -/
def Sys2Proof.Test.smm : State := xs { (so.upd fun t => { t with mode := .s }) with hold := [(3840, Cap.mk' 1 0xD8 5 0x8000 0)] } [(4, 3840), (5, 3841)]
theorem witness_CapMoves_mailboxes : HoldOk smm (smm.xn 4) ∧ smm.claimed smm.gta (smm.xn 4) = false ∧ smm.holdAt smm.gta (smm.xn 4) ≠ .null ∧
    sget [] (smm.tile smm.gta).mboxes (smm.xn 4 - 3840) = [] ∧ Droppable smm 1 ∧ HoldOk smm (smm.xn 5) ∧ smm.c 2 ≠ .null ∧
    (smm.c 2).launchRecord = false ∧ smm.holdAt smm.gta (smm.xn 5) = .null ∧ smm.claimed smm.gta (smm.xn 5) = false ∧
    3840 ≤ smm.xn 5 ∧ smm.xn 5 < 3848 ∧ (so.xn 1 < 4096 ∧ so.me.mode = .u) := by
  simp only [HoldOk, Droppable]; decide +kernel
/-- A window at station 0 with its capability in c7, and the halves of another in c8 and c9. -/
def Sys2Proof.Test.sww : State :=
  cs { so with wtab := [(winOid 0 1, { valid := true, exported := true, oid := 5, len := 0x8000 })] }
    [(7, 0xD8, winOid 0 1, 0x8000, 0), (8, 0xD0, winOid 0 1, 0x4000, 0x4000), (9, 0xD0, winOid 0 1, 0x4000, 0)]
theorem witness_CapSplitJoin_windows : sww.c 8 ≠ .null ∧ (sww.c 8).o = (sww.c 9).o ∧ (sww.c 8).g = (sww.c 9).g ∧
    (sww.c 9).clearS.rights = (sww.c 8).clearS.rights ∧ (sww.c 9).has rQ = false ∧ (sww.c 9).has rL = false ∧ (sww.c 9).top = (sww.c 8).b ∧
    (sww.c 9).l + (sww.c 8).l < 2 ^ 40 ∧ sww.check15w (sww.c 9) sww.gta = none ∧ (sww.c 9).l + (sww.c 8).l = sww.objLen (sww.c 9).o ∧
    (sww.c 9).isOwner = true ∧ (sww.c 9).launchRecord = false := by decide +kernel
theorem witness_CapInfo : so.c 2 ≠ .null ∧ so.check15w (so.c 2) so.gta true = none ∧ isWindow (so.c 2).o = false ∧ so.c 4 = .null ∧
    sww.c 7 ≠ .null ∧ sww.check15w (sww.c 7) sww.gta true = none ∧ isWindow (sww.c 7).o = true := by decide +kernel
theorem witness_CapCounts_full : (let s := { so with entries := sput {} so.entries 5 { so.entry 5 with fracs := 4095, fills := 15 } }
    4095 ≤ (s.entry (s.c 2).o).fracs ∧ 15 ≤ (s.entry (s.c 2).o).fills ∧ s.check16 (s.c 2) s.gta = none ∧ s.storeBusy s.cur (s.c 2).o = false) := by
  decide +kernel
theorem witness_Objects_free : oidIdx (so.c 2).o ≠ 0 ∧ so.late.any (fun p => p.2.1.o == (so.c 2).o) = false ∧
    (so.entry (so.c 2).o).fracs = 0 ∧ (so.entry (so.c 2).o).fills = 0 := by decide +kernel
theorem witness_KeyLife_states : (let s := xs { sk with keys := [(7, { st := .ending }), (8, { st := .live, world := 3 })] } [(6, 7), (5, 8), (4, 9)]
    s.me.mode ≠ .u ∧ RoomForWindow s ∧ (s.key (s.xn 6)).st = .ending ∧ (s.key (s.xn 6)).world = s.myWorld ∧
      (s.key (s.xn 5)).world ≠ s.myWorld ∧ s.cur ≠ sepKey ∧ (s.key (s.xn 4)).st = .free) ∧
    ({ sk with entropyBad := true } : State).entropyBad = true ∧ sk.late = [] := by
  simp only [RoomForWindow]; decide +kernel
/-! Moves, mailboxes, rings and churn. -/
theorem witness_MoveCommands_end : (let c := { cmd false copyOp with running := true, went := true, fin := true }
    let s := { se with cmds := [c] }
    s.cmds.find? (fun c => c.id == 1) = some c ∧ c.mx = false ∧ c.fin = true ∧ s.queueFull 1 = false) ∧
    (let c := { cmd false (.copy (Cap.mk' 1 0xD8 8 256 0) (Cap.mk' 1 0xD8 10 256 0) .null [0] [] []) with reads := [10] }
     let s := { sv with cmds := [c] }.updSlot 0 fun t =>
       { t with wins := [{ id := 1, addr := 0, ibits := 0, left := 0, wAt := 0, st := .wait (.resident (se.c 6) 0 (.store [(0, [1])]) none) }] }
     MayStart s 0 c ∧ s.cmdDrained c = false) := by
  simp only [MayStart]; decide +kernel
theorem witness_TransfersOfBytes_there : sg.lost (Cap.mk' 1 0xD8 8 256 0) = false ∧ sg.lost (Cap.mk' 1 0xD8 9 256 0) = false := by decide +kernel
/-- The mailbox with a header that leaves 768 bytes before the end: the pad record of the example. -/
def Sys2Proof.Test.smp : State := { smb with mem := mwrite smb.mem (flat 0 0x50000) (toBytes 8 31744 ++ toBytes 8 32000 ++ toBytes 8 32000) }
def Sys2Proof.Test.big : Msg := { msg with pay := List.replicate 992 5 }
theorem witness_MailboxSpace_pad : (let s := { smp with msgs := [big] }
    s.msgs.find? (fun m => m.id == 4) = some big ∧ s.inOrder big = true ∧ s.bounceCode big = none ∧ s.mbox 0 0 = some (0x50000, 32768) ∧
      s.noWrite (flat (ownSp 0) 0x50000) 64 = false ∧ big.how ≠ .copy ∧ big.size = 1024 ∧
      reserve (s.mbGet 0 0x50000 0 8) (s.mbGet 0 0x50000 8 8) (s.mbGet 0 0x50000 16 8) 32768 1024 = some (31744, 33792, 32000, some 32000, 32768) ∧
      s.noWrite (flat (ownSp 0) (0x50000 + (64 + 32000 % 32768))) 16 = false) ∧
    (let s := { smp with msgs := [{ big with st := .held 0 31000 }] }
     s.mbGet 0 0x50000 0 8 ≠ 31000) ∧ 0 + 4096 ≤ ({ smp with cycle := 4096 } : State).cycle ∧ reserve 0 32640 0 32768 256 = none := by decide +kernel
theorem witness_MailboxMessages_ends : (let m := { msg with st := .reserved 0, payDone := true }
    let s := { smb with msgs := [m] }
    s.msgs.find? (fun m => m.id == 4) = some m ∧ s.mbox 0 0 = some (0x50000, 32768) ∧ s.countHeld 4 = false ∧ m.how ≠ .owner ∧ m.how ≠ .copy ∧
      s.badw = [] ∧ s.noWrite (flat (ownSp 0) 0x50000) 64 = false ∧ s.noWrite (flat (ownSp 0) (0x50000 + 64)) 32 = false ∧
      sget [] (s.tile 0).mbWaits 0 = [] ∧ (s.tile 0).tstop = false) ∧
    (let m := { msg with how := .copy, cap := Cap.mk' 1 0xD8 8 64 0, newO := 9, st := .reserved 0 }
     let s := { se with msgs := [m] }
     s.msgs.find? (fun m => m.id == 4) = some m ∧ m.todo = [] ∧ m.copyDone = false ∧ (s.entry m.cap.o).gen = m.cap.g ∧ oidIdx m.cap.o ≠ 0 ∧
       s.late = [] ∧ s.holdsLive m.cap.o (s.entry m.cap.o) = false) := by decide +kernel
theorem witness_MailboxMessages_waits : smb.me.occ ≠ .codelet ∧ RoomForWindow smb ∧ Droppable smb 3 ∧ smb.mbox smb.gta 0 = some (0x50000, 32768) ∧
    nextMsg ((smb.mbRelease smb.cur 0).mbGet smb.gta 0x50000 16 8) ((smb.mbRelease smb.cur 0).recs smb.gta 0) = none ∧
    sget 0 ({ smb with badh := [(3840, 1)] } : State).badh (smb.gta * 4096 + (3840 + 0)) ≠ 0 ∧ (smb.holdAt smb.gta 3840).o = 11 ∧
    ({ smb with badw := [(flat 0 0x50010 / 8, 1)] } : State).badWords (flat (ownSp smb.gta) 0x50000) 32 = true ∧ st.mbox st.gta 0 = none ∧
    sr.me.occ = .codelet ∧ sget [] (smb.tile smb.gta).mbWaits 0 = [] := by
  simp only [RoomForWindow, Droppable]; decide +kernel
/-- The ring with its slots taken: pseq has passed the cursor by four. -/
def Sys2Proof.Test.srf : State := { srg with mem := mwrite srg.mem 0x60008 (toBytes 8 4) }
def Sys2Proof.Test.push : Cmd := { cmd false (.push (srg.c 4) (srg.c 5) 3 0 [1, 2, 3] none) with running := true, went := true }
theorem witness_Rings_quiet : RingQuiet srg 0x60000 0 ∧ RingQuiet { srg with cmds := [push] } 0x60000 1 := by
  have hs : srg.subs = [] := rfl
  have hc : srg.cmds = [] := rfl
  refine ⟨⟨by decide +kernel, by simp [hs], by simp [hc]⟩, ⟨by decide +kernel, by simp [hs], ?_⟩⟩
  intro c h hid
  have : c = push := by simpa using h
  exact absurd (this ▸ rfl) hid
theorem witness_Rings_push : (let s := { srg with cmds := [push] }
    s.cmds.find? (fun c => c.id == 1) = some push ∧ push.went = true ∧ push.fin = false ∧
      (s.ringAtPort (srg.c 4) push.g push.lkey true 0).toOption = some ⟨0x60000, 6, 1, 0, 4, 1⟩ ∧ s.pushRoom ⟨0x60000, 6, 1, 0, 4, 1⟩ 1 = true ∧
      s.slotRefused (srg.c 4) ⟨0x60000, 6, 1, 0, 4, 1⟩ 1 11 = false) ∧
    (let s := { srf with cmds := [push] }
     (s.ringAtPort (srg.c 4) push.g push.lkey true 0).toOption = some ⟨0x60000, 6, 1, 0, 4, 4⟩ ∧ s.pushRoom ⟨0x60000, 6, 1, 0, 4, 4⟩ 4 = false) ∧
    srg.ringHeld srg.cur (srg.c 4).o = false ∧ srg.ringStores srg.cur (srg.c 4).o = false ∧ srg.heldBy (srg.c 6) true = false ∧
    (∀ c ∈ srg.cmds, c.id ≠ 0) ∧ srg.c 0 = .null ∧
    (let s := { srg with mem := mwrite srg.mem 0x60040 (toBytes 6 7) }
     s.popReady ⟨0x60000, 6, 1, 0, 4, 1⟩ 0 = false) := by decide +kernel
theorem witness_Churn_waits : (let s := { (xs (cs (objs srf [(mkOid 0 68 7, 0x40000, 0x8000)]) [(4, 0xC2, 12, 0x1000, 0)]) []) with subs := [(0, some lsub)] }
    s.sub 0 = some lsub ∧ lsub.stopReq = [] ∧ lsub.ended = false ∧ lsub.resv = none ∧
      (s.ringAtPort lsub.ring lsub.tile lsub.lkey true 0).toOption = some ⟨0x60000, 6, 1, 0, 4, 4⟩ ∧
      s.pushRoom ⟨0x60000, 6, 1, 0, 4, 4⟩ 4 = false) ∧ ssub.cur < 1 ∧
    (sch.entry ssub.obj.o).ext = false ∧ (sch.sub (sch.xn 6) = none) ∧ ({ ssub with ended := true } : Sub).ended = true ∧
    ({ ssub with stopReq := [(0, 1, 5)] } : Sub).returned = false := by decide +kernel
theorem witness_Churn_quiet : RingQuiet { sch with subs := [(0, some lsub), (1, some ssub)] } 0x60000 0 := by
  have hc : sch.cmds = [] := rfl
  refine ⟨by decide +kernel, fun p hp u h => ?_, by simp [hc]⟩
  have hp : p = (0, some lsub) ∨ p = (1, some ssub) := by simpa using hp
  obtain rfl | rfl := hp <;> cases h <;> rfl
/-! Codelets, strands and tags. -/
/-- The codelet strand executes, not restartable; a codelet parked on a granule in slot 1. -/
def Sys2Proof.Test.scx : State := scd.upd fun t => { t with occ := .codelet, restartable := true }
def Sys2Proof.Test.scp : State :=
  let w : Win := { id := 1, addr := 0, ibits := 0, left := 0, wAt := 0, st := .wait (.resident (scd.c 3) 0 (.load [(0, 8)] (.v 2)) none) }
  scd.updSlot 1 fun t => { t with occ := .codelet, restartable := true, desc := 0x20000, wins := [w] }
theorem witness_Codelets_forms : RoomForWindow scd ∧ scd.me.restartable = false ∧ scd.xn 6 < 2 ^ 32 ∧
    scd.matches_ (mkHandle 2 0 0x20000) = false ∧ badHandle (mkHandle 2 0 0x20000) = false ∧ hHome (mkHandle 2 0 0x20000) = scd.gta ∧
    hHome (mkHandle 2 1 0x20000) ≠ scd.gta ∧ scx.me.restartable = true ∧ scx.me.cbufUsed + 24 ≤ 4096 ∧ RoomForWindow scx ∧
    (scd.slot (0 * 16 + 1)).occ = .empty ∧ (scd.tile 0).tstop = false ∧
    (let s := se.upd fun t => { t with occ := .codelet }
     s.me.cbuf = [] ∧ s.late.any (·.1 == s.cur) = false) ∧
    (scp.slot 1).occ = .codelet ∧ (scp.slot 1).restartable = true ∧ scp.frozen 1 = false ∧ se.xn 1 < 2 ^ 32 ∧ se.me.mode = .u ∧
    (List.range 4).all (fun k => decide (se.darg se.gta (descAt se (se.c 8)) k < 3840)) = true ∧
    se.badDescriptor se.gta (descAt se (se.c 8)) = false := by
  simp only [RoomForWindow]; decide +kernel
theorem witness_Codelets_abort : (∃ w ∈ (scp.slot 1).wins, ∃ c lk q r, w.st = .wait (.resident c lk q r)) ∧ ∀ pr, TailInRing se 0 pr := by
  refine ⟨⟨{ id := 1, addr := 0, ibits := 0, left := 0, wAt := 0, st := .wait (.resident (scd.c 3) 0 (.load [(0, 8)] (.v 2)) none) }, by decide +kernel,
    _, _, _, _, rfl⟩, fun pr p => ?_⟩
  have h : queue se 0 pr = [] := rfl
  simp [h]
/-- A context that migrates from tile 1 to tile 0 of the same run. -/
def Sys2Proof.Test.ctx : Ctx :=
  { id := 3, origin := 1, dest := 0, seg := 0, x := [], c := [], fmode := 0, mxcfg := 0, wlim := 0, lkey := 0, instret := 0, wdog := 0, tie := 0, tip := 0 }
theorem witness_Strands_entry : (let s := { se.updTile 0 fun t => { t with pword := 0x402, entryQ := [ctx] } with wrow := 8, worlds := [(0, { td := .run })] }
    (s.tile 0).entryQ = ctx :: [] ∧ EmptySlot s 0 = some 1 ∧ (s.tile 0).fenced = false ∧ s.worldOpen 0 = true) ∧
    (let s := { se with migs := [ctx] }
     s.migs.find? (fun x => x.id == ctx.id) = some ctx ∧ ctx.back = false ∧ (s.tile ctx.dest).fenced = false ∧
      (∀ x ∈ s.migs, x.origin = ctx.origin → x.dest = ctx.dest → x.back = false → ctx.id ≤ x.id) ∧ (s.tile ctx.dest).entryQ.length < 4) ∧
    (let s := se.updSlot 0 fun t => { t with yieldFor := [1], yieldUntil := 64 }
     (s.slot 0).yieldFor ≠ [] ∧ (s.slot 0).yieldUntil ≤ ({ s with cycle := 64 } : State).cycle) ∧ 2 ^ 21 ≤ (xs se [(6, 2 ^ 21)]).xn 6 := by
  decide +kernel
theorem witness_Strands_stored : ∀ o, se.pendingStores se.gta o = [] ∧ se.pendingBufs se.gta o = [] := fun _ => ⟨rfl, rfl⟩
theorem witness_Tags_forms : RoomForWindow scd ∧ scd.xn 1 < 2 ^ 44 ∧ bits (scd.xn 1) 16 16 = 0 ∧ scd.me.restartable = false ∧ scd.amoBusy scd.cur = false ∧
    (let w := 2 ^ 31 + 100 * 2 ^ 16
     tbit w 31 = true ∧ bits w 0 16 = 0 ∧ bits w 28 3 = 0 ∧ bits w 16 12 < 3840 ∧ scd.holdAt scd.gta 100 = .null ∧ scd.claimed scd.gta 100 = false) ∧
    (let s := { scd with treqs := [tagR false], tags := [(0, [{ key := mkOid 0 68 7 * 2 ^ 16 + 1, pub := 4 }])] }
     s.treqs.find? (fun x => x.id == 9 && !x.decl) = some (tagR false) ∧ s.lateOn 0 (tagR false).cap.o = false ∧
      (tagOfKey s (tagR false).key).map (·.pub) = some 4 ∧ (s.slot 0).wins = []) := by
  simp only [RoomForWindow]; decide +kernel

/-! Windows, traps, expiries, stops and saves. -/
theorem witness_WindowCloses_order : ((swin (.done {})).slot 0).closesLater 1 = false ∧ ¬LaterWrote (swin (.done {})) 0 1 0 5 := by
  simp only [LaterWrote]; decide +kernel
/-- A window with an older one beside it, the strand's watchdog due; registers that the window of id 2 has written in this cycle. -/
theorem witness_WindowCloses_later : (let s := swin (.done {}) |>.updSlot 0 fun t =>
      { t with wdDue := true, wins := t.wins ++ [{ id := 2, addr := 4, ibits := 0, left := 0, wAt := 0, st := .done {} }] }
    (s.slot 0).closesLater 2 = true) ∧
    (let s := swin (.done {}) |>.updSlot 0 fun t => { t with closedAt := 1, closedDst := [(2, 0, 5), (2, 1, 6), (2, 2, 7)] }
     LaterWrote s 0 1 0 5 ∧ LaterWrote s 0 1 1 6 ∧ LaterWrote s 0 1 2 7 ∧ ¬LaterWrote s 0 1 2 8 ∧ (s.slot 0).closesLater 1 = false) ∧ ((swin (.fail 5 5)).slot 0).wins.map (·.st) = [.fail 5 5] := by
  simp only [LaterWrote]; decide +kernel
theorem witness_TrapsTaken_irq : (let t := (sti fun t => { t with tie := 0x1E, tip := 0x0A }).me
    t.dfs = [] ∧ t.sync = none ∧ t.stopped = false ∧ t.halted = false ∧ wdogDue t = false ∧ t.stopReq = false ∧ t.haltReq = 0) := by decide +kernel
/-- A window of strand 0 that waits, with its limit run out. -/
def Sys2Proof.Test.slim (w : Wait) : State :=
  so.upd fun t => { t with wins := [{ id := 1, addr := 0, ibits := 0, left := 0, wAt := 0, lim := some 0, st := .wait w }] }
theorem witness_Expiries_limits : (slim (.bar 3 5)).frozen 0 = false ∧ ((slim (.bar 3 5)).slot 0).wdPend = false ∧
    ((slim (.recv 0 5 6)).slot 0).wins.map (·.st) = [.wait (.recv 0 5 6)] ∧ (st.upd fun t => { t with tmDue := true }).me.tmDue = true ∧
    (let t := (st.upd fun t => { t with wdPend := true, tstat := 0x1000 }).me
     t.wdPend = true ∧ t.held = true ∧ t.stopped = false ∧ t.halted = false) ∧
    (let s := { slim (.resident (so.c 3) 0 (.load [(0, 8)] (.v 2)) (some 64)) with cycle := 64 }
     (s.slot 0).wins.map (·.st) = [.wait (.resident (so.c 3) 0 (.load [(0, 8)] (.v 2)) (some 64))] ∧ 64 ≤ s.cycle) ∧
    (let s := st.upd fun t => { t with wdPend := true, hold := some ⟨.barLead 3 0, some 5, 0⟩ }
     s.parkedWins 0 = [] ∧ s.me.wdr = false) ∧ (so.entry (so.c 2).o).base + 16 < 2 ^ 48 := by decide +kernel
theorem witness_Expiries_fe : (let w : Win := { id := 1, addr := 0, ibits := 0, left := 0, wAt := 0, retryAt := 64, st := .wait (.fe .st (so.c 2) 16 7 0 false false 0) }
    let s := { so.upd fun t => { t with wins := [w] } with cycle := 64, waits := [(0, List.replicate 64 (9, 9))] }
    s.feWait 0 1 = some (.st, so.c 2, 16, 7, 0) ∧ s.refusedWrite (so.c 2).o (s.entry (so.c 2).o) 16 8 = none ∧ FeOp.st.stores = true ∧
      64 ≤ (sget [] s.waits (oidSp (so.c 2).o)).length ∧ FeOp.st.ready (s.feBit (s.feAddr (so.c 2) 16)) = false) := by decide +kernel
theorem witness_StopsAndSaves_forms : (let s := ssv.updSlot 3 fun t => { t with stopped := false }
    (s.slot 3).holds = true ∧ (s.slot 3).stopped = false ∧ (s.slot 3).halted = false) ∧
    (let s := ssv.updSlot 3 fun t => { t with stopped := false, halted := true }
     (s.slot 3).holds = true ∧ (s.slot 3).halted = true) ∧ (ssv.slot 3).hold = none ∧
    (let s := slim (.land (so.c 2) 16 7 5) |>.upd fun t => { t with stopReq := true }
     s.me.stopReq = true ∧ s.me.mode ≠ .d ∧ s.me.nextAt ≤ s.cycle ∧ s.me.wdPend = false ∧ s.me.wins.all (fun x => !s.cmdWin 0 x) = true) ∧
    (let s := ssv.upd fun t => { t with wins := [{ id := 1, addr := 0, ibits := 0, left := 0, wAt := 0, st := .wait (.save 3 (ssv.c 8) 0) }] }
     s.saveReady 3 = true ∧ s.frozen 0 = false ∧ s.me.stopped = false ∧ s.me.restartable = false ∧ s.me.wfiEnds = false) ∧
    (ssv.slot 3).mode ≠ .d ∧ st.me.mode = .u := by decide +kernel
/-! Debug, tests, the host, attestation, links and errors. -/
/-- After bring-up. -/
def Sys2Proof.Test.sup : State := { State.reset with up := true }
theorem witness_DebugModule_forms : (let t := (st.upd fun t => { t with haltReq := 3 }).me
    t.dfs = [] ∧ t.sync = none ∧ t.wdPend = false ∧ t.nextAt ≤ st.cycle ∧ t.mode = .u ∧ t.halted = false) ∧
    (let t := (st.upd fun t => { t with halted := true, mode := .d }).me
     t.dHold = none) ∧ st.me.halted = false ∧
    (List.range 16).all (fun i => (st.slot i).recs == [] && (st.slot i).dHold == none) = true ∧
    (List.range 8).all (fun r => !tbit State.reset.wrow (4 * r + 3)) = true ∧
    (let s := se.updTile 0 fun t => { t with trBuf := [5], trobj := mkOid 0 68 7 * 2 ^ 36 }
     (s.tile 0).trBuf = [5] ∧ (s.tile 0).trLost = 0 ∧ (s.entry ((s.tile 0).trobj / 2 ^ 36)).poison = false ∧ (s.entry ((s.tile 0).trobj / 2 ^ 36)).bad = false ∧
      s.foreign 0 ((s.tile 0).trobj / 2 ^ 36) = false ∧ s.keyEnded (s.entry ((s.tile 0).trobj / 2 ^ 36)).keyid = false ∧
      (s.entry ((s.tile 0).trobj / 2 ^ 36)).ext = false ∧ (s.entry ((s.tile 0).trobj / 2 ^ 36)).base + (s.tile 0).trobj % 2 ^ 36 + 8 ≤ 2 ^ 40) := by
  decide +kernel
theorem witness_TestsAndBoard_forms : (let s := xs (st.upd fun t => { t with mode := .s }) [(6, 5)]
    MayTest s (s.xn 6) 0) ∧ RoomForWindow st ∧ st.me.mode = .u ∧
    (let s := { State.reset with cur := sepKey, slots := [(sepKey, { occ := .persistent, mode := .m })] }
     s.me.mode = .m ∧ RoomForWindow s) ∧ badTest true 0 1 = true ∧ badTest true 1 0 = false ∧
    (sup.updTile 0 fun t => { t with run := true }).bistReady (bits 1 24 12) 1 = false ∧ sup.romFail = 0 ∧ sup.up = true ∧
    sget none sup.tests 0 = none ∧ sup.bistReady (bits 1 24 12) 1 = true ∧ sup.unitBusy 0 4 = false ∧ State.reset.up = false ∧
    sget none ({ sup with railsNew := [(0, some (3, 9))] } : State).railsNew 0 = some (3, 9) ∧ ({ sup with wrow := 8 } : State).assigned 0 = true := by
  simp only [MayTest, RoomForWindow]; decide +kernel
/-- The launch of `sl` reads nothing of memory but its code object, which is resident whatever memory holds. -/
theorem witness_Launches_ready : LaunchHere sl (launchAt sl 0) true := by
  intro m r n
  rfl
theorem witness_Launches_held : (let s := { sl with worlds := [(0, { td := .run, quiesce := true })] }
    (s.world 0).quiesce = true ∧ s.freeRunEntry = some 0) ∧
    (let s := { sl with worlds := [(0, { td := .locked })] }
     HostReady s 0 1 ∧ badLaunch (s.hget 0) (s.hzero 0) = false ∧ (s.world 0).td ≠ .run) ∧ (sl.world 0).td = .run ∧
    (sget {} ({ sl with runs := [(0, { st := .running, id := 1, notify := [3] })] } : State).runs 0).notify = [3] := by
  simp only [HostReady]; decide +kernel
theorem witness_HostRequests_forms : sup.badWrow 0x98 = false ∧ sup.badWrow 0x808 = true ∧ sup.romFail = 0 ∧ sup.up = true ∧
    sup.certBusy 3 = false ∧ ({ sup with conns := [(0, { phase := 3, cert := some 3 })] } : State).certBusy 3 = true ∧
    (({ sup with boardCert := [⟨3, 0, [1]⟩] } : State).boardCert.find? fun c => !sup.certBusy c.slot) = some ⟨3, 0, [1]⟩ ∧ NoHeldWrite sup 3 ∧
    (let s := { sl with entries := [(mkOid 0 68 7, { base := 0x40000, len := 0x20000, ext := false, valid := true })] }
     let s := (((s.hput 0 0x1000 1 5).hput 0 0x1001 1 4).hput 0 0x1008 4 (mkOid 0 68 7)).hput 0 0x1010 4 1 |>.hput 0 0x1014 4 1
     HostReady s 0 5 ∧ s.late = [] ∧ (∀ p ∈ s.slots, p.2.wins = []) ∧ (s.entry (mkOid 0 68 7)).ext = false) ∧
    (let s := (((sl.hput 0 0x1000 1 5).hput 0 0x1001 1 2).hput 0 0x1002 2 3).hput 0 0x1006 2 8
     HostReady { s with opWorld := 1 } 0 5 ∧ s.hget 0 0x1001 1 = 2) := by
  simp only [HostReady]
  refine ⟨by decide +kernel, by decide +kernel, by decide +kernel, by decide +kernel, by decide +kernel, by decide +kernel, by decide +kernel,
    ⟨by simp [sup, State.reset], by simp [sup, State.reset]⟩, by decide +kernel, by decide +kernel⟩
theorem witness_HostRequests_restore :
    (let s := { sl with entries := [(mkOid 0 68 7, { base := 0x40000, len := 0x20000, ext := true, valid := true })] }
     let s := (((s.hput 0 0x1000 1 5).hput 0 0x1001 1 4).hput 0 0x1008 4 (mkOid 0 68 7)).hput 0 0x1010 4 1 |>.hput 0 0x1014 4 1
     let s := { s with mem := mwrite s.mem (flat 68 0x40000) (toBytes 4 9 ++ toBytes 4 (2 ^ 31 + 12)) }
     HostReady s 0 5 ∧ 2 ^ 31 ≤ mnat s.mem (flat 68 0x40004) 4 ∧ s.badGranules 0 (mkOid 0 68 7) 1 1 = false) := by
  simp only [HostReady]; decide +kernel
theorem witness_WorldInterface_forms : (let s := { sl with worlds := [(0, { td := .quiesced })] }
    (s.world 0).td = .quiesced ∧ s.strandsOf 0 = [] ∧ s.hasWorld 0 = true) ∧
    (let s := { sl with worlds := [(0, { td := .locked })] }
     (s.world 0).td = .locked ∧ (s.world 0).td ≠ .unlocked) := by decide +kernel
theorem witness_Links_forms : (let r : UaReq := { id := 3, st := 0, op := .access 0 1, sentAt := 0, tries := 1 }
    let s := { State.reset with uareqs := [r], cycle := 30000 }
    s.uaReq 3 = some r ∧ r.busy = none ∧ r.sentAt + 30000 ≤ s.cycle ∧ r.tries < 16) ∧
    (let r : UaReq := { id := 3, st := 0, op := .access 0 1, sentAt := 0, tries := 1, busy := some 0 }
     let s := { State.reset with uareqs := [r], cycle := 15000 }
     s.uaReq 3 = some r ∧ r.busy = some 0 ∧ 0 + 15000 ≤ s.cycle) ∧
    (let peer := 2 + 5 * 2 ^ 26 + 2 * 2 ^ 86 + 4 * 2 ^ 100
     let s := { State.reset with dups := [(0, [{ pkg := 2, st := 0, id := 4, code := 0, at_ := 0 }])] }
     ((sget [] s.dups 0).find? fun d => d.pkg == bits peer 86 8 && d.st == bits peer 94 6 && d.id == bits peer 100 32).isSome = true ∧
      ((sget [] State.reset.dups 0).find? fun d => d.pkg == bits peer 86 8 && d.st == bits peer 94 6 && d.id == bits peer 100 32) = none ∧
      bits peer 0 8 ≠ State.reset.pkgno ∧ (sget [] State.reset.dups 0).length < 4096) ∧
    (let s := { State.reset with wtab := [(winOid 0 1, { valid := true, exported := false, oid := 0, len := 64, pkg := 2, pgen := 1 })] }
     (s.winEnt (winOid 0 1)).map (fun e => (e.valid, e.exported, e.pgen)) = some (true, false, 1)) ∧
    (sl.world 0).td ≠ .quiesced ∧ (sl.world 0).td ≠ .error ∧ 69 * 2 ^ 48 / 256 * 256 / 2 ^ 48 % 128 = 69 := by decide +kernel
theorem witness_ErrorsAndResets_forms : (let s := { State.reset with winDue := [0] }
    0 ∈ s.winDue) ∧
    (let s := { State.reset with errCnt := [(resKey 0 (1, 64 * 2 ^ 24), (1, 0))], cycle := 15 * 0x7DBA8218000 - 1 }
     (s.cycle + 1) / 15 % sget 0x7DBA8218000 s.errwin 0 = 0 ∧ ∃ p ∈ s.errCnt, p.1 / 2 ^ 80 = 0) ∧
    sget false ({ State.reset with throttle := [(0, true)] } : State).throttle 0 = true := by decide +kernel
theorem witness_InstructionsComplete : sk.me.mode ≠ .u ∧ RoomForWindow sk ∧ (smb.mbox smb.gta 0).isSome = true ∧ Droppable smb 3 ∧
    smb.me.occ ≠ .codelet ∧ st.me.rptLive = false ∧ (sget {} (st.tile st.gta).ov 0).valid = true ∧ (sget {} (st.tile st.gta).ov 0).landed = true ∧
    (sget {} (st.tile st.gta).ov 0).seg = st.xn 1 / 8192 := by
  simp only [RoomForWindow, Droppable]; decide +kernel
theorem witness_EventsComplete : (let s := { smb with msgs := [{ msg with st := .reserved 0, payDone := true }] }
    (s.mbox 0 0).isSome = true ∧ s.countHeld 4 = false ∧ msg.how = .none) ∧
    (({ so with zfill := [(0, 7, [(5, 2)])] } : State).zfill.find? fun z => z.1 == 0 && z.2.1 == 7).isSome = true ∧
    (sget {} State.reset.wtab (winOid 0 0)).valid = false ∧ (slim (.land (so.c 2) 16 7 5)).frozen 0 = false ∧
    (sl.aperHit 0 0x10 8 true) = none ∧ sl.hasWorld 0 = true ∧ (sl.world 0).td = .run := by decide +kernel
/-! ### More hypotheses of the statements -/

theorem witness_EndsRepeat : (st.upd fun t => { t with rptLive := true, rptc := 2 ^ 47 }).me.rptLive = true ∧
    (xs (st.upd fun t => { t with rptLive := true }) [(6, 8192)]).xn 6 / 8192 = 1 := by decide +kernel
theorem witness_OtherStores_vectors : (so.entry (so.c 3).o).ext = false ∧ VFile so [4] [5, 4] ∧ Writable so (so.c 3) (memOff (so.c 3) 1 128) 128 ∧
    (∀ a ∈ strided (so.c 3) 0 (2 ^ 62 + 4), Writable so (so.c 3) a 2 ∧ a.toNat % 2 = 0) ∧
    (∀ a ∈ indexed (so.c 3) 0x7FFC, Writable so (so.c 3) a 4 ∧ a.toNat % 4 = 0) ∧
    Writable sr (sr.c 3) (memOff (sr.c 3) 1 128) 128 ∧ sr.me.cbufUsed + bufferUse [(0, List.replicate 128 0)] ≤ 4096 ∧
    (∀ a ∈ strided (sr.c 3) 0 (2 ^ 62 + 4), Writable sr (sr.c 3) a 2 ∧ a.toNat % 2 = 0) ∧
    sr.me.cbufUsed + bufferUse (List.replicate 64 (0, [0, 0])) ≤ 4096 := by
  simp only [VFile, Writable, InRange]; decide +kernel
theorem witness_AccessRefusals_vectors : (16 ≤ 31 ∧ (State.reset.tile State.reset.gta).v32 = false) ∧ (so.tile so.gta).v32 = true ∧
    (let as := strided (so.c 2) (2 ^ 15 - 4) (2 ^ 62 + 4)
     as[1]? = some (2 ^ 15 : Int) ∧ ¬ InRange (so.c 2) (2 ^ 15) 2 ∧ InRange (so.c 2) (2 ^ 15 - 4) 2) ∧
    (let as := strided (so.c 2) 1 (2 ^ 62 + 4)
     (∀ a ∈ as, InRange (so.c 2) a 2) ∧ as[0]? = some 1 ∧ wrap 64 1 % 2 ≠ 0) ∧
    [2].any (tbit (so.upd fun t => { t with badv := 4 }).me.badv) = true ∧
    (let s := cs so [(6, 0xD8, 6, 0x100, 0)]
     InRange (s.c 6) (memOff (s.c 6) 1 128) 128 ∧ (memOff (s.c 6) 1 128).toNat % 8 = 0 ∧ s.check18 (s.c 6) s.gta s.me.lkey true ≠ none) := by
  simp only [InRange]; decide +kernel
theorem witness_FullEmptyWords_drains : (let s := { so with cmds := [cmd false copyOp], nextId := 2 }
    s.drains s.cur s.nextId = true ∧ s.me.occ ≠ .codelet ∧ s.amoBusy s.cur = false ∧ s.heldBy (s.c 2) true = false) ∧ sr.me.occ = .codelet := by
  decide +kernel
theorem witness_LandingCounts_refused : ({ slp with marks := [(0x10000, 16)] } : State).noWrite 0x10000 16 = true ∧ slp.noWrite 0x10000 16 = false := by
  decide +kernel
theorem witness_MatrixConfig : bits 0xA8884 15 3 ≥ 5 ∧ admitted (bits 0x144 0 5) (bits 0x144 5 5) = false ∧ bits 0x144 15 3 < 5 ∧
    admitted (bits (0x80084 + 17 * 1024) 0 5) (bits (0x80084 + 17 * 1024) 5 5) = true ∧ bits (0x80084 + 17 * 1024) 10 5 = 17 ∧
    admitted (bits 0x80884 0 5) (bits 0x80884 5 5) = true ∧ lastSlot 0x80884 ≤ 8 ∧ 8 < lastSlot (0x80884 + 7 * 2 ^ 22) ∧
    0x80884 + 7 * 2 ^ 22 < 2 ^ 25 := by decide +kernel
/-- A command of tile 0 at the head of its queue that its port checks refuse; an mx.wld, an integer mx.mma, ready to start. -/
def Sys2Proof.Test.smx (op : CmdOp) : State := { se with cycle := 8, cmds := [cmd true op] }
theorem witness_MatrixProgress_refused : (let s := smx (.zero (Cap.mk' 2 0xD8 8 0x10000 0))
    (s.mxHead 0).any (fun c => s.mxReady c && !(s.mxPortChk c).isOk && !(s.slot c.key).wins.any Win.feWait) = true) ∧
    NoSwap (cmd true (.zero .null)) := by
  exact ⟨by decide +kernel, fun _ _ _ h => by cases h⟩
theorem witness_MatrixProgress_effects : (let s := smx (.wld (se.c 5) 1 4)
    (s.mxHead 0).any (fun c => s.mxReady c && (s.mxPortChk c).isOk && s.mxHere c && (s.mxEngineChk c).isOk) = true) ∧
    (let v := 330
     let s := (smx (.mma (se.c 8) (se.c 5) .null v)).updTile 0 fun t => { t with accObj := 8, wslots := [(0, { valid := true, fmt := 10, scale := 7 })] }
     clsA (cfgA v) = 2 ∧ (s.mxHead 0).any (fun c => s.mxReady c && (s.mxPortChk c).isOk && s.mxHere c && (s.mxEngineChk c).isOk) = true) := by
  decide +kernel
theorem witness_MatrixProgress_ends : (let h := Cap.mk' 1 0xD8 (mkOid 0 68 7) 64 0
    let s := { se with cycle := 8, cmds := [{ cmd true (.swap h 3 (some (List.replicate 64 7))) with running := true }] }
    ((s.onUnit 0 0).any fun c => decide (c.doneAt ≤ s.cycle) && s.mxClean c && ((s.mxResult c).1 == some (h, List.replicate 64 7))) = true ∧
      isSram h.o = false ∧ (s.entry h.o).ext = false ∧ (s.entry h.o).base + h.b + 64 ≤ 2 ^ 40) ∧
    (let s := { se with cycle := 8, cmds := [{ cmd true (.wld (se.c 5) 1 4) with running := true }] }
     ((s.onUnit 0 0).any fun c => decide (c.doneAt ≤ s.cycle) && s.mxClean c) = true) := by decide +kernel
theorem witness_MatrixArithmetic_forms : (∃ cd ca v, (cmd true (.st cd ca v)).op = .st cd ca v) ∧ (1 < 2 ∧ 2 < 3 ∧ 0 < 1) ∧
    (∃ cd ca cb v, (cmd true (.mma cd ca cb v)).op = .mma cd ca cb v ∧ cb ≠ .null) :=
  ⟨⟨.null, .null, 0, rfl⟩, by decide, ⟨.null, .null, Cap.mk' 1 0xD8 8 64 0, 0, rfl, by decide +kernel⟩⟩
/-- A swap at each of two mirrored tiles, of unequal lengths; the one of tile 8 with a stale capability; a swap on the diagonal. -/
theorem witness_MatrixControl_swaps : (let a := Cap.mk' 1 0xD8 (mkOid 0 8 1) 0x1000 0
    let b := Cap.mk' 1 0xD8 (mkOid 0 1 1) 0x800 0
    let go (x y : Cap) : State := { sw with cmds := [{ cmd true (.swap x 3 none) with g := 8, key := 128 }, { cmd true (.swap y 3 none) with id := 2, g := 1, key := 16 }] }
    (((go a b).mxHead 1).any fun x => ((go a b).mxHead 8).any fun y => x.key != y.key && x.id != y.id && (go a b).mxReady x && (go a b).mxReady y &&
      ((go a b).mxPortChk x).isOk && ((go a b).mxPortChk y).isOk) = true ∧ b.l ≠ a.l ∧
    (let s := go (Cap.mk' 2 0xD8 (mkOid 0 8 1) 0x800 0) b
     ((s.mxHead 8).any fun y => s.mxReady y && !(s.mxPortChk y).isOk) = true)) ∧
    (let s := smx (.swap (se.c 5) 3 none)
     mirror 0 = 0 ∧ ((s.mxHead 0).any fun x => s.mxReady x && (s.mxPortChk x).isOk && !(s.slot x.key).wins.any Win.feWait) = true) := by decide +kernel
theorem witness_Keys_separator : ({ ss with worlds := [(2, { td := .locked })] } : State).lockedWorlds ≠ [] ∧ ss.lockedWorlds = [] ∧ ss.cur = sepKey ∧
    ss.me.mode ≠ .u ∧ ss.entropyBad = false ∧ ss.freeKey (ss.keys.length + 1) 1 = some 1 := by decide +kernel
theorem witness_MailboxMessages_known : (let r : MRec := { id := 4, pos := 0, size := 128, cap := Cap.mk' 1 0xD8 8 64 0, complete := false, pri := 1 }
    let s := { smb with msgs := [{ msg with cap := Cap.mk' 1 0xD8 8 64 0, how := .rights, st := .reserved 0, payDone := true }] }.updTile 0 fun t =>
      { t with mboxes := [(0, [r])] }
    (∃ r ∈ s.recs 0 0, r.id = 4) ∧ s.countHeld 4 = false ∧ s.mbox 0 0 = some (0x50000, 32768) ∧
      s.badw = [] ∧ s.noWrite (flat (ownSp 0) 0x50000) 64 = false ∧ s.noWrite (flat (ownSp 0) (0x50000 + 64)) 32 = false) := by decide +kernel
theorem witness_Rings_words : srg.noWrite (0x60000 + 16) 6 = false ∧ srg.noWrite (0x60040 + 6) 2 = false ∧ srg.noWrite (0x60000 + 8) 6 = false ∧
    NoMailbox 16 ∧ NoMailbox 3848 := by simp only [NoMailbox]; decide +kernel
theorem witness_WindowCloses_keyEnd : (let s := { swin (.wait (.keyEnd 7 0 5)) with keys := [(7, { st := .ending })] }
    (s.slot 0).wins.map (·.st) = [.wait (.keyEnd 7 0 5)] ∧ s.keyBusy 7 = false ∧ (s.slot 0).closesLater 1 = false ∧ ¬LaterWrote s 0 1 0 5) ∧
    (let s := { swin (.wait (.keyEnd 7 2 5)) with keys := [(7, { st := .ended })] }
     (s.key 7).st ≠ .ending) := by
  simp only [LaterWrote]; decide +kernel
theorem witness_Expiries_step : (st.upd fun t => { t with wdPend := true, stepping := true }).me.stepping = true ∧ st.me.stepping = false ∧
    ((slim (.save 3 (so.c 2) 0)).slot 0).wins.map (·.st) = [.wait (.save 3 (so.c 2) 0)] := by decide +kernel
theorem witness_StopsAndSaves_poison : (let s := { ssv.updSlot 3 fun _ => {} with badw := [(flat 0 0x20008 / 8, 1)] }
    (s.slot 3).occ = .empty ∧ s.badIn (s.c 8).o (s.entry (s.c 8).o) (s.c 8).b (0x400 + (s.tile s.gta).vfile) = 1 ∧ SaveCap s (s.c 8) ∧
      s.check18 (s.c 8) s.gta s.me.lkey true = none) := by simp only [SaveCap]; decide +kernel
theorem witness_TestsAndBoard_busy : (let s := { (xs (st.upd fun t => { t with mode := .s }) [(6, 6)]) with cmds := [cmd true (.zero .null)] }
    s.bistReady s.gta (s.xn 6) = true ∧ s.unitBusy s.gta (bTarget (s.xn 6)) = true ∧ bistM (bTarget (s.xn 6)) = false ∧ badTest false (s.xn 6) 0 = false) := by
  decide +kernel
theorem witness_Launches_reservation : (let r := (mkOid 0 68 0, 0x40000, 0x10000)
    let s := { sl with runs := [(0, { st := .running, id := 1, resv := some r })], hold := [(3864, Cap.mk' 1 1 (mkOid 0 68 0) 0x8000 0x44000)] }
    (sget ({} : Run) s.runs 0).resv = some r ∧ (s.holdAt 0 3864).ofResv r = true ∧ s.tileDone 0 = true) := by decide +kernel
theorem witness_Attestation_forms : 0x13 % 256 = 0x13 ∧ (0x113 : Nat) % 256 = 0x13 ∧ spSigned 0x113 = true ∧ spSigned 0x13 = false ∧ 0x12 % 256 ≠ 0x13 ∧
    ({ State.reset with certs := [(1, [7])] } : State).certThere 1 = true := by decide +kernel
theorem witness_Links_once : (let wr := 2 + 2 * 4 + 5 * 2 ^ 16
    let s := { State.reset with dups := [(0, [{ pkg := 2 + 0, st := 0, id := 5, code := 0, at_ := 0 }])] }
    2 ≤ wr ∧ bits wr 2 8 = 2 ∧ ((s.liveDups 0).find? fun d => d.pkg == bits wr 2 8 && d.st == bits wr 10 6 && d.id == wr / 2 ^ 16).isSome = true ∧
      ((State.reset.liveDups 0).find? fun d => d.pkg == bits wr 2 8 && d.st == bits wr 10 6 && d.id == wr / 2 ^ 16) = none) ∧
    (let s := { sx with wtab := [(winOid 0 0, { valid := true, exported := true, oid := 5, len := 0x8000 })] }
     s.checkExported 5 true = none ∧ s.refusedWrite 5 (s.entry 5) 0 8 = none ∧ s.versionEnd 5 (s.entry 5) 0 8 = false ∧ s.rangeHere 5 (s.entry 5) 0 8 = true) ∧
    (let r : UaReq := { id := 3, st := 0, op := .message 1, sentAt := 0, tries := 16 }
     let c := { cmd false (.send (se.c 5) (se.c 8) 0) with running := true, went := true }
     let s := { so with uareqs := [r], cycle := 30000, cmds := [c], msgs := [{ msg with id := 1 }] }
     s.uaReq 3 = some r ∧ s.cmds.find? (fun c => c.id == 1) = some c ∧ c.hurt = false ∧ (s.slot c.key).holds = true ∧
       s.msgs.find? (fun x => x.id == 1) ≠ none) ∧ sl.foreignDie (0 / 1024) 9 = true := by decide +kernel
theorem witness_ErrorsAndResets_answers : (let x : Win := { id := 1, addr := 0, ibits := 0, left := 0, wAt := 0, st := .done {}, obj := 5 }
    let s := so.upd fun t => { t with wins := [x] }
    (s.slot 0).wins.find? (fun y => y.id == 1) = some x ∧ x.obj ≠ 0 ∧ isWindow x.obj = false) := by decide +kernel
theorem witness_StepRunsDecoded_illegal : State.trigger { st.withFetchWord 32 0 with agenda := [], cur := 0 } 0 none = none ∧
    wordAtPc (st.withFetchWord 32 0) 0 0 = 0 ∧ decode 0 = .error .quadrant :=
  ⟨by decide +kernel, by decide +kernel, rfl⟩
/-- 19 R422: the record is carved first, as entry 1 at pool 0x9000; A and B are entries 1 and 2 of die 0's port 68. -/
theorem test_R422_layout : scratchAt 0x1 = 0x9000 ∧ State.reset.freeEntry (ownSp 0x10) = some 1 ∧ State.reset.freeEntry 68 = some 1 ∧
    mkOid 0 68 1 = 0x220001 ∧ mkOid 0 68 2 = 0x220002 := by decide +kernel

/-! ### Clauses of R345, R285, R233, R104 and of the CSR map -/

theorem witness_CsrAccess_values : (∀ p ∈ csrTable, p.1 ≠ 0x123) ∧ csrTable.length = 33 ∧ st.wrow / 2 ^ (st.cur / 16 / 64 / 8 * 4) % 16 < 8 ∧
    State.wrow { st with wrow := 0xB } / 2 ^ (st.cur / 16 / 64 / 8 * 4) % 16 = 8 + 3 := by decide +kernel
theorem witness_CsrAccess_debug : csrRight (st.upd fun t => { t with mode := .d }).me.mode (Acc.ro, Acc.ro) = .rw := by decide +kernel
/-- Eight bytes of object 5 hold a capability of a save record; a record there is a mailbox's header. -/
theorem witness_OwnPoolBytes_marked : (let s := { so with marks := [(flat 0 0x10008, 16)] }
    s.me.cbuf = [] ∧ s.marked 0 (flat (oidSp 5) ((s.entry 5).base + 8 + 0)) = true ∧ s.marked 0 (flat (oidSp 5) ((s.entry 5).base + 16)) = false) := by
  decide +kernel
/-- A pair whose first word is poisoned. -/
theorem witness_LandingCounts_poisoned : (let s := { slp with badw := [(0x10000 / 8, 1)] }
    s.stoppedAt 0x10000 = none ∧ s.noWrite 0x10000 16 = false ∧ s.badWords 0x10000 16 = true ∧ s.objectAt (0x10000 / 2 ^ 48) (0x10000 % 2 ^ 48) = some 5) ∧
    slp.noWrite 0x10000 16 = false ∧ slp.badWords 0x10000 16 = false := by decide +kernel
theorem witness_AtomicsAndQueues_versions : (let o := mkOid 0 68 7
    qu.versionEnd o (qu.entry o) 0 8 = false ∧ (List.range 2).all (fun i => !qu.versionEnd o (qu.entry o) (32 + 8 * i) 8) = true) := by decide +kernel
/-- An mx.zero that ends in an error, its destination in the tile's pool; one whose destination holds a live descriptor. -/
theorem witness_MatrixControl_errors : (let c := { cmd true (.zero (se.c 8)) with running := true }
    let s := { se with cmds := [c], cycle := 8 }
    s.onUnit 0 1 = some c ∧ s.mxBad c = false ∧ (s.slot c.key).wins.any Win.feWait = false ∧ ((s.mxResult c).1.any fun p => p.1 == se.c 8) = true ∧
      isSram (se.c 8).o = true ∧ (s.entry (se.c 8).o).valid = true ∧ (s.entry (se.c 8).o).gen = (se.c 8).g) ∧
    (let c := { cmd true (.zero (Cap.mk' 1 0xD8 8 64 0)) with running := true }
     let s := { se with cmds := [c], cycle := 8, marks := [(flat 0 0x20000, 129)] }
     s.onUnit 0 1 = some c ∧ s.mxBad c = false ∧
       ((s.mxResult c).1.any fun p => (s.refusedWrite p.1.o (s.entry p.1.o) p.1.b p.2.length).isSome) = true) := by decide +kernel
/-- Where a live descriptor covers a mailbox's header. -/
theorem witness_CapMoves_header : ({ smm with marks := [(flat 0 0x10000, 129)] } : State).noWrite (flat (ownSp smm.gta) 0x10000) 64 = true ∧
    smm.noWrite (flat (ownSp smm.gta) 0x10000) 64 = false := by decide +kernel

/-! ### Launch reasons, slot refusals, notices, attestation, places -/

theorem Sys2Proof.Test.sget_mapped {α : Type} (d r : α) (i : Nat) : ∀ l : List Nat, i ∈ l → sget d (l.map fun j => (j, r)) i = r
  | [], h => by simp at h
  | j :: l, h => by
    simp only [List.map_cons, sget]
    split
    · rfl
    · exact sget_mapped d r i l (by simpa [Ne.symm (by assumption : j ≠ i)] using h)
/-- `sl` with every run-table entry running. -/
def Sys2Proof.Test.sfull : State := { sl with runs := (List.range 4096).map fun i => (i, { st := .running, id := 1 }) }
/-- One launch for each reason of R279, with none of the earlier ones. -/
theorem witness_Launches_partition : RefusedPartition (launchAt (sl.hput 0 0x1110 4 0) 0) ∧ ¬RefusedPartition (launchAt sl 0) := by
  simp only [RefusedPartition]; decide +kernel
theorem witness_Launches_set : (let s := sl.hput 0 0x1114 2 1
    ¬RefusedPartition (launchAt s 0)) ∧ RefusedSet (sl.hput 0 0x1114 2 1) 0 (launchAt (sl.hput 0 0x1114 2 1) 0) := by
  simp only [RefusedPartition, RefusedSet]
  exact ⟨by decide +kernel, .inl (by decide +kernel)⟩
theorem witness_Launches_tensor : (let s := sl.hput 0 0x1168 4 3
    ¬RefusedPartition (launchAt s 0) ∧ ¬RefusedSet s 0 (launchAt s 0) ∧ RefusedTensor (partsAt s 0)) := by
  simp only [RefusedPartition, RefusedSet, Unnamed, RefusedTensor]
  exact ⟨by decide +kernel, by decide +kernel, by decide +kernel⟩
theorem witness_Launches_indices : (let s := sl.hput 0 0x110A 2 3840
    ¬RefusedPartition (launchAt s 0) ∧ ¬RefusedSet s 0 (launchAt s 0) ∧ ¬RefusedTensor (partsAt s 0) ∧ RefusedIndices (launchAt s 0)) := by
  simp only [RefusedPartition, RefusedSet, Unnamed, RefusedTensor, RefusedIndices]
  exact ⟨by decide +kernel, by decide +kernel, by decide +kernel, by decide +kernel⟩
theorem witness_Launches_counts :
    (let s := { sl with entries := [(mkOid 0 68 7, { base := 0x40000, len := 8192, valid := true, resident := true, fracs := 4095 })] }
     (s.world 0).td = .run ∧ s.freeRunEntry ≠ none ∧ ¬RefusedPartition (launchAt s 0) ∧ ¬RefusedSet s 0 (launchAt s 0) ∧
       ¬RefusedTensor (partsAt s 0) ∧ ¬RefusedIndices (launchAt s 0) ∧ RefusedCounts s (launchAt s 0)) := by
  simp only [RefusedPartition, RefusedSet, Unnamed, RefusedTensor, RefusedIndices, RefusedCounts]
  exact ⟨by decide +kernel, by decide +kernel, by decide +kernel, by decide +kernel, by decide +kernel, by decide +kernel, by decide +kernel⟩
theorem witness_Launches_full : sfull.freeRunEntry = none ∧ ¬RefusedPartition (launchAt sfull 0) ∧ ¬RefusedSet sfull 0 (launchAt sfull 0) ∧
    ¬RefusedTensor (partsAt sfull 0) ∧ ¬RefusedIndices (launchAt sfull 0) := by
  refine ⟨?_, ?_⟩
  · simp only [State.freeRunEntry, List.find?_eq_none]
    intro i hi
    have hr : sfull.runs = (List.range 4096).map fun j => (j, ({ st := .running, id := 1 } : Run)) := by with_reducible_and_instances (unfold sfull; rfl)
    rw [hr, sget_mapped (({} : Run)) _ i (List.range 4096) hi]; simp
  · simp only [RefusedPartition, RefusedSet, Unnamed, RefusedTensor, RefusedIndices]
    exact ⟨by decide +kernel, by decide +kernel, by decide +kernel, by decide +kernel⟩
/-- A fallback of tile 0 for run 2, with a grant of the object of HBM into holding entry 100; one of an arena; one without a grant. -/
def Sys2Proof.Test.sfb (g : Option Nat) (o : Nat) : State :=
  { scd.updTile 0 fun t => { t with fbs := [⟨2, mkHandle 1 0 0x20000, o, g⟩] } with runs := [(2, { st := .complete, id := 3, notify := [0] })], claims := [(100, 1)] }
theorem witness_Launches_notice : (let s := sfb (some 100) (mkOid 0 68 7)
    0 ∈ (sget {} s.runs 2).notify ∧ (s.tile 0).fbs.filter (fun f => f.pslot == 2) = [⟨2, mkHandle 1 0 0x20000, mkOid 0 68 7, some 100⟩] ∧
      s.matches_ (mkHandle 1 0 0x20000) = true ∧ s.descBad (mkHandle 1 0 0x20000) = false ∧
      1 ≤ s.dget (hHome (mkHandle 1 0 0x20000)) (hAddr (mkHandle 1 0 0x20000)) 0 4 ∧ s.claimed 0 100 = true ∧
      (s.entry (mkOid 0 68 7)).fracs < 4095 ∧ (s.entry (mkOid 0 68 7)).amo = false ∧
      s.check16 (Cap.mk' 1 0x8C (mkOid 0 68 7) 0x8000 0) 0 = none) ∧ oidIdx (mkOid 0 68 0) = 0 ∧ (sfb none 0).claimed 0 100 = true := by decide +kernel
theorem witness_SlotRefusals : ssv.me.mode ≠ .u ∧ 16 ≤ (xs ssv [(6, 16)]).xn 6 ∧
    (let s := xs ssv [(6, 0)]
     s.gta * 16 + s.xn 6 = s.cur) ∧ SlotOperand ssv 6 ∧ RoomForWindow ssv ∧
    (let s := cs ssv [(9, 0xC0, 8, 64, 0)]
     (s.slot 3).holds = true ∧ s.c 4 = .null ∧ s.c 9 ≠ .null ∧ ¬SaveCap s (s.c 9) ∧ (s.slot 3).occ ≠ .empty) := by
  simp only [SlotOperand, RoomForWindow, SaveCap]; decide +kernel
/-- No record at all; a good record of a persistent strand, which is no record for a slot beyond the tile's persistent ones. -/
theorem witness_SlotRefusals_load : (let s := ssv.updSlot 3 fun _ => {}
    (s.slot 3).holds = false ∧ (s.slot 3).occ = .empty ∧ SlotOperand s 6 ∧ s.c 4 = .null ∧ SaveCap s (s.c 8) ∧
      s.check18 (s.c 8) s.gta s.me.lkey true = none ∧ s.badIn (s.c 8).o (s.entry (s.c 8).o) (s.c 8).b (0x400 + (s.tile s.gta).vfile) = 0) := by
  simp only [SlotOperand, SaveCap]; decide +kernel
theorem witness_SlotRefusals_record : InvalidRecord ssv 0 (ssv.saveAt (ssv.c 8)) 3 ∧
    (let s := { ssv with mem := mwrite ssv.mem (ssv.saveAt (ssv.c 8)) (toBytes 8 (2 ^ 24 + 2 ^ 22)) }
     (s.tile 0).v32 = true ∧ (s.tile 0).pers = 1 ∧ InvalidRecord s 0 (s.saveAt (s.c 8)) 3 ∧ ¬InvalidRecord s 0 (s.saveAt (s.c 8)) 0) := by
  simp only [InvalidRecord]; decide +kernel
/-- A stopped strand with one recorded wait on a landing pair, not over, and over. -/
theorem witness_StopsAndSaves_recorded : (let r : RecWait := { w := .land (se.c 5) 16 7 5, addr := 4, ibits := 0, issued := 1, lim := some 9, left := 2 }
    let s := ssv.updSlot 3 fun t => { t with recs := [r] }
    (s.slot 3).stopped = true ∧ (s.slot 3).halted = false ∧ (s.slot 3).recs = [r] ∧ (s.slot 3).hold = none ∧ s.sameObj (se.c 5) = true ∧
      s.landOver (flat (oidSp (se.c 5).o) ((s.entry (se.c 5).o).base + 16)) 7 = true ∧
      s.landOver (flat (oidSp (se.c 5).o) ((s.entry (se.c 5).o).base + 16)) 0 = false) := by decide +kernel
theorem witness_DebugModule_keys : (let o := mkOid 0 68 7
    let s := (se.updTile 0 fun t => { t with tstop := true, trBuf := [5], trobj := o * 2 ^ 36 })
    let s := { s with entries := sput {} s.entries o { s.entry o with cls := 1, keyid := 7 }, keys := [(7, { st := .ending })] }
    s.keyEnded (s.entry ((s.tile 0).trobj / 2 ^ 36)).keyid = true ∧ (s.entry ((s.tile 0).trobj / 2 ^ 36)).bad = false ∧
      s.foreign 0 ((s.tile 0).trobj / 2 ^ 36) = false) ∧
    csrAccess 0xC02 = some (.ro, .ro) ∧ csrAccess 0x8C0 ≠ some (.ro, .ro) ∧ st.me.mode ≠ .d := by decide +kernel
theorem witness_Attestation_phases : (State.reset.conn 1).phase < 2 ∧ (State.conn { State.reset with conns := [(0, { phase := 2 })] } 0).phase < 3 ∧
    0x12 % 256 ≠ 0x13 := by decide +kernel
theorem witness_ErrorsAndResets_places : (69 = 69 ∧ 4 ≠ 3 ∧ 4 ≠ 60) ∧ 9 % 8 ≠ 0 ∧ 9 % 8 ≠ 7 ∧ (3 < 64 ∧ 68 ≤ 69 ∧ 69 < 71) ∧ 8 % 8 = 0 ∧
    (let s := { st with throttle := [(0, true)] }
     sget false s.throttle (0 / 64) = true ∧ s.tryTile 0 = none) := by decide +kernel
/-- The instruction of an eligible slot that finds its strand's window table full comes to wait in a step of its own. -/
theorem witness_StepRunsDecoded_waits : (let w (i : Nat) : Win := { id := i, addr := 0, ibits := 0, left := 3, wAt := 0, st := .wait (.land (so.c 2) 16 7 5) }
    let s := (so.withFetchWord 32 0x0021378B).upd fun t => { t with wins := [w 1, w 2, w 3, w 4] }
    s.expiry = none ∧ s.agenda = .issue 0 :: [] ∧ (State.tryTile { s with agenda := [] } 0).isSome = true) := by decide +kernel

/-! ### The machine facts of the worked programs (18 R409, R412, R413, R415) -/

/-- A tile of `sl`'s launch with another partition word, and an image of `dlen` units of 64 bytes in object 9 of HBM where `dlen` is not 0. -/
def Sys2Proof.Test.stile (pword dlen : Nat) : State :=
  let s := ((sl.hput 0 0x1110 4 pword).hput 0 0x1010 4 (if dlen = 0 then 0 else mkOid 0 68 9)).hput 0 0x111E 2 dlen
  let s := { s with entries := sput {} s.entries (mkOid 0 68 9) { base := 0x80000, len := 64, valid := true, resident := true },
                    mem := mwrite s.mem (flat 68 0x80000) [0x30, 0x38, 0x3C, 0x40, 0x44, 0x48, 0x7A, 0xCC] }
  let s := { s with cur := 0 }
  s.setTile (launchAt s 0) (s.hget 0) (fun a n => mbytes s.mem (flat (spHost 0) a) n) 1 0 0 0 0 0 0
/-- Carves the first `n` bytes of an arena at pool address `b`, as the listings' carve does. -/
def Sys2Proof.Test.carve (s : State) (b n : Nat) : Out := exec (.objNew 14 0 15) (cs s [(14, 1, 0, n, b)])
set_option maxRecDepth 100000 in
/-- R409: the accumulator object of 64 KiB is entry 1 at 0x9000, and the first carved object, the landing object of 64 bytes, entry 2 at
0x19000. -/
theorem test_R409_entries : (let s := stile 0x2001 0
    accAt 0x2001 = 0x9000 ∧ scratchAt 0x2001 = 0x19000 ∧ (s.entry 1).valid = true ∧ (s.entry 1).base = 0x9000 ∧ (s.entry 1).len = 0x10000 ∧
      s.freeEntry (ownSp 0) = some 2 ∧
      after (carve s 0x19000 64) (fun t => (t.entry 2).valid && (t.entry 2).base == 0x19000 && (t.entry 2).len == 64 && (t.c 15).o == 2 &&
        t.freeEntry (ownSp 0) == some 3) = true) := by decide +kernel
set_option maxRecDepth 100000 in
/-- R413: without an accumulator and with 16 vector registers the data object of 64 bytes is entry 1 at 0x9000; the
arena's capability lies at 0x9040, and the trap record becomes entry 2 there. -/
theorem test_R413_entries : (let s := stile 1 1
    scratchAt 1 = 0x9000 ∧ (s.entry 1).base = 0x9000 ∧ (s.entry 1).len = 64 ∧
      (s.holdAt 0 (launchAt (sl.hput 0 0x1110 4 1) 0).indices.1).b = 0x9040 ∧
      after (carve s 0x9040 64) (fun t => (t.entry 2).base == 0x9040 && (t.c 15).o == 2) = true) := by decide +kernel
/-- R412: the last of 66 packets of 256 bytes completes the second round of a word of target 16,896; 16,512 bytes counted in one operation
complete the first round of the other. -/
theorem test_R412_landing :
    (let s := { so with mem := mwrite so.mem 0x10000 (toBytes 8 0x0100000000004200 ++ toBytes 8 (2 ^ 56 + 65 * 256)) }.landCount 0x10000 (some 256) 0
     s.land0 0x10000 = 0x0200000000004200 ∧ s.land1 0x10000 = 0x0100000000000000) ∧
    (let s := { so with mem := mwrite so.mem 0x10010 (toBytes 8 0x0000000000004080 ++ toBytes 8 (2 ^ 56)) }.landCount 0x10010 (some 16512) 0
     s.land0 0x10010 = 0x0100000000004080 ∧ s.land1 0x10010 = 0x0100000000000000) := by decide +kernel
/-- R412, R415: a message that fits one record of 64 bytes: resv 64, then vis 64, nrecv 1 when it is taken, and head 64 once it is released. -/
theorem test_R412_header : (let m := { msg with pay := [] }
    let r : MRec := { id := 4, pos := 0, size := 64, complete := false, pri := 1 }
    let hd (l : List Nat) : State := { smb with mem := mwrite smb.mem (flat 0 0x50000) (l.flatMap (toBytes 8)) }
    let recs (s : State) (r : MRec) : State := s.updTile 0 fun t => { t with mboxes := [(0, [r])] }
    after (exec (.mailboxReservation 4) { smb with msgs := [m] }) (fun t => t.mbGet 0 0x50000 8 8 == 64 && t.mbGet 0 0x50000 16 8 == 0) = true ∧
    after (exec (.messageComplete 4) { recs (hd [0, 64]) r with msgs := [{ m with st := .reserved 0, payDone := true }] })
      (fun t => t.mbGet 0 0x50000 16 8 == 64 && t.mbGet 0 0x50000 24 8 == 0) = true ∧
    after (exec (.mbRecv 0 6 0 3) (recs (hd [0, 64, 64]) { r with complete := true })) (fun t => t.mbGet 0 0x50000 24 8 == 1) = true ∧
    State.mbGet (State.mbRelease ((recs (hd [0, 64, 64, 1]) { r with complete := true }).upd fun t => { t with taken := [(0, 5)] }) 0 0) 0 0x50000 0 8 = 64) := by
  decide +kernel
/-- R412: str.exit drops a read fraction, whose object then has none, and an object whose owner capability it drops stays valid. -/
theorem test_R412_exit : (let s := cs so [(2, 0x84, 5, 0x8000, 0)]
    after (exec .strExit { s with entries := sput {} s.entries 5 { s.entry 5 with fracs := 1 } }) (fun t =>
      (t.entry 5).fracs == 0 && (t.entry 5).valid && (t.slot 0).occ == .empty && (t.slot 0).fmode == 0) = true) := by decide +kernel
/-- R412, R415: a freed object's entry is not valid and stands at the next generation, and a capability over the old one is stale. -/
theorem test_R415_freed : (let t := so.freeObj 5
    (t.entry 5).valid = false ∧ (t.entry 5).gen = 2 ∧ t.check15 (so.c 2) 0 = some (cCAP_STALE, 5)) := by decide +kernel
/-- R415: the late st.b through c2, which is null: CAP_NULL (cause 2) with the register in tval. -/
theorem test_R415_null : after (exec (.stB 0 2 0 5) (cs so [(2, 0, 0, 0, 0)] |>.upd fun t => t.setC 2 .null)) (fun t =>
    t.me.tcause == 2 && t.me.tval == 2) = true := by decide +kernel
/-- R415: 480 quantised to E4M3 saturates to 0x7E with SAT and NX: fmode 0x210. -/
theorem test_R415_fmode : after (exec (.vquant 8 4 4 0) (xs (st.upd (·.setV 4 0x43F00000)) [(8, 0x3F800000)])) (fun t =>
    el (t.me.getV 0) 1 0 == 0x7E && t.me.fmode == 0x210) = true := by decide +kernel
end

/-! PROOFS: words and steps (02 R25 to R41; 03 R51 to R53). What an issue by a tile's core fetches, executes and leaves alone. -/

namespace Sys2Proof.Machine
open Sys2Proof.Claim

/-! ### The bytes at the pc -/

theorem flat_add (sp a n : Nat) : flat sp (a + n) = flat sp a + n := (Nat.add_assoc ..).symm

/-- The four bytes at an address are two parcels, the low one first (02 R25). -/
theorem mnat_four (m : List Host.Cell) (a : Nat) : mnat m a 4 = mnat m a 2 + 65536 * mnat m (a + 2) 2 := by
  simp only [mnat, mbytes, ofBytes, Nat.add_assoc, Nat.reduceAdd]
  omega

theorem Tile.ovFetch_of_loaded (t : Tile) (a : Nat)
    (h : (sget {} t.ov (a / 8192)).busy = false ∧ (sget {} t.ov (a / 8192)).valid = true) : t.ovFetch a = none := by
  simp [Tile.ovFetch, h.1, h.2]

/-- A fetch at an even pc, in loaded overlay slots, gives the instruction's bits. -/
theorem State.fetch_of_loaded (s : State) (g pc : Nat) (heven : pc % 2 = 0) (hlt : pc + 4 ≤ 2 ^ 16)
    (hov : ∀ j, j = pc / 8192 ∨ j = (pc + 2) / 8192 →
      (sget {} (s.tile g).ov j).busy = false ∧ (sget {} (s.tile g).ov j).valid = true) :
    ∃ len, s.fetch g pc = .got (wordAtPc s g pc) len := by
  have hlow := (s.tile g).ovFetch_of_loaded pc (hov _ (.inl rfl))
  have hhigh := (s.tile g).ovFetch_of_loaded (pc + 2) (hov _ (.inr rfl))
  have hin : (decide (0x10000 ≤ pc) || decide (pc % 2 = 1)) = false := by simp; omega
  have hin2 : ¬ 0x10000 ≤ pc + 2 := by omega
  by_cases hp : mnat s.mem (flat (spOverlay g) pc) 2 % 4 = 3
  · exact ⟨4, by simp [fetch, wordAtPc, ilen, hin, hin2, hlow, hhigh, hp, mnat_four, flat_add]⟩
  · exact ⟨2, by simp [fetch, wordAtPc, ilen, hin, hlow, hp]⟩

/-! ### The slot that the core picks -/

theorem State.oldest_mem {s : State} {ks : List Nat} {k : Nat} (h : s.oldest ks = some k) : k ∈ ks := by
  induction ks with
  | nil => cases h
  | cons j js ih =>
    simp only [oldest] at h
    split at h
    · cases h; exact List.mem_cons_self
    · next j' hj =>
      split at h <;> cases h
      · exact List.mem_cons_of_mem _ (ih hj)
      · exact List.mem_cons_self

/-- The core picks an eligible slot (03 R53). -/
theorem State.eligible_of_pick {s : State} {g k : Nat} (h : s.pick g = some k) : s.eligible k = true := by
  have hk : k ∈ ((List.range 16).map (g * 16 + ·)).filter s.eligible := by
    simp only [pick] at h
    split at h
    · cases h
    · rcases Option.or_eq_some_iff.mp h with h | ⟨-, h⟩
      · exact (List.mem_filter.mp (oldest_mem h)).1
      · rcases Option.or_eq_some_iff.mp h with h | ⟨-, h⟩
        · exact (List.mem_filter.mp (oldest_mem h)).1
        · exact oldest_mem h
  exact (List.mem_filter.mp hk).2

theorem State.eligible_agenda (s : State) (ts : List Turn) (k : Nat) : State.eligible { s with agenda := ts } k = s.eligible k := rfl

theorem State.oldest_agenda (s : State) (ts : List Turn) (ks : List Nat) : State.oldest { s with agenda := ts } ks = s.oldest ks := by
  induction ks with
  | nil => rfl
  | cons k ks ih => simp only [oldest, ih]; rfl

/-- Which slot is picked does not depend on the turns to come. -/
theorem State.pick_agenda (s : State) (ts : List Turn) (g : Nat) : State.pick { s with agenda := ts } g = s.pick g := by
  have he : State.eligible { s with agenda := ts } = s.eligible := funext (s.eligible_agenda ts)
  simp only [pick, he, oldest_agenda]
  rfl

/-! ### Slots that come to wait -/

/-- What a slot that comes to wait shows: it was eligible, and its attempt to issue left its instruction held (03 R51). -/
theorem State.tryHold_eq_some {s u : State} {k : Nat} :
    s.tryHold k = some u ↔ s.eligible k = true ∧ s.issueSlot k = .next u ∧ u.heldNow k = true := by
  unfold tryHold
  cases s.eligible k with
  | false => simp
  | true =>
    cases s.issueSlot k with
    | next t =>
      by_cases ht : t.heldNow k = true
      · simpa [ht] using fun h : t = u => h ▸ ht
      · simpa [ht] using fun h : t = u => by simpa [h] using ht
    | fault f => simp
    | refused r => simp

theorem State.exists_held_of_tryTile {s u : State} {g : Nat} (h : s.tryTile g = some u) :
    ∃ i, i < 16 ∧ s.eligible (g * 16 + i) = true ∧ u.heldNow (g * 16 + i) = true ∧ s.issueSlot (g * 16 + i) = .next u := by
  obtain ⟨i, hi, hu⟩ := List.exists_of_findSome?_eq_some h
  obtain ⟨he, hn, hh⟩ := tryHold_eq_some.mp hu
  exact ⟨i, List.mem_range.mp hi, he, hh, hn⟩

/-- Where no slot of the tile comes to wait, an eligible slot that issues is not held. -/
theorem State.not_heldNow_of_tryTile {s t : State} {g k : Nat} (h : s.tryTile g = none) (hk : k / 16 = g)
    (he : s.eligible k = true) (ht : s.issueSlot k = .next t) : t.heldNow k = false := by
  have hnone := List.findSome?_eq_none_iff.mp h (k % 16) (List.mem_range.mpr (Nat.mod_lt _ (by decide)))
  rw [show g * 16 + k % 16 = k by omega] at hnone
  rw [← Bool.not_eq_true]
  intro hheld
  have hsome : s.tryHold k = some t := tryHold_eq_some.mpr ⟨he, ht, hheld⟩
  cases hnone.symm.trans hsome

theorem State.heldNow_holdOn (s : State) {why : HoldWhy} (h : why.parks = false) : (s.holdOn why).heldNow s.cur = true := by
  simp [heldNow, holdOn, h]

/-! ### The step of a tile whose turn it is -/

theorem step_eq_issue {s : State} {g : Nat} {ts : List Turn} (hx : s.expiry = none) (ha : s.agenda = .issue g :: ts) (hg : g < 4096) :
    step s = State.issue { s with agenda := ts } g := by
  simp only [step, hx, ha, State.turn]
  exact if_neg (by omega)

theorem State.issue_of_tryTile {s u : State} {g : Nat} (h : s.tryTile g = some u) : s.issue g = .next u := by
  simp only [issue, h]

theorem State.issue_of_pick {s : State} {g k : Nat} (h : s.tryTile g = none) (hi : (s.tile g).issuedAt ≠ s.cycle + 1)
    (hk : s.pick g = some k) : s.issue g = s.issueSlot k := by
  simp only [issue, h, hk, if_neg hi]

theorem State.issueSlot_of_fetch {s : State} {k w len : Nat} (hp : (s.slot k).pbPos = none) (hf : (s.slot k).startFault = none)
    (hw : s.fetch (k / 16) (s.slot k).pc.toNat = .got w len) : s.issueSlot k = State.runWord { s with cur := k } w len := by
  have hme : State.me { s with cur := k } = s.slot k := rfl
  have hfetch : State.fetch { s with cur := k } (k / 16) (s.slot k).pc.toNat = .got w len := hw
  simp only [issueSlot, hme, hp, hf, State.gta, hfetch]

/-- A vector instruction that issues is not one that a self-test holds (17 R402). -/
theorem State.vecTest_free {s : State} {w len : Nat} (hskip : s.me.skip = 0 ∨ s.me.mode = .d)
    (h : ∀ t, s.runWord w len = .next t → t.heldNow s.cur = false) : (vectorBits w && s.vecTested s.cur) = false := by
  rw [← Bool.not_eq_true]
  intro hv
  have hrun : s.runWord w len = .next (s.holdOn .vecTest) := by
    rcases hskip with hs | hs <;> simp only [runWord, hs, hv] <;> simp
  simpa [s.heldNow_holdOn (why := .vecTest) rfl] using h _ hrun

theorem State.fire_of_no_trigger {s : State} {i : Option Instr} (h : s.trigger s.cur i = none) (w : Nat) (go : State → Out) :
    s.fire i w go = go s := by
  simp only [fire, h]

/-- Where no trigger fires, the instruction executes, held or not. -/
theorem State.runTrig_of_no_trigger {s : State} {i : Instr} (h : s.trigger s.cur (some i) = none) (w : Nat) :
    s.runTrig i w = issueEnd s.cur w (exec i s) := by
  unfold runTrig
  cases hx : exec i s with
  | next t =>
    cases hh : t.heldNow s.cur with
    | true => simp [issueEnd, hh]
    | false => simp [fire_of_no_trigger h, hx, hh]
  | fault f => rfl
  | refused r => rfl

/-- A fetched word that no rpt passes over and no self-test holds executes as what it decodes to, where no trigger fires. -/
theorem State.runWord_of_decode_ok {s : State} {w len : Nat} {i : Instr} (hskip : s.me.skip = 0 ∨ s.me.mode = .d)
    (hv : (vectorBits w && s.vecTested s.cur) = false) (hi : decode w = .ok i) (ht : s.trigger s.cur (some i) = none) :
    s.runWord w len = issueEnd s.cur w (exec i s) := by
  rw [← runTrig_of_no_trigger ht]
  rcases hskip with hs | hs <;> simp [runWord, hs, hv, hi]

/-- A word that decodes to nothing raises ILLEGAL with its bits (02 R26). -/
theorem State.runWord_of_decode_error {s : State} {w len : Nat} {r : Reject} (hskip : s.me.skip = 0 ∨ s.me.mode = .d)
    (hv : (vectorBits w && s.vecTested s.cur) = false) (hr : decode w = .error r) (ht : s.trigger s.cur none = none) :
    s.runWord w len = issueEnd s.cur w (s.trap cILLEGAL w) := by
  have hfire := fire_of_no_trigger ht w fun s => issueEnd s.cur w (s.trap cILLEGAL w)
  rcases hskip with hs | hs <;> simpa [runWord, hs, hv, hr] using hfire

/-- The step of a tile that issues is the run of the bits at the pc, which no self-test holds. -/
theorem step_eq_runWord {s : State} {g k pc : Nat} {ts : List Turn} (h : Issues s g k pc ts) :
    ∃ len, step s = State.runWord { s with agenda := ts, cur := k } (wordAtPc s g pc) len ∧
      (vectorBits (wordAtPc s g pc) && State.vecTested { s with agenda := ts, cur := k } k) = false := by
  obtain ⟨hx, ha, hg, htry, hissued, hpick, hkg, hpb, hsf, hskip, hpc, heven, hlt, hov⟩ := h
  obtain ⟨len, hfetch⟩ := s.fetch_of_loaded g pc heven hlt hov
  subst hkg hpc
  have hslot : State.issueSlot { s with agenda := ts } k =
      State.runWord { s with agenda := ts, cur := k } (wordAtPc s (k / 16) (s.slot k).pc.toNat) len :=
    State.issueSlot_of_fetch hpb hsf hfetch
  have hpick' : State.pick { s with agenda := ts } (k / 16) = some k := (s.pick_agenda ts _).trans hpick
  have hfree := State.vecTest_free (s := { s with agenda := ts, cur := k }) hskip fun t ht =>
    State.not_heldNow_of_tryTile htry rfl (State.eligible_of_pick hpick') (hslot.trans ht)
  exact ⟨len, by rw [step_eq_issue hx ha hg, State.issue_of_pick htry hissued hpick', hslot], hfree⟩

/-! ### What follows an issue -/

@[simp] theorem State.mem_forSlots (s : State) (g : Nat) (f : Nat → Slot → Slot) (n : Nat) : (s.forSlots g f n).mem = s.mem := by
  induction n with
  | zero => rfl
  | succ n ih => exact ih

@[simp] theorem State.tile_forSlots (s : State) (g : Nat) (f : Nat → Slot → Slot) (n j : Nat) : (s.forSlots g f n).tile j = s.tile j := by
  induction n with
  | zero => rfl
  | succ n ih => exact ih

/-- A value that `f` keeps of every slot, the slots of the tile keep. -/
theorem State.slot_forSlots_keeps {α : Type} (p : Slot → α) (s : State) (g : Nat) (f : Nat → Slot → Slot) (n k : Nat)
    (hf : ∀ i t, p (f i t) = p t) : p ((s.forSlots g f n).slot k) = p (s.slot k) := by
  induction n with
  | zero => rfl
  | succ n ih =>
    rw [forSlots, updSlot_eq, slot_putSlot]
    split
    · next h => rw [hf, ← h, ih]
    · exact ih

@[simp] theorem State.mem_count (s : State) (g e n : Nat) : (s.count g e n).mem = s.mem := by
  unfold count; split <;> rfl

@[simp] theorem State.slot_count (s : State) (g e n k : Nat) : (s.count g e n).slot k = s.slot k := by
  unfold count; split <;> rfl

@[simp] theorem State.issuedAt_count (s : State) (g e n : Nat) : ((s.count g e n).tile g).issuedAt = (s.tile g).issuedAt := by
  unfold count
  split
  · rfl
  · simp [updTile_eq]

/-- A value that the changes of `afterIssue` keep of every slot, the slot that issued keeps. -/
theorem State.slot_afterIssue_keeps {α : Type} (p : Slot → α) (s : State) (k w : Nat)
    (hyield : ∀ t l, p { t with yieldFor := l } = p t) (hage : ∀ t, p { t with age := 0 } = p t)
    (hstep : ∀ t : Slot, p { t.endCounting with age := 0, haltReq := 4 } = p t) :
    p ((s.afterIssue k w).slot k) = p (s.slot k) := by
  unfold afterIssue
  split <;> simp [updTile_eq, updSlot_eq, apply_ite p, hstep, hage, hyield, slot_forSlots_keeps p]

/-- The issue uses the cycle of the slot's tile (03 R52). -/
theorem State.issuedAt_afterIssue (s : State) (k w : Nat) : ((s.afterIssue k w).tile (k / 16)).issuedAt = s.cycle + 1 := by
  unfold afterIssue
  split <;> simp [updTile_eq, updSlot_eq]

theorem State.mem_afterIssue (s : State) (k w : Nat) : (s.afterIssue k w).mem = s.mem := by
  unfold afterIssue
  split <;> simp [updTile_eq, updSlot_eq]

theorem issueEnd_of_not_held {k w : Nat} {t : State} (h : t.heldNow k = false) : issueEnd k w (.next t) = .next (t.afterIssue k w) := by
  simp [issueEnd, h]

end Sys2Proof.Machine

namespace Sys2Proof.Proofs
open Sys2Proof.Machine Sys2Proof.Claim

/-- Settles O54: each word decodes as its format's fields say, by evaluation of the decoder. -/
theorem decodeSamples : Obligations.DecodeSamples := by
  unfold Obligations.DecodeSamples
  refine ⟨rfl, rfl, rfl, rfl, rfl, rfl, rfl, rfl, rfl, rfl, rfl, rfl⟩

/-- Settles O55: a slot that comes to wait takes the step; otherwise the bits at the pc of the slot picked run, and as no slot comes to wait,
no self-test holds them. -/
theorem stepRunsDecoded : Obligations.StepRunsDecoded := by
  unfold Obligations.StepRunsDecoded
  refine ⟨fun s u g ts hx ha hg htry => ⟨?_, State.exists_held_of_tryTile htry⟩, fun s g k pc ts h => ?_⟩
  · rw [step_eq_issue hx ha hg, State.issue_of_tryTile htry]
  · obtain ⟨len, hstep, hfree⟩ := step_eq_runWord h
    obtain ⟨-, -, -, -, -, -, rfl, -, -, hskip, -⟩ := h
    refine ⟨fun i hi htrig => ?_, fun r hr htrig => ?_, fun t u hu hheld => ?_⟩
    · exact hstep.trans (State.runWord_of_decode_ok hskip hfree hi htrig)
    · exact hstep.trans (State.runWord_of_decode_error hskip hfree hr htrig)
    · rw [issueEnd_of_not_held hheld] at hu
      cases hu
      exact ⟨t.issuedAt_afterIssue k _, t.mem_afterIssue k _,
        State.slot_afterIssue_keeps (·.x) t k _ (fun _ _ => rfl) (fun _ => rfl) (fun _ => rfl),
        State.slot_afterIssue_keeps (·.pc) t k _ (fun _ _ => rfl) (fun _ => rfl) (fun _ => rfl)⟩

end Sys2Proof.Proofs

/-! PROOFS: ordering (06 R154 to R166). What an atomic that nothing holds or refuses does at its port: the word atomics, and the queues in
HBM. -/

namespace Sys2Proof.Machine
open Sys2Proof.Claim

/-! ### Doublewords of an object -/

theorem ofBytes_lt (bs : List Byte) : ofBytes bs < 256 ^ bs.length := by
  induction bs with
  | nil => simp [ofBytes]
  | cons b bs ih =>
    have hb := b.isLt
    simp only [ofBytes, List.length_cons, Nat.pow_succ]
    omega

@[simp] theorem State.length_objBytes (s : State) (o : Nat) (e : Entry) (off n : Nat) : (s.objBytes o e off n).length = n := by
  induction n generalizing off with
  | zero => rfl
  | succ n ih => simp [objBytes, ih]

theorem State.objWord_lt (s : State) (o : Nat) (e : Entry) (off : Nat) : s.objWord o e off < 2 ^ 64 := by
  simpa [objWord] using ofBytes_lt (s.objBytes o e off 8)

/-! ### The issue of an atomic (04 R86, 06 R163) -/

theorem offVal_xOff {c : Cap} {x size : Nat} (h : InRange c (xOff c x) size) : offVal (xOff c x) = c.b + x := by
  obtain ⟨-, htop⟩ := h
  have hb : c.b < 2 ^ 40 := c.base.isLt
  have hl : c.l < 2 ^ 40 := c.len.isLt
  simp only [xOff, Cap.top] at htop
  simp only [offVal, wrap, xOff]
  omega

theorem bound_of_inRange {c : Cap} {a : Int} {n : Nat} (h : InRange c a n) : bound c a n = .ok () := by
  obtain ⟨hlow, htop⟩ := h
  rw [bound, if_neg (by omega), if_neg (by omega)]

/-- The capability, range, alignment and port that an atomic asks for at its issue: the offset in the object. -/
theorem amoChk_eq_ok {c : Cap} {x size : Nat} (n : Nat) (hnull : c ≠ .null) (hA : c.has rA = true) (hport : oidPort c.o = 68)
    (hin : InRange c (xOff c x) size) (hal : (c.b + x) % size = 0) : amoChk n x size size c = .ok (c.b + x) := by
  have huse : capUse c n [rA] = .ok () := by simp [capUse, notNull, hnull, rights, hA, Bind.bind, Except.bind]
  have halign : aligned (offVal (xOff c x)) size = .ok () := by rw [offVal_xOff hin, aligned, if_pos hal]
  have hright : rights (oidPort c.o == 68) c n = .ok () := by simp [rights, hport]
  have hoff : (xOff c x).toNat = c.b + x := by simp only [xOff]; omega
  simp [amoChk, huse, bound_of_inRange hin, halign, hright, hoff, Bind.bind, Except.bind, Pure.pure, Except.pure]

theorem State.winFull_of_room {s : State} (h : RoomForWindow s) : s.winFull = none := if_pos h

theorem State.endRestart_of_not_restartable {s : State} (h : s.me.restartable = false) : s.endRestart = s := by
  simp [endRestart, h]

/-- An atomic that may issue is performed in its own step: its window opens with the answer of the port (06 R163). -/
theorem amoOp_of_mayAmo {s : State} {op n d : Nat} (h : MayAmo s (s.c n) (s.xn d) (amoSize op)) (i : Instr) (la r : Nat) :
    amoOp i op la n r d s =
      let q := s.amoReq s.cur (s.c n) s.me.lkey op ((s.c n).b + s.xn d) d r (s.x r) (s.x (r + 1)) s.me.rm
      .next (q.1.openW la i q.2) := by
  obtain ⟨hroom, hamo, hsync, hheld, hrestart, hnull, hA, hport, hin, hal, -⟩ := h
  simp [amoOp, State.winFull_of_room hroom, hamo, hheld, amoChk_eq_ok n hnull hA hport hin hal,
    State.endRestart_of_not_restartable hrestart, hsync]

/-! ### The word atomics at the home (06 R163, R164) -/

/-- A word atomic that its port admits replaces the word and answers the old one; `v` and `fl` are f(old, operand) and its flags. -/
theorem State.amoReq_word {s : State} {c : Cap} {x op rm fl : Nat} {a b v : Word} (h : MayAmo s c x 8) (hop : op < 11)
    (hf : amoF op rm (BitVec.ofNat 64 (s.objWord c.o (s.entry c.o) (c.b + x))) a b = (v, fl)) (d r : Nat) :
    s.amoReq s.cur c s.me.lkey op (c.b + x) d r a b rm =
      (s.putWord c.o (s.entry c.o) (c.b + x) v.toNat,
        .done { xs := [(d, BitVec.ofNat 64 (s.objWord c.o (s.entry c.o) (c.b + x)))], flags := fl, acquire := true }) := by
  obtain ⟨-, -, -, -, -, -, -, -, -, -, hchk, hcls, hhere, hgood, hver⟩ := h
  have hsize : amoSize op = 8 := if_pos hop
  have hadmit : s.check18 c (s.cur / 16) s.me.lkey true = none := hchk
  simp [amoReq, hadmit, hcls, hsize, hhere, hgood, hver, hop, hf]

theorem amoOp_word {s : State} {op n d r fl : Nat} {v : Word} (h : MayAmo s (s.c n) (s.xn d) 8) (hop : op < 11)
    (hf : amoF op s.me.rm (BitVec.ofNat 64 (s.objWord (s.c n).o (s.entry (s.c n).o) ((s.c n).b + s.xn d))) (s.x r) (s.x (r + 1)) = (v, fl))
    (i : Instr) (la : Nat) :
    amoOp i op la n r d s = .next ((s.putWord (s.c n).o (s.entry (s.c n).o) ((s.c n).b + s.xn d) v.toNat).openW la i
      (.done { xs := [(d, BitVec.ofNat 64 (s.objWord (s.c n).o (s.entry (s.c n).o) ((s.c n).b + s.xn d)))], flags := fl, acquire := true })) := by
  have hsize : amoSize op = 8 := if_pos hop
  simp only [amoOp_of_mayAmo (hsize ▸ h), State.amoReq_word h hop hf]

/-- Each entry of the table of the word atomics is the operation of its instruction at the home. -/
theorem exists_op_of_mem_tableAmo {p : (Nat → Nat → Nat → Nat → Instr) × (Word → Word → Word → Word)} (hp : p ∈ tableAmo) :
    ∃ op, op < 11 ∧ (∀ la c r d s, exec (p.1 la c r d) s = amoOp (p.1 la c r d) op la c r d s) ∧
      ∀ rm old a b, amoF op rm old a b = (p.2 old a b, 0) := by
  revert p
  simp only [tableAmo, List.forall_mem_cons, List.not_mem_nil, false_implies, implies_true, and_true]
  refine ⟨⟨0, by decide, fun _ _ _ _ _ => rfl, ?_⟩, ⟨1, by decide, fun _ _ _ _ _ => rfl, ?_⟩, ⟨2, by decide, fun _ _ _ _ _ => rfl, ?_⟩,
    ⟨3, by decide, fun _ _ _ _ _ => rfl, ?_⟩, ⟨4, by decide, fun _ _ _ _ _ => rfl, ?_⟩, ⟨5, by decide, fun _ _ _ _ _ => rfl, ?_⟩,
    ⟨6, by decide, fun _ _ _ _ _ => rfl, ?_⟩, ⟨7, by decide, fun _ _ _ _ _ => rfl, ?_⟩, ⟨8, by decide, fun _ _ _ _ _ => rfl, ?_⟩,
    ⟨9, by decide, fun _ _ _ _ _ => rfl, ?_⟩⟩ <;> simp [amoF, BitVec.sle, BitVec.ule]

/-- amo.fadd adds lane by lane, and its flags are those of both lanes (06 R164). -/
theorem amoF_fadd {old : Nat} (hold : old < 2 ^ 64) (rm : Nat) (a b : Word) :
    amoF 10 rm (BitVec.ofNat 64 old) a b =
      (BitVec.ofNat 64 ((faddLane rm old a.toNat 1).1 * 2 ^ 32 + (faddLane rm old a.toNat 0).1),
        (faddLane rm old a.toNat 0).2 ||| (faddLane rm old a.toNat 1).2) := by
  have hnat : (BitVec.ofNat 64 old).toNat = old := Nat.mod_eq_of_lt hold
  simp only [amoF, faddLane, roundsTo, hnat]

/-! ### The queues in HBM (06 R165, R166) -/

/-- The header of a valid queue is head, tail and slot count. -/
theorem State.queue_eq_some {s : State} {c : Cap} {e : Entry} {off h t n : Nat} (hh : s.objWord c.o e off = h)
    (ht : s.objWord c.o e (off + 8) = t) (hn : s.objWord c.o e (off + 16) = n) (hh48 : h < 2 ^ 48) (ht48 : t < 2 ^ 48)
    (hle : (t + 2 ^ 48 - h) % 2 ^ 48 ≤ n) (hpos : 0 < n) (hn32 : n < 2 ^ 32) (htop : off + 32 + 8 * n ≤ c.top) :
    s.queue c e off = some (h, t, n) := by
  have hvalid : ¬ (2 ^ 48 ≤ h ∨ 2 ^ 48 ≤ t ∨ 2 ^ 32 ≤ n ∨ n = 0 ∨ n < (t + (2 ^ 48 - h)) % 2 ^ 48 ∨ c.top < off + 32 + 8 * n) := by omega
  simp only [queue, hh, ht, hn, Bool.or_eq_true, decide_eq_true_eq, or_assoc, if_neg hvalid]

section
variable {s : State} {c : Cap} {e : Entry} {off h t n : Nat}

/-- The slot that a queue instruction accesses is one of the queue's. -/
theorem State.exists_of_queueSlot_eq_some {deq : Bool} {a : Nat} (hq : s.queue c e off = some (h, t, n)) (hpos : 0 < n)
    (ha : s.queueSlot deq c e off = some a) : ∃ i, i < n ∧ a = off + 32 + 8 * i := by
  simp only [queueSlot, hq, Option.ite_none_left_eq_some, Option.some.injEq] at ha
  exact ⟨_, Nat.mod_lt _ hpos, ha.2.symm⟩

/-- amo.enq at a full queue. -/
theorem State.queueOp_enq_full (hq : s.queue c e off = some (h, t, n)) (hfull : (t + (2 ^ 48 - h)) % 2 ^ 48 = n) (d r : Nat) (v : Word) :
    s.queueOp false c e off d r v = (s, .done { xs := [(d, BitVec.allOnes 64)], acquire := true }) := by
  simp only [queueOp, hq, Bool.false_eq_true, if_false, if_pos hfull]

/-- amo.enq at a queue with room. -/
theorem State.queueOp_enq_room (hq : s.queue c e off = some (h, t, n)) (hroom : (t + (2 ^ 48 - h)) % 2 ^ 48 ≠ n) (d r : Nat) (v : Word) :
    s.queueOp false c e off d r v =
      ((s.putWord c.o e (off + 32 + 8 * (t % n)) v.toNat).putWord c.o e (off + 8) ((t + 1) % 2 ^ 48),
        .done { xs := [(d, BitVec.ofNat 64 t)], acquire := true }) := by
  simp only [queueOp, hq, Bool.false_eq_true, if_false, if_neg hroom]

/-- amo.deq at an empty queue. -/
theorem State.queueOp_deq_empty (hq : s.queue c e off = some (h, t, n)) (hempty : t = h) (d r : Nat) (v : Word) :
    s.queueOp true c e off d r v = (s, .done { xs := [(d, BitVec.allOnes 64), (r, 0)], acquire := true }) := by
  simp only [queueOp, hq, if_true, if_pos hempty]

/-- amo.deq at a queue that holds a value. -/
theorem State.queueOp_deq_value (hq : s.queue c e off = some (h, t, n)) (hvalue : t ≠ h) (d r : Nat) (v : Word) :
    s.queueOp true c e off d r v =
      (s.putWord c.o e off ((h + 1) % 2 ^ 48),
        .done { xs := [(d, BitVec.ofNat 64 h), (r, BitVec.ofNat 64 (s.objWord c.o e (off + 32 + 8 * (h % n))))], acquire := true }) := by
  simp only [queueOp, hq, if_true, if_neg hvalue]

end

/-- A word that neither a missing granule, nor a poison syndrome, nor the end of its sector's versions keeps an atomic from. -/
def State.WordReady (s : State) (c : Cap) (a : Nat) : Prop :=
  s.rangeHere c.o (s.entry c.o) a 8 = true ∧ s.badIn c.o (s.entry c.o) a 8 = 0 ∧ s.versionEnd c.o (s.entry c.o) a 8 = false

/-- A queue instruction that its port admits, and whose slot, if it accesses one, is ready, is performed (06 R166). -/
theorem State.amoReq_queue {s : State} {c : Cap} {x op : Nat} (h : MayAmo s c x 32) (hop : ¬ op < 11)
    (hslot : ∀ a8, s.queueSlot (op == 12) c (s.entry c.o) (c.b + x) = some a8 → s.WordReady c a8) (d r : Nat) (a b : Word) (rm : Nat) :
    s.amoReq s.cur c s.me.lkey op (c.b + x) d r a b rm = s.queueOp (op == 12) c (s.entry c.o) (c.b + x) d r a := by
  obtain ⟨-, -, -, -, -, -, -, -, -, -, hchk, hcls, hhere, hgood, hver⟩ := h
  have hsize : amoSize op = 32 := if_neg hop
  have hadmit : s.check18 c (s.cur / 16) s.me.lkey true = none := hchk
  simp only [amoReq, hadmit, hcls, hsize, hhere, hgood, hver, hop]
  cases hq : s.queueSlot (op == 12) c (s.entry c.o) (c.b + x) with
  | none => simp
  | some a8 =>
    obtain ⟨hhere8, hgood8, hver8⟩ := hslot a8 hq
    simp [hhere8, hgood8, hver8]

theorem amoOp_queue {s t : State} {op n d r : Nat} {w : WinSt} (h : MayAmo s (s.c n) (s.xn d) 32) (hop : ¬ op < 11)
    (hslot : ∀ a8, s.queueSlot (op == 12) (s.c n) (s.entry (s.c n).o) ((s.c n).b + s.xn d) = some a8 → s.WordReady (s.c n) a8)
    (hq : s.queueOp (op == 12) (s.c n) (s.entry (s.c n).o) ((s.c n).b + s.xn d) d r (s.x r) = (t, w)) (i : Instr) (la : Nat) :
    amoOp i op la n r d s = .next (t.openW la i w) := by
  have hsize : amoSize op = 32 := if_neg hop
  simp only [amoOp_of_mayAmo (hsize ▸ h), State.amoReq_queue h hop hslot, hq]

end Sys2Proof.Machine

namespace Sys2Proof.Proofs
open Sys2Proof.Machine Sys2Proof.Claim

/-- The atomics on words: amoF has the function of each entry of the table, and amo.fadd's sum is taken modulo 2^64. -/
theorem atomics : Atomics := by
  intro s la c r d h
  refine ⟨fun p hp => ?_, ?_⟩
  · obtain ⟨op, hop, hexec, hf⟩ := exists_op_of_mem_tableAmo hp
    rw [hexec]
    exact amoOp_word h hop (hf ..) _ la
  · have hold := s.objWord_lt (s.c c).o (s.entry (s.c c).o) ((s.c c).b + s.xn d)
    have hadd := amoOp_word h (by decide) (amoF_fadd hold s.me.rm (s.x r) (s.x (r + 1))) (.amoFadd la c r d) la
    rw [BitVec.toNat_ofNat] at hadd
    exact hadd

/-- The queues: the header is valid, every slot is ready, and each answer is that of the queue at its home. -/
theorem queues : Queues := by
  intro s la c r d hmay cp e off h t n hh ht hn q hh48 ht48 hle hpos hn32 htop hready
  have hq : s.queue cp e off = some (h, t, n) := State.queue_eq_some hh ht hn hh48 ht48 hle hpos hn32 htop
  have hcount : q = (t + (2 ^ 48 - h)) % 2 ^ 48 := congrArg (· % 2 ^ 48) (Nat.add_sub_assoc (Nat.le_of_lt hh48) t)
  have hslot (deq : Bool) (a8 : Nat) (ha : s.queueSlot deq cp e off = some a8) : s.WordReady cp a8 := by
    obtain ⟨i, hi, rfl⟩ := State.exists_of_queueSlot_eq_some hq hpos ha
    exact hready i hi
  have henq {u : State} {w : WinSt} (hop : s.queueOp false cp e off d r (s.x r) = (u, w)) :=
    amoOp_queue (op := 11) hmay (by decide) (hslot false) hop (.amoEnq la c r d) la
  have hdeq {u : State} {w : WinSt} (hop : s.queueOp true cp e off d r (s.x r) = (u, w)) :=
    amoOp_queue (op := 12) hmay (by decide) (hslot true) hop (.amoDeq la c r d) la
  exact ⟨fun hroom => henq (State.queueOp_enq_room hq (hcount ▸ Nat.ne_of_lt hroom) ..),
    fun hfull => henq (State.queueOp_enq_full hq (hcount ▸ hfull) ..),
    fun hvalue => hdeq (State.queueOp_deq_value hq hvalue.symm ..),
    fun hempty => hdeq (State.queueOp_deq_empty hq hempty.symm ..)⟩

/-- Settles O17: an atomic that may issue is performed by its port in its own step, on the word or on the queue. -/
theorem atomicsAndQueues : Obligations.AtomicsAndQueues := ⟨atomics, queues⟩

end Sys2Proof.Proofs
